-- ==== Sys2Proof/Word.lean ====
section
/-! DEFINITION. The byte and the 32-bit register word. -/

namespace Sys2Proof

/-- A byte of memory, of a request or of a record. -/
abbrev Byte := BitVec 8

/-- A 32-bit register word. -/
abbrev Word := BitVec 32

end Sys2Proof
end

