-- ==== Sys2Proof/Syntax.lean ====
section
/-! DEFINITION. The commands of the block: their operand types and the one inductive of all of them. -/

namespace Sys2Proof

/-- Where a command comes from: PF0's four mailboxes, PF1's two, the two-wire mailbox (R135, R488), or, at a satellite, a control
request of the upstream link with its AUTH flag and request tag (R470). -/
inductive MbId where
  | pf0 (m : Fin 4)
  | pf1 (m : Fin 2)
  | twoWire
  | cascade (auth : Bool) (tag : BitVec 32)
  deriving DecidableEq, Repr

/-- A request as Table 4-5 lays it out, without CLASS and COMMAND, which the row gives. -/
structure Req where
  flags : BitVec 8
  version : BitVec 8
  tag : BitVec 32
  length : BitVec 16
  rsv : BitVec 16
  node : BitVec 32
  payload : List Byte
  deriving DecidableEq, Repr

/-- The two BARs of a function (R104). -/
inductive Bar where
  | bar0
  | bar2
  deriving DecidableEq, Repr

/-- An AtomicOp's operation (R106). -/
inductive AtomicFn where
  | fetchAdd
  | swap
  | cas
  deriving DecidableEq, Repr

/-- A host write to a function's PCIe configuration space (R107, R117, R105). -/
inductive CfgWrite where
  | busMaster (on : Bool)
  | msixControl (enable mask : Bool)
  | powerState (d3 : Bool)
  | maxReadRequest (bytes : Nat)
  | other (reg : Nat) (value : BitVec 32)
  deriving DecidableEq, Repr

/-- What a boot ROM step finds outside the die when it finishes: a PLL without lock, an uncorrectable SRAM macro, an
uncorrectable fuse row, a flash without JEDEC identification, a lost cascade transfer, and the image bytes that a QSPI
read returned. -/
structure BootObs where
  pll : Option Nat
  sram : Option Nat
  fuse : Option Nat
  flash : Option Nat
  lost : Option Nat
  image : List Byte
  deriving DecidableEq, Repr

/-- The values of the five strap inputs (R171). -/
structure StrapIn where
  role : Bool
  bootsrc : BitVec 2
  twaddr : BitVec 2
  deriving DecidableEq, Repr

/-- How a CSI-2 packet header passed its check (R213, R214). -/
inductive Hdr where
  | good
  | corrected
  | bad
  deriving DecidableEq, Repr

/-- A queue of Table 13-7: queue q of port n, from pipeline p to the seam engine, an edge-band link of a cluster (towards the next cluster
or back), from a cluster to its link, its side-record queue, and its arrival at the root. -/
inductive QueueId where
  | port (n : Fin 56) (q : Fin 9)
  | seam (p : Fin 64)
  | edge (c : Fin 8) (next : Bool)
  | link (c : Fin 8)
  | side (c : Fin 8)
  | root (c : Fin 8)
  deriving DecidableEq, Repr


/-- What a remote serializer reports of a tunnelled transfer (R500): done with the bytes read; a NACK of an address or of a data byte, with
segment, byte and the bytes read; an arbitration loss at a byte and bit; a bus stuck low, with SDA low or not and the pulses sent. -/
inductive TunnelReport where
  | done (data : List Byte)
  | nack (addr : Bool) (seg : Fin 8) (byte : BitVec 9) (data : List Byte)
  | lost (byte : BitVec 9) (bitNo : Fin 8)
  | stuck (sda : Bool) (pulses : Fin 10)
  deriving DecidableEq, Repr

/-- How an attempt to send an alert ends (R494): all six bytes acknowledged, arbitration lost, or a NACK. -/
inductive AlertEnd where
  | acked
  | lost
  | nacked
  deriving DecidableEq, Repr

/-- Where flags are cleared (R169, R487): a register of a function's BAR, or the two-wire status register. -/
inductive FlagAt where
  | host (fn : Fin 2) (bar : Bar) (off : Nat)
  | twoWire
  deriving DecidableEq, Repr

/-- What an INIT packet carries (R453): role, device index, unique identifier, nonce, caps, boot state, receive pools in 64-byte
units, and the acknowledge flag. -/
structure InitInfo where
  satellite : Bool
  index : Nat
  uid : List Byte
  nonce : List Byte
  rateCap : Nat
  widthCap : Nat
  booting : Bool
  pools : List Nat
  ack : Bool
  deriving DecidableEq, Repr

def InitInfo.none : InitInfo := ⟨false, 0, [], [], 0, 0, false, [], false⟩

/-- A device that an enumeration finds (R17, R468): the place of its parent in the list (none where the parent is this device), the
parent's quad, and what it says of itself. -/
structure Found where
  up : Option (Fin 16)
  quad : Fin 4
  uid : List Byte
  form : Bool
  formLevel : Nat
  ifLevel : Nat
  deriving DecidableEq, Repr

/-- What stands when a link enters UP: its lanes as (physical lane, logical lane, skew), and the devices found behind a downstream link in
depth-first order. -/
structure LinkUp where
  lanes : List (Fin 4 × Fin 4 × Fin 17)
  found : List Found
  deriving DecidableEq, Repr

/-- The extension header and payload of a received packet (Table 14-4a). -/
structure PacketIn where
  cls : Fin 4
  flags : BitVec 8
  src : Fin 16
  dst : Fin 16
  aux : BitVec 32
  payload : List Byte
  deriving DecidableEq, Repr

/-- A received trigger message (Table 14-6) without its check value. -/
structure TrigIn where
  tseq : BitVec 16
  stream : Fin 16
  head : BitVec 8
  dst : Fin 16
  index : BitVec 48
  seq : BitVec 48
  emitNs : BitVec 30
  deriving DecidableEq, Repr


/-- One command of the block: one constructor per row of the opcode table, in the table's order. The docstring of each
names the row and its rule. -/
inductive Instr where
  /-- INBOUND_POSTED_WRITE (R591). A host posted write to BAR0 or BAR2 is checked word by word and carried out; this row also covers writes to registers and memory that have no row of their own. -/
  | inboundPostedWrite (fn : Fin 2) (bar : Bar) (off : Nat) (data : List (Option Byte))
  /-- INBOUND_READ (R130). A host BAR read is accepted once completion space is reserved, checked under R118, and completed. -/
  | inboundRead (fn : Fin 2) (bar : Bar) (off len : Nat)
  /-- ATOMIC_OP (R125). An AtomicOp in the atomic window locks its bank, performs the read-modify-write and returns the old value. -/
  | atomicOp (fn : Fin 2) (bar : Bar) (off : Nat) (op : AtomicFn) (wide : Bool) (operand compare : Nat)
  /-- W1C_FLAG_CLEAR (R169). A W1C write clears the named status flags and leaves their occurrence counters unchanged. -/
  | w1cFlagClear (at_ : Sys2Proof.FlagAt) (value : BitVec 32)
  /-- SRAM_WIN_BASE_WRITE (R114). A write of SRAM_WIN_BASE relocates the shared-SRAM window for all later accesses. -/
  | sramWinBaseWrite (fn : Fin 2) (value : BitVec 32)
  /-- MSIX_VECTOR_UNMASK (R117). Unmasking an MSI-X vector sends the message held in its pending bit. -/
  | msixVectorUnmask (fn : Fin 2) (vec : Fin 128)
  /-- UCIE_MODULE_TRAINED (R97). A UCIe module completes training at the highest common rate not above RATE_CAP. -/
  | ucieModuleTrained (m : Fin 2) (hostRate : Fin 7) (lowLat : Bool) (repairs : Fin 16) (roundTrip : BitVec 16)
  /-- UCIE_TRAINING_RETRY (R97). The retry interval after a failed training expires and the module trains again. -/
  | ucieTrainingRetry (m : Fin 2)
  /-- UCIE_MODULE_DOWN (R101). A UCIe module goes down; traffic moves to the other module, or Safe-hold follows if both are down. -/
  | ucieModuleDown (m : Fin 2) (ltsm : BitVec 8)
  /-- UCIE_LINK_REPLAY (R100). The adapter replays a flit at link level and counts it in REPLAYS, setting REPLAY_EXCESS on a second replay. -/
  | ucieLinkReplay (rec : Option (Fin 16 × BitVec 48))
  /-- FUNCTION_LEVEL_RESET (R177). A PCIe FLR returns one function's state to reset and closes that world's streams. -/
  | functionLevelReset (fn : Fin 2)
  /-- FLR_DONE (R109). A Function Level Reset completes and raises event 0x01/0x25. -/
  | flrDone (fn : Fin 2)
  /-- HOST_CREDIT_RETURN (R131). The host returns posted credits, allowing waiting outbound writes to proceed. -/
  | hostCreditReturn (bytes : Nat)
  /-- OUTBOUND_READ_COMPLETION (R128). Completion data for a device read of host memory arrives in the reserved inbound completion space. -/
  | outboundReadCompletion (tag : Nat) (ok : Bool) (data : List Byte)
  /-- DOORBELL_RING (R136). A doorbell write with RING set moves an Idle mailbox to Queued. -/
  | doorbellRing (m : MbId)
  /-- RESPONSE_CONSUME (R135). A W1C of RESP_READY consumes the response and returns the mailbox to Idle. -/
  | responseConsume (m : MbId)
  /-- MAILBOX_TAKE (R138). Firmware takes the next queued command, journals it, checks it in the order of R144, and executes it. -/
  | mailboxTake
  /-- ORDERED_COMMAND_RELEASE (R148). A command held with ORDERED is released once every earlier-taken command of its world has completed. -/
  | orderedCommandRelease
  /-- GET_IDENTITY (R153). Returns form level, interface level, role, form, unique identifier and firmware slot. -/
  | getIdentity (m : MbId) (r : Req)
  /-- GET_VERSIONS (R152). Returns the highest supported version of each command of a class. -/
  | getVersions (m : MbId) (r : Req)
  /-- ECHO (R153). Returns its payload unchanged. -/
  | echo (m : MbId) (r : Req)
  /-- ABORT (R154). Ends a pending command before its point of no return and undoes its effects. -/
  | abort (m : MbId) (r : Req)
  /-- CLEAR_FLAG_COUNTERS (R596). Clears every occurrence counter of the named flag register. -/
  | clearFlagCounters (m : MbId) (r : Req)
  /-- GET_HEADER (R155). Returns the 64-byte header of a node. -/
  | getHeader (m : MbId) (r : Req)
  /-- LIST_CHILDREN (R155). Returns the node addresses of a node's children in ascending order. -/
  | listChildren (m : MbId) (r : Req)
  /-- READ_COUNTERS (R30). Returns a node's own or subtree-summed common counters. -/
  | readCounters (m : MbId) (r : Req)
  /-- CLEAR_COUNTERS (R156). Clears the common counters of a node or of its reachable subtree. -/
  | clearCounters (m : MbId) (r : Req)
  /-- NODE_RESET (R156). Starts BIST on a Faulted pipeline or cluster. -/
  | nodeReset (m : MbId) (r : Req)
  /-- NODE_RESET_BIST_DONE (R155). The node's BIST ends; the node goes to Gated on a pass and to Retired on a fail. -/
  | nodeResetBistDone (nid : Fin 0x140) (pass : Bool)
  /-- DATA_PORT_ADDR_WRITE (R159). A write of ADDR_LO or ADDR_HI moves the data port and starts a prefetch fill. -/
  | dataPortAddrWrite (fn n : Fin 2) (hi : Bool) (value : BitVec 32)
  /-- DATA_PORT_CTRL_WRITE (R157). A write of INC or PREFETCH changes the port's increment or prefetch mode and starts a fill. -/
  | dataPortCtrlWrite (fn n : Fin 2) (value : BitVec 32)
  /-- DATA_PORT_NEXT (R157). Writing NEXT advances ADDR by 1,024 increments and starts a fill. -/
  | dataPortNext (fn n : Fin 2)
  /-- DATA_PORT_REFRESH (R159). Writing REFRESH refills the prefetch buffer. -/
  | dataPortRefresh (fn n : Fin 2)
  /-- DATA_PORT_FILL_DONE (R159). A prefetch fill completes and waiting window reads are served. -/
  | dataPortFillDone (fn n : Fin 2)
  /-- DATA_PORT_WINDOW_WRITE (R158). A write to a data-port window lands at the internal address given by ADDR and INC. -/
  | dataPortWindowWrite (fn n : Fin 2) (off : Nat) (data : List (Option Byte))
  /-- STATUS_PAGE_REFRESH (R164). Firmware refreshes the status page at 1 kHz, bracketed by GEN increments. -/
  | statusPageRefresh
  /-- POWER_ON (R174). VDD_AON reaches power-good and the whole device resets. -/
  | powerOn
  /-- NRESET (R174). nRESET held low resets the device except the time base, encoder counters, TRIP_SEEN and RESET_CAUSE. -/
  | nreset
  /-- STRAP_SAMPLE (R171). The straps are sampled on the 64th aclk cycle after reset release and latched. -/
  | strapSample (v : StrapIn)
  /-- BOOT_STEP_COMPLETE (R180). A boot ROM step finishes and the ROM enters the next step. -/
  | bootStepComplete (o : BootObs)
  /-- BOOT_GO (R184). A GO write tells the ROM that the host image is in place. -/
  | bootGo
  /-- BOOT_STEP_TIMEOUT (R183). A boot step exceeds 4 times its bound and boot fails with code 0x0D. -/
  | bootStepTimeout
  /-- FIRMWARE_READY (R175). Firmware completes its start-up and sets FW_READY. -/
  | firmwareReady
  /-- WATCHDOG_EXPIRY (R79). The control-core watchdog expires. -/
  | watchdogExpiry
  /-- WATCHDOG_ESCALATION (R176). The restarted firmware misses FW_READY within 200 ms, or a third expiry arrives, and the device resets with nRESET scope. -/
  | watchdogEscalation
  /-- SET_MODE (R55). Requests a mode transition of a device or group. -/
  | setMode (m : MbId) (r : Req)
  /-- MODE_TRANSITION_DONE (R55). A pending mode transition completes and raises 'mode changed'. -/
  | modeTransitionDone
  /-- UCIE_SIDEBAND_ACTIVITY (R94). Activity on the sideband of UCIe module 0 is detected in the always-on domain. -/
  | ucieSidebandActivity
  /-- CASCADE_LANE_ENERGY (R94). Signal energy appears on lane 0 of the upstream cascade quad. -/
  | cascadeLaneEnergy
  /-- ORDERLY_STOP_STREAM_CLOSE (R58). On an orderly thermal stop, each stream closes at its next row boundary within 2 ms. -/
  | orderlyStopStreamClose (i : Fin 16)
  /-- GET_MODE (R92). Returns the mode and the device mode register. -/
  | getMode (m : MbId) (r : Req)
  /-- GET_NODE_STATE (R92). Returns a node's state and SUBTREE_STATES. -/
  | getNodeState (m : MbId) (r : Req)
  /-- SET_NODE_STATE (R93). Drives a pipeline or cluster through the chain of state transitions to the named state. -/
  | setNodeState (m : MbId) (r : Req)
  /-- SET_WAKE_POLICY (R93). Sets the wake policy of a pipeline or of a cluster's pipelines, and the cluster idle time. -/
  | setWakePolicy (m : MbId) (r : Req)
  /-- GET_DOMAINS (R92). Returns the DOMAIN_ON and DOMAIN_RET registers. -/
  | getDomains (m : MbId) (r : Req)
  /-- THERMAL_READ (R92). Returns the thermal registers of a device, or of the hottest member of a group. -/
  | thermalRead (m : MbId) (r : Req)
  /-- THERMAL_CONFIG (R93). Sets RATE_LIMIT, WARN, THROTTLE and the sensor exclusion mask. -/
  | thermalConfig (m : MbId) (r : Req)
  /-- RELEASE (R56). Requests leaving Safe-hold for Armed once the cause has cleared. -/
  | release (m : MbId) (r : Req)
  /-- RETIRE (R93). Retires a pipeline, moving the spare role when the pipeline held it. -/
  | retire (m : MbId) (r : Req)
  /-- PIPELINE_WAKE_DONE (R73). A pipeline completes its wake and becomes Running. -/
  | pipelineWakeDone (p : Fin 64)
  /-- PIPELINE_IDLE_TIMEOUT (R74). A pipeline idle for 64 pclk cycles after its last pixel enters its sleep state. -/
  | pipelineIdleTimeout (p : Fin 64)
  /-- PIPELINE_POWER_DOWN_DONE (R76). A pipeline power-down completes and any wake request waiting on it takes effect. -/
  | pipelinePowerDownDone (p : Fin 64)
  /-- CLUSTER_IDLE_TIMEOUT (R71). A cluster idle for the cluster idle time has its PLL stopped. -/
  | clusterIdleTimeout (c : Fin 8)
  /-- SENSOR_SAMPLE (R87). The safety net samples the temperature sensors and evaluates the thermal state machine. -/
  | sensorSample (readings : Vector (BitVec 16) 20) (grid : Bool)
  /-- THROTTLE_STEP_TIMER (R87). Every 100 ms while Tmax is at or above THROTTLE, a further throttle step is applied. -/
  | throttleStepTimer
  /-- THROTTLE_UNDO_TIMER (R87). Every 500 ms while Tmax is below THROTTLE − 3 °C, the last applied step is undone. -/
  | throttleUndoTimer
  /-- THROTTLE_STEP_APPLY (R88). A step that changes processing takes effect, or is undone, at the next row or frame boundary. -/
  | throttleStepApply (i : Fin 16)
  /-- SUPPLY_UNDERVOLTAGE (R78). A supply below its threshold for 1 µs is a device-class fault. -/
  | supplyUndervoltage (n : Fin 12)
  /-- REFCLK_LOSS (R576). REFCLK is absent for 1 µs; the device enters Safe-hold with supply index 12. -/
  | refclkLoss
  /-- PORT_CONFIG (R194). Changes a port's PHY settings, restarting link start-up where the change requires it. -/
  | portConfig (m : MbId) (r : Req)
  /-- PORT_ENABLE (R193). Powers a port and starts its link, or disables it. -/
  | portEnable (m : MbId) (r : Req)
  /-- STEERING_SET (R207). Replaces a port's steering table and queue reserves between two packets. -/
  | steeringSet (m : MbId) (r : Req)
  /-- FRAMER_SET (R223). Sets a pipeline's framer geometry and timeouts. -/
  | framerSet (m : MbId) (r : Req)
  /-- PORT_STATUS (R224). Returns a port's status registers and counters. -/
  | portStatus (m : MbId) (r : Req)
  /-- FRAMER_STATUS (R224). Returns a pipeline's framer counters. -/
  | framerStatus (m : MbId) (r : Req)
  /-- CLEAR_PORT_COUNTERS (R224). Clears the port or framer counters. -/
  | clearPortCounters (m : MbId) (r : Req)
  /-- EQ_ADAPT (R199). Restarts background adaptation or runs a full equalizer re-adaptation. -/
  | eqAdapt (m : MbId) (r : Req)
  /-- EQ_ADAPT_DONE (R199). An equalizer re-adaptation completes and sets EQ_READAPT. -/
  | eqAdaptDone (n : Fin 56)
  /-- EYE_SCAN (R200). Starts an eye scan of one lane or trio in Maintenance. -/
  | eyeScan (m : MbId) (r : Req)
  /-- EYE_SCAN_DONE (R200). An eye scan ends and its error counts are written to the result region. -/
  | eyeScanDone (n : Fin 56) (counts : List (BitVec 32))
  /-- GET_EQ (R224). Returns the equalizer settings of each lane of a port. -/
  | getEq (m : MbId) (r : Req)
  /-- PORT_LINK_LOCKED (R193). A port completes link start-up and reaches LINK = 2. -/
  | portLinkLocked (n : Fin 56) (gear : Fin 6) (rtx : Bool) (rtt : BitVec 20)
  /-- PORT_STARTUP_TIMEOUT (R193). A port fails to lock within 30 ms, raises 'start-up failed', and retries every 100 ms. -/
  | portStartupTimeout (n : Fin 56)
  /-- PORT_LINK_LOSS (R195). A locked A-PHY port loses its link; LINK becomes Starting and start-up runs again. -/
  | portLinkLoss (n : Fin 48)
  /-- COMBO_BURST_TIMEOUT (R195). A combo port sees no valid burst for its longest LINE_TIMEOUT and drops to Starting. -/
  | comboBurstTimeout (k : Fin 8)
  /-- APHY_PACKET_RECEIVE (R196). An A-PHY packet arrives; a damaged one is retried up to RTX_LIMIT times or counted lost. -/
  | aphyPacketReceive (n : Fin 48) (damaged : Nat)
  /-- CSI2_LONG_PACKET (R206). A CSI-2 long packet has its header checked and is steered to a pipeline queue, the side path or discard. -/
  | csi2LongPacket (n : Fin 56) (h : Hdr) (vc : Fin 32) (dt : Fin 64) (payload : List Byte) (crcOk : Bool) (t : Nat)
  /-- CSI2_SHORT_PACKET (R206). A CSI-2 short packet is checked and delivered to the framers of matching pipelines. -/
  | csi2ShortPacket (n : Fin 56) (h : Hdr) (vc : Fin 32) (dt : Fin 16) (t : Nat)
  /-- FRAMER_TAKE_LINE_HEADER (R219). The framer takes a line header from the port buffer, opens the line and binds it. -/
  | framerTakeLineHeader (p : Fin 64)
  /-- FRAMER_TAKE_LINE_DATA (R218). The framer takes line data words into the pipeline and restarts the line timeout. -/
  | framerTakeLineData (p : Fin 64) (count : Nat)
  /-- FRAMER_TAKE_LINE_END (R217). The framer takes a line-end short packet and applies the length rules to the open line. -/
  | framerTakeLineEnd (p : Fin 64)
  /-- FRAMER_TAKE_FRAME_START (R217). The framer takes a frame start, opening a frame or truncating an open one. -/
  | framerTakeFrameStart (p : Fin 64)
  /-- FRAMER_TAKE_FRAME_END (R217). The framer takes a frame end and completes the frame to FRAME_LINES. -/
  | framerTakeFrameEnd (p : Fin 64)
  /-- LINE_TIMEOUT_EXPIRY (R218). LINE_TIMEOUT expires; the line closes padded and TRUNCATED, and resync begins. -/
  | lineTimeoutExpiry (p : Fin 64)
  /-- FRAME_TIMEOUT_EXPIRY (R218). FRAME_TIMEOUT expires; the frame closes with fill lines and TRUNCATED. -/
  | frameTimeoutExpiry (p : Fin 64)
  /-- TIME_SHARED_WAIT_EXPIRY (R212). A waiting unit of a time-shared pipeline reaches WAIT_BOUND and is dropped whole. -/
  | timeSharedWaitExpiry (p : Fin 64)
  /-- QUEUE_STALE_TIMEOUT (R432). A queue holding a partial word unread for its stale timeout forces the complete items out and raises 'stranded tail'. -/
  | queueStaleTimeout (q : QueueId) (valid : Fin 4)
  /-- ENC_CONFIG (R231). Configures an encoder channel, its interpolation limit and its wake window. -/
  | encConfig (m : MbId) (r : Req)
  /-- ENC_READ (R268). Returns an encoder channel's position, edge, interval and index registers. -/
  | encRead (m : MbId) (r : Req)
  /-- ENC_SET (R231). Sets an encoder channel's position. -/
  | encSet (m : MbId) (r : Req)
  /-- TRIGGER_SET (R268). Configures a stream's trigger generator and head entries. -/
  | triggerSet (m : MbId) (r : Req)
  /-- TRIGGER_STATUS (R268). Returns a trigger generator's registers and per-head counters. -/
  | triggerStatus (m : MbId) (r : Req)
  /-- LINK_LATENCY (R248). Starts a measurement of an A-PHY port's tunnel latency. -/
  | linkLatency (m : MbId) (r : Req)
  /-- LINK_LATENCY_DONE (R248). The tunnel latency measurement completes and is reported. -/
  | linkLatencyDone (c : Fin 8) (roundTrip : Option Nat)
  /-- TIME_READ (R268). Returns the time-base value and source register. -/
  | timeRead (m : MbId) (r : Req)
  /-- TIME_SET (R255). Steps the time base to a new value. -/
  | timeSet (m : MbId) (r : Req)
  /-- TIME_ADJUST (R255). Sets ADDEND or starts a slew of the time base. -/
  | timeAdjust (m : MbId) (r : Req)
  /-- PTP_CONFIG (R268). Configures the PTP role, transport and parameters of the time port. -/
  | ptpConfig (m : MbId) (r : Req)
  /-- PTP_STATUS (R268). Returns the time-port registers and PTP identities. -/
  | ptpStatus (m : MbId) (r : Req)
  /-- PIN_CONFIG (R264). Sets a timing pin's function, polarity and filter, or PPS_WIDTH. -/
  | pinConfig (m : MbId) (r : Req)
  /-- PULSE_SET (R266). Configures a pulse generator. -/
  | pulseSet (m : MbId) (r : Req)
  /-- CAPTURE_READ (R264). Returns and consumes the entries of a capture queue. -/
  | captureRead (m : MbId) (r : Req)
  /-- ALARM_SET (R259). Arms the time-base alarm at a given time. -/
  | alarmSet (m : MbId) (r : Req)
  /-- ENCODER_COUNT (R227). An accepted change of an encoder's A and B inputs counts, updating position and stream travel. -/
  | encoderCount (e : Fin 4) (ab : Fin 4) (t : Nat)
  /-- ENCODER_INDEX_EDGE (R231). An index edge captures position and time, and zeroes the position when INDEX_ZERO is set. -/
  | encoderIndexEdge (e : Fin 4) (t : Nat)
  /-- THRESHOLD_FIRE (R236). A scheduled base or head threshold fires at its interpolated time. -/
  | thresholdFire (i : Fin 16)
  /-- TIME_SOURCE_FIRE (R237). With the time base as source, the next index fires at its programmed time. -/
  | timeSourceFire (i : Fin 16)
  /-- HEAD_TRIGGER_EMIT (R243). A head's trigger pulse is emitted at its emission time on its tunnel line or timing pin. -/
  | headTriggerEmit (i : Fin 16)
  /-- HEAD_WINDOW_OPEN (R249). A head's binding window for an index opens at E + HDR_MIN. -/
  | headWindowOpen (i : Fin 16)
  /-- HEAD_WINDOW_CLOSE (R251). A head's window closes with no line bound and its slot is resolved absent. -/
  | headWindowClose (i : Fin 16)
  /-- TIME_ALARM (R259). The time base passes the alarm time; ALARM_HIT is set and wake source bit 3 is raised. -/
  | timeAlarm
  /-- SLEW_END (R255). A slew's duration ends and ADDEND is restored. -/
  | slewEnd
  /-- PPS_OUT_RISE (R265). PPS_OUT rises at a whole second of the time base. -/
  | ppsOutRise
  /-- PPS_OUT_FALL (R265). PPS_OUT falls after PPS_WIDTH. -/
  | ppsOutFall
  /-- PULSE_START (R266). A pulse generator begins a pulse at its scheduled time. -/
  | pulseStart (u : Fin 16)
  /-- PULSE_END (R266). A pulse ends after WIDTH, and the unit stops after COUNT pulses. -/
  | pulseEnd (u : Fin 16)
  /-- TIMING_PIN_EDGE (R264). An accepted edge on a capture pin is queued, and may fire a pin-source index or raise wake source bit 5. -/
  | timingPinEdge (i : Fin 32) (rising : Bool) (ns frac : Nat)
  /-- PPS_IN_EDGE (R264). An accepted edge on PPS_IN is captured as source 32. -/
  | ppsInEdge (ns frac : Nat)
  /-- PPS_IN_TIMEOUT (R258). No PPS_IN edge for 2 s; PPS_IN_LOST is set and holdover begins. -/
  | ppsInTimeout
  /-- PTP_FRAME_RECEIVE (R261). A time-port frame is received, time-stamped, and processed by PTP or dropped. -/
  | ptpFrameReceive (frame : List Byte) (fcsOk : Bool) (t : Nat)
  /-- PTP_ANNOUNCE_TIMEOUT (R258). The PTP announce receipt timeout expires and the time base enters holdover. -/
  | ptpAnnounceTimeout
  /-- PTP_MESSAGE_TRANSMIT (R260). A PTP message interval expires and the port sends its next message. -/
  | ptpMessageTransmit (kind : Fin 3)
  /-- LIN_SET (R274). Sets stage 0 linearization and derives the segment slopes. -/
  | linSet (m : MbId) (r : Req)
  /-- BLACK_SET (R271). Sets the channel geometry, channel map and black levels. -/
  | blackSet (m : MbId) (r : Req)
  /-- DEFECT_SET (R296). Sets the defective-pixel correction controls and threshold. -/
  | defectSet (m : MbId) (r : Req)
  /-- FLAT_SET (R296). Sets or clears the bypass of stage 3. -/
  | flatSet (m : MbId) (r : Req)
  /-- GAUGE_LOAD (R285). Copies a staged gauge bank and static map into the inactive bank. -/
  | gaugeLoad (m : MbId) (r : Req)
  /-- GAUGE_LOAD_DONE (R285). The bank copy completes, its CRC is recorded and the bank becomes Loaded. -/
  | gaugeLoadDone (p : Fin 64)
  /-- GAUGE_SWAP (R286). Arms the listed pipelines to use their Loaded bank from trigger index N. -/
  | gaugeSwap (m : MbId) (r : Req)
  /-- GAUGE_READ (R296). Starts writing a gauge bank into a result region. -/
  | gaugeRead (m : MbId) (r : Req)
  /-- GAUGE_READ_DONE (R296). The gauge bank has been written to the result region. -/
  | gaugeReadDone (p : Fin 64)
  /-- SWATCH_START (R289). Zeroes the accumulator and starts a swatch capture at the next boundary. -/
  | swatchStart (m : MbId) (r : Req)
  /-- SWATCH_ABORT (R291). Ends a swatch capture with its partial sums kept. -/
  | swatchAbort (m : MbId) (r : Req)
  /-- SWATCH_READ (R296). Starts writing the accumulator into a result region. -/
  | swatchRead (m : MbId) (r : Req)
  /-- SWATCH_READ_DONE (R296). The accumulator has been written to the result region. -/
  | swatchReadDone (c : Fin 8)
  /-- GAUGE_COMPUTE (R292). Starts computing dark or flat tables from a Done capture into the inactive bank. -/
  | gaugeCompute (m : MbId) (r : Req)
  /-- GAUGE_COMPUTE_DONE (R294). The computed bank becomes Loaded with its CRC recorded. -/
  | gaugeComputeDone (p : Fin 64)
  /-- CORR_STATUS (R296). Returns the correction counters and bank registers. -/
  | corrStatus (m : MbId) (r : Req)
  /-- WB_SET (R312). Arms new white-balance gains for the listed pipelines from index N. -/
  | wbSet (m : MbId) (r : Req)
  /-- DEMOSAIC_SET (R302). Sets the colour reconstruction mode, colours and edge threshold. -/
  | demosaicSet (m : MbId) (r : Req)
  /-- ALIGN_SET (R307). Sets the multi-line alignment delays, directly or from spacings. -/
  | alignSet (m : MbId) (r : Req)
  /-- MATRIX_SET (R312). Arms a new colour matrix, offsets and luma weights from index N. -/
  | matrixSet (m : MbId) (r : Req)
  /-- STATS_SET (R316). Configures stage 8 statistics. -/
  | statsSet (m : MbId) (r : Req)
  /-- STATS_READ (R319). Starts writing the last statistics record into a result region. -/
  | statsRead (m : MbId) (r : Req)
  /-- STATS_READ_DONE (R319). The statistics record has been written. -/
  | statsReadDone (p : Fin 64)
  /-- COLOUR_STATUS (R319). Returns the colour counters and pending-update registers. -/
  | colourStatus (m : MbId) (r : Req)
  /-- SCREEN_SET (R339). Sets stage 9 ENABLE and HOLD_FLAGGED. -/
  | screenSet (m : MbId) (r : Req)
  /-- SCREEN_TUNE (R339). Arms new screen weights, threshold and floors from a tile row at or after N. -/
  | screenTune (m : MbId) (r : Req)
  /-- SCREEN_STREAM_SET (R330). Sets a stream's cutout mode, cap, margin and audit period. -/
  | screenStreamSet (m : MbId) (r : Req)
  /-- SCREEN_STATUS (R339). Returns the screen counters and quota. -/
  | screenStatus (m : MbId) (r : Req)
  /-- HISTORY_RESET (R328). Empties a pipeline's column histories at its next tile-row boundary. -/
  | historyReset (m : MbId) (r : Req)
  /-- ASSEMBLY_SET (R372). Sets a stream's kind, band size, deadline and area line time. -/
  | assemblySet (m : MbId) (r : Req)
  /-- GEOMETRY_SET (R343). Loads a stream's staged head geometry entries. -/
  | geometrySet (m : MbId) (r : Req)
  /-- GEOMETRY_SET_DONE (R343). The geometry is checked and loaded, and 'geometry loaded' is raised. -/
  | geometrySetDone (i : Fin 16)
  /-- MATCH_SET (R368). Arms new match gains for listed heads from index N. -/
  | matchSet (m : MbId) (r : Req)
  /-- ASSEMBLY_STATUS (R372). Returns a stream's assembly registers, counters and segment map. -/
  | assemblyStatus (m : MbId) (r : Req)
  /-- SLOT_COMPLETE (R354). A head's line passes the head operations into its line slot and its slot completes. -/
  | slotComplete (p : Fin 64)
  /-- ROW_DEADLINE (R355). A row's deadline arrives and the row closes with DEADLINE_CLOSE. -/
  | rowDeadline (i : Fin 16)
  /-- ROW_CLOSE_PHASE (R357). A closed row whose predecessors are done enters the close phase and its spans go to coding. -/
  | rowClosePhase (i : Fin 16)
  /-- SATELLITE_PART_CLOSE (R353). A satellite closes its part of a row at its parent's close time less its lead and sends it upstream. -/
  | satellitePartClose (i : Fin 16)
  /-- SEGMENT_CODE_DONE (R391). A producer finishes coding a segment of a row. -/
  | segmentCodeDone (i : Fin 16) (k : Fin 62)
  /-- CODING_SET (R392). Sets a stream's ratio, effort and INDEPENDENT. -/
  | codingSet (m : MbId) (r : Req)
  /-- EFFORT_SET (R393). Arms a change of compression effort from index N. -/
  | effortSet (m : MbId) (r : Req)
  /-- CODING_STATUS (R399). Returns the coding registers of a stream or a compression slice. -/
  | codingStatus (m : MbId) (r : Req)
  /-- JOB_ABORT (R399). Stops a ring's running job at the end of its current row with status 4. -/
  | jobAbort (m : MbId) (r : Req)
  /-- JOB_STATUS (R399). Returns a job ring's state and the job counters. -/
  | jobStatus (m : MbId) (r : Req)
  /-- JOB_DESCRIPTOR_TAKE (R428). The job engine takes the next submitted descriptor and starts the job. -/
  | jobDescriptorTake (j : Fin 4)
  /-- JOB_ROW_DONE (R395). A memory job finishes compressing or decompressing one row. -/
  | jobRowDone (j : Fin 4)
  /-- JOB_END (R397). A job ends and its completion is written to the completion ring. -/
  | jobEnd (j : Fin 4)
  /-- STREAM_ADMIT (R403). Submits a stream contract for admission. -/
  | streamAdmit (m : MbId) (r : Req)
  /-- STREAM_ADMIT_DONE (R403). Admission completes: terms evaluated, resources allocated, BOUND_NS written. -/
  | streamAdmitDone
  /-- STREAM_START (R443). Arms a stream's trigger generator, latching ORIGIN. -/
  | streamStart (m : MbId) (r : Req)
  /-- STREAM_STOP (R443). Stops issuing indices for a stream. -/
  | streamStop (m : MbId) (r : Req)
  /-- STREAM_STOPPED (R443). The last issued row of a stopping stream is delivered and 'stream stopped' is raised. -/
  | streamStopped (i : Fin 16)
  /-- STREAM_CLOSE (R443). Stops a stream and releases its admission, slots, granules and queues. -/
  | streamClose (m : MbId) (r : Req)
  /-- STREAM_CLOSED (R443). A stream close completes and 'stream closed' is raised. -/
  | streamClosed (i : Fin 16)
  /-- STREAM_STATUS (R445). Returns a stream's delivery registers and counters. -/
  | streamStatus (m : MbId) (r : Req)
  /-- RING_SET (R418). Writes a ring descriptor and restarts its indices. -/
  | ringSet (m : MbId) (r : Req)
  /-- CAROUSEL_READ (R445). Returns the Carousel registers and slot owners. -/
  | carouselRead (m : MbId) (r : Req)
  /-- QUEUE_STATUS (R445). Returns FLUSHES and STRANDED for a node's queues. -/
  | queueStatus (m : MbId) (r : Req)
  /-- CAROUSEL_SLOT_START (R413). A 64-fclk Carousel slot begins and moves its owner's FIFO, then backlog, then lower classes. -/
  | carouselSlotStart (t : Fin 256)
  /-- CAROUSEL_ROTATION_BOUNDARY (R415). A rotation boundary installs a new slot map or SLOT_BYTES and restores guarantees. -/
  | carouselRotationBoundary
  /-- HOST_INDEX_WRITE (R420). The host writes HOST_INDEX, freeing ring space or submitting entries, or the write is ignored as bad. -/
  | hostIndexWrite (fn : Fin 2) (ring : Fin 42) (v : BitVec 32)
  /-- EGRESS_RECORD_DEPART (R424). A waiting record leaves the egress buffer once its ring has space and host credits allow. -/
  | egressRecordDepart (i : Fin 16)
  /-- DEV_INDEX_UPDATE (R421). The device writes DEV_INDEX to INDEX_ADDR, at least every 2 µs while entries are added, and sends the ring interrupt. -/
  | devIndexUpdate (ring : Fin 42)
  /-- RING_HOLDOFF_EXPIRY (R421). A ring's holdoff ends and one interrupt is sent if DEV_INDEX advanced. -/
  | ringHoldoffExpiry (ring : Fin 42)
  /-- RECORD_DELIVERED (R440). The last flit of a record is transmitted and its delivery time is recorded. -/
  | recordDelivered (i : Fin 16) (cause : Fin 7) (component : Nat)
  /-- BOUND_EXPIRY (R440). A record's bound expires undelivered and it counts as a violation or as late while suspended. -/
  | boundExpiry (i : Fin 16) (seq : Nat) (cause : Fin 7) (component : Nat)
  /-- CASCADE_LANE_LOCK (R450). A lane sees 64 consecutive valid sync headers and declares block lock. -/
  | cascadeLaneLock (q l : Fin 4)
  /-- CASCADE_LANE_LOCK_LOSS (R450). A locked lane sees 16 invalid headers of 64 and returns to HUNT, moving the link state. -/
  | cascadeLaneLockLoss (q l : Fin 4)
  /-- CASCADE_INIT_TIMER (R453). In BASE, an end sends an INIT packet every 10 µs until acknowledged. -/
  | cascadeInitTimer (q : Fin 4)
  /-- CASCADE_INIT_RECEIVE (R453). An INIT packet is received, negotiating rate and width and moving the link towards TRAIN. -/
  | cascadeInitReceive (q : Fin 4) (info : InitInfo)
  /-- CASCADE_TRAIN_TIMEOUT (R452). TRAIN does not succeed within 2 ms and the link returns to BASE. -/
  | cascadeTrainTimeout (q : Fin 4)
  /-- CASCADE_LINK_UP (R454). Every agreed lane is locked and deskewed; the link enters UP, exchanges ECHO blocks and derives its key. -/
  | cascadeLinkUp (q : Fin 4) (u : LinkUp)
  /-- SATELLITE_JOIN_INDEX (R475). After configuration restore, the root chooses J per started stream and raises 'satellite joined'. -/
  | satelliteJoinIndex (d : Fin 16) (differ tablesLost : Bool)
  /-- ROW_PART_RECEIVE (R471). A ROW_PART packet is received and, on its last packet, the span is decoded. -/
  | rowPartReceive (q : Fin 4) (seq : BitVec 32) (crcOk : Bool) (p : PacketIn)
  /-- SIDE_PACKET_RECEIVE (R471). A SIDE packet from a satellite is received and its record placed in the side ring. -/
  | sidePacketReceive (q : Fin 4) (seq : BitVec 32) (crcOk : Bool) (p : PacketIn)
  /-- EVENT_PACKET_RECEIVE (R455). An EVENT packet from a satellite reaches the root and its record goes to the event ring. -/
  | eventPacketReceive (q : Fin 4) (seq : BitVec 32) (crcOk : Bool) (p : PacketIn)
  /-- CTRL_REQ_RECEIVE (R470). A satellite receives a control request and executes or forwards it. -/
  | ctrlReqReceive (q : Fin 4) (seq : BitVec 32) (crcOk : Bool) (p : PacketIn)
  /-- CTRL_RSP_RECEIVE (R470). A control response reaches the issuing firmware. -/
  | ctrlRspReceive (q : Fin 4) (seq : BitVec 32) (crcOk : Bool) (p : PacketIn)
  /-- IMAGE_REQ_RECEIVE (R186). The root receives a satellite's image request and sends its verified image. -/
  | imageReqReceive (q : Fin 4) (seq : BitVec 32) (crcOk : Bool) (p : PacketIn)
  /-- IMAGE_PACKET_RECEIVE (R186). A booting satellite receives an IMAGE packet into control-processor memory. -/
  | imagePacketReceive (q : Fin 4) (seq : BitVec 32) (crcOk : Bool) (p : PacketIn)
  /-- TIME_INFO_RECEIVE (R464). A satellite receives TIME_INFO, computes its offset and steers its time base. -/
  | timeInfoReceive (q : Fin 4) (seq : BitVec 32) (crcOk : Bool) (p : PacketIn)
  /-- CASCADE_TIME_EXCHANGE (R464). Every 1 ms the downstream end sends a TIME block down. -/
  | cascadeTimeExchange (q : Fin 4) (t1 : Nat)
  /-- CASCADE_TIME_BLOCK_RECEIVE (R464). A TIME block is received and time-stamped, and answered or followed by TIME_INFO. -/
  | cascadeTimeBlockReceive (q : Fin 4) (up : Bool) (number : BitVec 16) (t sent : Nat)
  /-- CASCADE_ACK (R458). An ACK block releases acknowledged packets from the replay buffer. -/
  | cascadeAck (q : Fin 4) (seq : BitVec 32)
  /-- CASCADE_NAK (R459). A NAK block makes the transmitter resend from the expected SEQ. -/
  | cascadeNak (q : Fin 4) (seq : BitVec 32)
  /-- CASCADE_TACK (R462). A TACK block acknowledges trigger messages. -/
  | cascadeTack (q : Fin 4) (tseq : BitVec 16)
  /-- CASCADE_TNAK (R462). A TNAK block makes the transmitter resend trigger messages. -/
  | cascadeTnak (q : Fin 4) (tseq : BitVec 16)
  /-- CASCADE_CREDIT (R460). A CREDIT block returns receive-pool credit of one class. -/
  | cascadeCredit (q cls : Fin 4) (value : BitVec 32)
  /-- CASCADE_ECHO (R454). An ECHO block is received and answered with ECHO_REPLY. -/
  | cascadeEcho (q : Fin 4) (n : BitVec 32)
  /-- CASCADE_ECHO_REPLY (R454). An ECHO_REPLY yields a round-trip measurement for RTT. -/
  | cascadeEchoReply (q : Fin 4) (n : BitVec 32) (rtt : BitVec 16)
  /-- CASCADE_RESTART (R459). A RESTART block makes the peer answer RESTART_ACK and restart the link layer. -/
  | cascadeRestart (q : Fin 4) (epoch : BitVec 16)
  /-- CASCADE_RESTART_ACK (R459). A RESTART_ACK completes a link-layer restart and the link returns to UP. -/
  | cascadeRestartAck (q : Fin 4)
  /-- CASCADE_REPLAY_TIMEOUT (R459). No ACK of the oldest packet within REPLAY_TIMEOUT; the transmitter resends, or restarts after three retries. -/
  | cascadeReplayTimeout (q : Fin 4)
  /-- CASCADE_RESTART_TIMEOUT (R452). A restart gets no RESTART_ACK within 20 µs and the link goes DOWN. -/
  | cascadeRestartTimeout (q : Fin 4)
  /-- CASCADE_TRIG_RECEIVE (R462). A trigger message is accepted, emitted on the local time base or forwarded downstream. -/
  | cascadeTrigReceive (q : Fin 4) (t : TrigIn) (ok : Bool)
  /-- CASCADE_TRIG_RETRY_TIMEOUT (R462). An unacknowledged trigger message is resent, or abandoned after three retries. -/
  | cascadeTrigRetryTimeout (q : Fin 4)
  /-- REMOTE_COMMAND_TIMEOUT (R470). A remote command or access gets no response within 20 µs per hop and completes with 0x34. -/
  | remoteCommandTimeout (tag : BitVec 32)
  /-- CASCADE_CONFIG (R473). Sets a quad's enable, rate and width caps, asymmetry and cascade ratio. -/
  | cascadeConfig (m : MbId) (r : Req)
  /-- CASCADE_STATUS (R478). Returns a quad's registers and counters. -/
  | cascadeStatus (m : MbId) (r : Req)
  /-- TOPOLOGY (R478). Returns the group's devices, parents and link states. -/
  | topology (m : MbId) (r : Req)
  /-- LINK_RESTART (R478). Forces a link-layer restart or a retrain from BASE. -/
  | linkRestart (m : MbId) (r : Req)
  /-- PRBS_TEST (R476). Starts a PRBS generator and checker test on selected lanes. -/
  | prbsTest (m : MbId) (r : Req)
  /-- PRBS_TEST_DONE (R476). A PRBS test's duration ends and 'PRBS test done' is raised. -/
  | prbsTestDone (q : Fin 4) (r : List (Bool × Nat × Nat))
  /-- PRBS_READ (R478). Returns per-lane PRBS bit and error counts. -/
  | prbsRead (m : MbId) (r : Req)
  /-- TW_MAILBOX_START_WORD (R489). A start word to mailbox-in begins receiving a two-wire request, or is lost. -/
  | twMailboxStartWord (n : BitVec 9)
  /-- TW_MAILBOX_DATA_WORD (R489). A data word is added to the request; the n-th acts as the doorbell. -/
  | twMailboxDataWord (w : BitVec 32)
  /-- TW_WAKE_WORD (R492). The wake word written in Standby raises wake source bit 0. -/
  | twWakeWord
  /-- TW_IDENTITY_WRITE (R482). A write to the identity register is discarded and counted in WRITE_RO. -/
  | twIdentityWrite
  /-- TW_RESPONSE_CONSUME (R484). A W1C of RESP_READY over the bus consumes the response and returns MB_STATE to Idle. -/
  | twResponseConsume
  /-- TW_MB_ABORT (R489). Writing MB_ABORT discards a request in Receiving. -/
  | twMbAbort
  /-- TW_OUTPTR_WRITE (R490). A write to mailbox-out sets OUTPTR. -/
  | twOutptrWrite (v : BitVec 8)
  /-- TW_SHORT_WRITE (R483). A target write ending after fewer than four data bytes is discarded and counted. -/
  | twShortWrite
  /-- TW_PROTOCOL_ERROR (R487). A START or STOP within a byte ends a target transfer and sets PROTO_ERR. -/
  | twProtocolError
  /-- TW_REQUEST_TIMEOUT (R489). A request left in Receiving for 100 ms is discarded and sets IN_TIMEOUT. -/
  | twRequestTimeout
  /-- TW_ALERT_SEND (R493). After the bus is free for TBUF, the target sends a pending alert message as controller. -/
  | twAlertSend (o : Sys2Proof.AlertEnd)
  /-- TW_ALERT_RETRY (R494). A failed alert attempt is retried after its backoff. -/
  | twAlertRetry (o : Sys2Proof.AlertEnd)
  /-- TW_TARGET_SET (R482). Sets the target BASE and the alert address, enable and mask. -/
  | twTargetSet (m : MbId) (r : Req)
  /-- TW_TARGET_STATUS (R502). Returns the target registers and counters. -/
  | twTargetStatus (m : MbId) (r : Req)
  /-- TW_CONFIG (R502). Configures a controller's enable, arbitration, timing and speed. -/
  | twConfig (m : MbId) (r : Req)
  /-- TW_XFER (R497). Queues a locked multi-segment transfer on a local or tunnelled controller. -/
  | twXfer (m : MbId) (r : Req)
  /-- TW_TRANSFER_DONE (R497). A controller transfer ends with its outcome and raises 'transfer done'. -/
  | twTransferDone (x : Fin 64) (data : List Byte)
  /-- TW_NACK (R499). An address or data NACK ends the transfer with a STOP. -/
  | twNack (x : Fin 64) (addr : Bool) (seg : Fin 8) (byte : BitVec 9) (data : List Byte)
  /-- TW_ARBITRATION_LOST (R498). A controller loses arbitration, records the byte and bit, and waits for STOP. -/
  | twArbitrationLost (x : Fin 64) (byte : BitVec 9) (bitNo : Fin 8)
  /-- TW_ARB_RETRY (R498). The backoff after a lost arbitration ends and the transfer restarts, or fails after eight attempts. -/
  | twArbRetry (x : Fin 64)
  /-- TW_BUS_STUCK (R499). SCL or SDA stays low for 25 ms; the controller recovers the bus and ends with outcome 4. -/
  | twBusStuck (x : Fin 64) (sda : Bool) (pulses : Fin 10)
  /-- TW_TUNNEL_REPORT (R500). A remote serializer reports acknowledges, arbitration or bus state for a tunnelled transfer. -/
  | twTunnelReport (n : Fin 48) (r : Sys2Proof.TunnelReport)
  /-- TW_STATUS (R502). Returns a controller's registers, last read data and counters. -/
  | twStatus (m : MbId) (r : Req)
  /-- ECC_WRITEBACK (R507). A corrected SRAM word is written back in the next free cycle of its macro. -/
  | eccWriteback (a : BitVec 40)
  /-- PATROL_READ (R508). The patrol engine reads and corrects an ECC word in an idle cycle. -/
  | patrolRead (a : BitVec 40) (pass : Bool)
  /-- LOCKSTEP_MISMATCH (R510). The lockstep cores disagree; they are held and the control complex restarts. -/
  | lockstepMismatch (cclk : BitVec 64)
  /-- HEADER_WORD_REPAIR (R511). Firmware rewrites a damaged header or counter word from its own copy. -/
  | headerWordRepair (a : BitVec 40)
  /-- FAULT_STATUS (R518). Returns the fault registers of a device or of a group's worst member. -/
  | faultStatus (m : MbId) (r : Req)
  /-- CRC_COMPUTE (R519). Starts computing a check value over an internal region. -/
  | crcCompute (m : MbId) (r : Req)
  /-- CRC_COMPUTE_DONE (R519). The check value computation completes and is reported. -/
  | crcComputeDone
  /-- ERR_INJECT (R519). Arms one injected error of the named kind in Maintenance. -/
  | errInject (m : MbId) (r : Req)
  /-- WORLD_STATUS (R548). Returns the world map registers. -/
  | worldStatus (m : MbId) (r : Req)
  /-- WORLD_QUERY (R548). Returns the world of a node or internal address. -/
  | worldQuery (m : MbId) (r : Req)
  /-- NWORLD_RESET (R178). Starts an N-world reset from a PF1 mailbox. -/
  | nworldReset (m : MbId) (r : Req)
  /-- NWORLD_RESET_DONE (R178). The N-world reset completes and event 0x01/0x05 heads the emptied ring. -/
  | nworldResetDone
  /-- ATTEST_CERT (R548). Starts writing the identity certificate into a result region. -/
  | attestCert (m : MbId) (r : Req)
  /-- ATTEST_CERT_DONE (R548). The certificate has been written. -/
  | attestCertDone
  /-- ATTEST_REPORT (R534). Returns a signed attestation report over a host nonce. -/
  | attestReport (m : MbId) (r : Req)
  /-- KEY_LOAD (R548). Loads a stream tag key into a key slot. -/
  | keyLoad (m : MbId) (r : Req)
  /-- KEY_CLEAR (R548). Clears a key slot. -/
  | keyClear (m : MbId) (r : Req)
  /-- STREAM_TAG_SET (R535). Sets a stream's TAG_EN and key slot. -/
  | streamTagSet (m : MbId) (r : Req)
  /-- ROLLBACK_ADVANCE (R533). Starts blowing ROLLBACK fuse bits up to the running image's SVN. -/
  | rollbackAdvance (m : MbId) (r : Req)
  /-- ROLLBACK_ADVANCE_DONE (R533). The rollback counter reaches the SVN and 'rollback advanced' is raised. -/
  | rollbackAdvanceDone
  /-- DEBUG_STATUS (R548). Returns the debug registers. -/
  | debugStatus (m : MbId) (r : Req)
  /-- DEBUG_CHALLENGE (R543). Requests a debug state, lowering it at once or issuing a challenge. -/
  | debugChallenge (m : MbId) (r : Req)
  /-- DEBUG_UNLOCK (R543). Submits a signature over the live challenge. -/
  | debugUnlock (m : MbId) (r : Req)
  /-- DEBUG_LOCK (R539). Lowers the debug state. -/
  | debugLock (m : MbId) (r : Req)
  /-- DBG_ACCESS (R546). Performs one debug read or write with the rights of the debug table. -/
  | dbgAccess (m : MbId) (r : Req)
  /-- BIST_RUN (R548). Starts BIST on a node in Maintenance. -/
  | bistRun (m : MbId) (r : Req)
  /-- BIST_RUN_DONE (R548). BIST ends and 'BIST done' reports pass or fail. -/
  | bistRunDone (nid : Fin 0x140) (pass : Bool) (macroNo : BitVec 16)
  /-- TAP_UNLOCK_REQ (R543). UNLOCK_REQ through JTAG requests a debug state. -/
  | tapUnlockReq (state : BitVec 8)
  /-- TAP_UNLOCK_RESP (R543). A signature shifted into UNLOCK_RESP is submitted at Update-DR. -/
  | tapUnlockResp (sig : List Byte)
  /-- TAP_DAP_ACCESS (R540). A DAP register update performs a class-5 debug access. -/
  | tapDapAccess (write : Bool) (a : BitVec 40) (v : BitVec 32)
  /-- TAP_EXTEST (R541). EXTEST drives the pins from the boundary-scan register. -/
  | tapExtest (captured shifted : List Bool)
  /-- TAP_SAMPLE_PRELOAD (R541). SAMPLE/PRELOAD samples pin states and preloads the boundary-scan register. -/
  | tapSamplePreload (captured shifted : List Bool)
  /-- TAP_CLAMP (R541). CLAMP holds the outputs from the boundary-scan register. -/
  | tapClamp
  /-- TAP_HIGHZ (R541). HIGHZ sets every covered output high-impedance. -/
  | tapHighz
  /-- UNLOCK_VERIFY_DONE (R543). The signature check ends; the state rises or FAILS is incremented. -/
  | unlockVerifyDone
  /-- CHALLENGE_LAPSE (R543). A live challenge lapses 60 s after issue. -/
  | challengeLapse
  /-- LOCKOUT_END (R544). The unlock lockout period ends. -/
  | lockoutEnd
  /-- CORE_HALT_REQ (R545). Writing HALT_REQ halts both control cores. -/
  | coreHaltReq
  /-- CORE_RESUME (R545). Writing RESUME resumes the control cores. -/
  | coreResume
  /-- CORE_STEP (R545). Writing STEP executes one instruction and halts again. -/
  | coreStep
  /-- DEBUG_POWER_RELEASE (R546). A domain powered for debug returns to its previous state after 1 ms without a debug access. -/
  | debugPowerRelease (d : Fin 149)
  /-- FW_SWAP (R551). Checks a staged image and writes it to the slot that is not running. -/
  | fwSwap (m : MbId) (r : Req)
  /-- FW_SWAP_RESTART (R551). Step 5 clears FW_READY and restarts the control complex on the new slot. -/
  | fwSwapRestart
  /-- FW_SWAP_REVERT (R553). The new firmware misses FW_READY within 50 ms and the previous slot is restarted. -/
  | fwSwapRevert
  /-- FW_STATUS (R563). Returns the validity, SVN, interface level and build of each slot. -/
  | fwStatus (m : MbId) (r : Req)
  /-- SPARE_COPY (R558). Starts copying a pipeline's configuration and tables into the spare. -/
  | spareCopy (m : MbId) (r : Req)
  /-- SPARE_COPY_DONE (R558). The configuration copy into the spare completes. -/
  | spareCopyDone (c : Fin 8)
  /-- SPARE_SWAP (R556). Arms the move of a pipeline's heads to the spare from index N. -/
  | spareSwap (m : MbId) (r : Req)
  /-- AUTO_SPARE_SET (R563). Enables or disables automatic spare replacement for a cluster. -/
  | autoSpareSet (m : MbId) (r : Req)
  /-- HEAD_PARK (R560). Parks a head of a started stream from index N. -/
  | headPark (m : MbId) (r : Req)
  /-- HEAD_RESUME (R561). Returns a parked head to service from index N. -/
  | headResume (m : MbId) (r : Req)
  /-- LIVE_STATUS (R563). Returns the live-service or cluster swap registers. -/
  | liveStatus (m : MbId) (r : Req)
  /-- ORIGIN_LATCH (R443). At the start time given by key 0x0010, the trigger generator latches ORIGIN, zeroes travel and evaluates thresholds with integer part 0. -/
  | originLatch (i : Fin 16)
  /-- UCIE_TRAINING_FAILURE (R97). A UCIe module's training attempt fails, which starts the 1 ms (later 100 ms) retry interval. -/
  | ucieTrainingFailure (m : Fin 2)
  /-- SUPPLY_RESTORE (R56). A supply that caused a supply fault returns within its Table 19-2 limits, starting the 1 ms after which RELEASE may succeed. -/
  | supplyRestore (n : Fin 12)
  /-- REFCLK_RESTORE (R576). REFCLK returns after an absence; the time base advances again and RELEASE may succeed once REFCLK has been present for 1 ms. -/
  | refclkRestore
  /-- CONFIGURATION_WRITE (R107). A host write to a function's PCIe configuration space changes Bus Master Enable, the MSI-X function mask, the power state or other configuration. -/
  | configurationWrite (fn : Fin 2) (w : CfgWrite)
  /-- TIME_PORT_PCS_LOCK (R260). The time-port lane achieves PCS lock at 1000BASE-X or 10GBASE-R, setting PCS_LOCK and LINE_RATE. -/
  | timePortPcsLock (tenG : Bool)
  /-- TIME_PORT_PCS_LOCK_LOSS (R260). The time-port lane loses PCS lock and PCS_LOCK clears. -/
  | timePortPcsLockLoss
  /-- CASCADE_BAD_BLOCK (R449). A cascade block of an unknown type, a data block outside a packet, or a LINK or TIME block failing its CRC-8 is discarded and counted in BAD_BLOCK. -/
  | cascadeBadBlock (q : Fin 4)
  /-- TAP_TEST_LOGIC_RESET (R541). TRST_N or TMS takes the TAP to Test-Logic-Reset, selecting IDCODE and ending any EXTEST, CLAMP or HIGHZ, so the boot ROM resumes its step. -/
  | tapTestLogicReset
  deriving DecidableEq, Repr

end Sys2Proof
end

