-- ==== Sys2Proof/Machine/Bits.lean ====
section
/-! DEFINITION. Bit fields, byte order, saturation and rounding, the shape of a register field and of a register
block, and the sparse tables that hold registers, memory and per-unit state. -/

namespace Sys2Proof.Machine

/-- A register field: the internal address of its word, its lowest bit, its width, and, for a W1C flag, the address of
its occurrence counter (R169); 0 where there is none. -/
structure Fld where
  addr : Nat
  lo : Nat
  width : Nat
  cnt : Nat
  deriving DecidableEq, Repr

/-- One word (or a run of equal words) of a register block: offset, spacing, how many, the value at reset, the bits that
exist, the W1C bits and the bits the host may write. -/
structure RegRow where
  off : Nat
  stride : Nat
  count : Nat
  rst : Nat
  mask : Nat
  w1c : Nat
  wr : Nat
  deriving DecidableEq, Repr

/-- A block of registers: its base, how it repeats (spacing, count; outermost first), and its words. -/
structure Block where
  base : Nat
  dims : List (Nat × Nat)
  rows : List RegRow
  deriving DecidableEq, Repr

/-- What one register word is: its value at reset, the bits that exist, W1C bits, host-writable bits. -/
structure WordInfo where
  rst : Nat
  mask : Nat
  w1c : Nat
  wr : Nat
  deriving DecidableEq, Repr

/-- The word of a row list at an offset, if there is one. -/
def RegRow.find : List RegRow → Nat → Option WordInfo
  | [], _ => none
  | r :: rs, o =>
    if r.off ≤ o ∧ (o - r.off) % (if r.stride = 0 then 4 else r.stride) = 0 ∧
       (o - r.off) / (if r.stride = 0 then 4 else r.stride) < r.count
    then some ⟨r.rst, r.mask, r.w1c, r.wr⟩
    else RegRow.find rs o

/-- The offset within the innermost repeat of a block, if the address lies in the block's repeats. -/
def Block.within : List (Nat × Nat) → Nat → Option Nat
  | [], o => some o
  | (st, n) :: ds, o => if o / st < n then Block.within ds (o % st) else none

/-- The word of a block at an internal address. -/
def Block.find (b : Block) (a : Nat) : Option WordInfo :=
  if b.base ≤ a then
    match Block.within b.dims (a - b.base) with
    | some o => RegRow.find b.rows o
    | none => none
  else none

/-- The first word that a list of blocks gives for an address. -/
def Block.findIn : List Block → Nat → Option WordInfo
  | [], _ => none
  | b :: bs, a => match b.find a with | some i => some i | none => Block.findIn bs a

/-- The base of camera port n's registers: A-PHY port 6c + k is the k-th port of cluster c, combo port 48 + c its seventh
(R32, Table 1-9). -/
def portBase (n : Nat) : Nat :=
  if n < 48 then 0x10100000 + 0x01000000 * (n / 6) + 0x10000 * (n % 6)
  else 0x10100000 + 0x01000000 * (n - 48) + 0x10000 * 6

/-- The cluster that owns camera port n (R32). -/
def portCluster (n : Nat) : Nat := if n < 48 then n / 6 else n - 48

/-- The base of two-wire controller x: x below 16 is local controller x, 16 + n the tunnelled controller of port n. -/
def twcBase (x : Nat) : Nat := if x < 16 then 0x01601000 + 0x100 * x else 0x01604000 + 0x100 * (x - 16)

/-! Numbers. -/

/-- Bits [lo + w − 1 : lo] of a number. -/
def bits (n lo w : Nat) : Nat := n / 2 ^ lo % 2 ^ w

/-- Bit i of a number. -/
def bit (n i : Nat) : Bool := n / 2 ^ i % 2 == 1

/-- The number with bits [lo + w − 1 : lo] replaced. -/
def putBits (n lo w v : Nat) : Nat :=
  n % 2 ^ lo + (v % 2 ^ w) * 2 ^ lo + n / 2 ^ (lo + w) * 2 ^ (lo + w)

/-- The signed reading of a w-bit number. -/
def signed (w n : Nat) : Int := if 2 ^ (w - 1) ≤ n % 2 ^ w then (n % 2 ^ w : Nat) - (2 ^ w : Nat) else (n % 2 ^ w : Nat)

/-- The w-bit two's complement encoding of an integer. -/
def unsigned (w : Nat) (z : Int) : Nat := (z % (2 ^ w : Nat)).toNat

/-- sat(x, lo, hi) of the notation chapter. -/
def sat (x lo hi : Int) : Int := if x < lo then lo else if hi < x then hi else x

/-- Saturation of a count at a limit. -/
def satNat (x hi : Nat) : Nat := if hi < x then hi else x

/-- Division rounded up. -/
def ceilDiv (a b : Nat) : Nat := if b = 0 then 0 else (a + b - 1) / b

/-- A fraction a / b rounded half up (b positive). -/
def roundHalfUp (a : Int) (b : Nat) : Int := (2 * a + b) / (2 * b)

/-- The number of bits set among the lowest n. -/
def popcount : Nat → Nat → Nat
  | 0, _ => 0
  | n + 1, v => v % 2 + popcount n (v / 2)

def boolNat (b : Bool) : Nat := if b then 1 else 0

/-! Bytes. -/

/-- n little-endian bytes of a value. -/
def leBytes : Nat → Nat → List Byte
  | 0, _ => []
  | n + 1, v => BitVec.ofNat 8 v :: leBytes n (v / 256)

/-- The value of little-endian bytes. -/
def leVal : List Byte → Nat
  | [] => 0
  | b :: bs => b.toNat + 256 * leVal bs

/-- The value of big-endian bytes. -/
def beVal (bs : List Byte) : Nat := leVal bs.reverse

/-- n big-endian bytes of a value. -/
def beBytes (n v : Nat) : List Byte := (leBytes n v).reverse

def zeros (n : Nat) : List Byte := List.replicate n 0

/-- Bytes [o, o + n) of a list, zero beyond its end. -/
def slice (bs : List Byte) (o n : Nat) : List Byte := ((bs.drop o).take n) ++ zeros (n - (bs.drop o).length)

/-- The little-endian value of bytes [o, o + n). -/
def leAt (bs : List Byte) (o n : Nat) : Nat := leVal (slice bs o n)

/-- A list padded with zero bytes to a multiple of k. -/
def padTo (k : Nat) (bs : List Byte) : List Byte := bs ++ zeros ((k - bs.length % k) % k)

/-- Consecutive pieces of n elements, at most fuel of them. -/
def chunks {α : Type} (n : Nat) : Nat → List α → List (List α)
  | 0, _ => []
  | f + 1, xs => if xs = [] ∨ n = 0 then [] else xs.take n :: chunks n f (xs.drop n)
  termination_by structural f => f

/-! Sparse tables: a list of (key, value) in strictly rising key order, in which no value equals the default of its key.
Equal tables are therefore equal lists. -/

/-- The value a table holds under a key: the listed one, else the default. -/
def Tbl.get {α : Type} (d : α) : List (Nat × α) → Nat → α
  | [], _ => d
  | (k, v) :: t, x => if x = k then v else Tbl.get d t x

/-- The table without a key. -/
def Tbl.erase {α : Type} : List (Nat × α) → Nat → List (Nat × α)
  | [], _ => []
  | (k, v) :: t, x => if x = k then Tbl.erase t x else (k, v) :: Tbl.erase t x

/-- The table with a value put under a key, in its place in the order. -/
def Tbl.insert {α : Type} : List (Nat × α) → Nat → α → List (Nat × α)
  | [], x, w => [(x, w)]
  | (k, v) :: t, x, w =>
    if x < k then (x, w) :: (k, v) :: t
    else if x = k then (k, w) :: t
    else (k, v) :: Tbl.insert t x w

/-- Writing a value: the default removes the entry, any other value is listed. -/
def Tbl.set {α : Type} [DecidableEq α] (d : α) (t : List (Nat × α)) (x : Nat) (w : α) : List (Nat × α) :=
  if w = d then Tbl.erase t x else Tbl.insert t x w

/-- Keys strictly rise from a lower bound. -/
def Tbl.rising {α : Type} : Option Nat → List (Nat × α) → Bool
  | _, [] => true
  | none, (k, _) :: t => Tbl.rising (some k) t
  | some b, (k, _) :: t => decide (b < k) && Tbl.rising (some k) t

/-- The canonical form of a table whose unlisted keys read as d k. -/
def Tbl.wf {α : Type} [DecidableEq α] (d : Nat → α) (t : List (Nat × α)) : Bool :=
  Tbl.rising none t && t.all (fun c => decide (c.2 ≠ d c.1))

end Sys2Proof.Machine
end

