-- ==== Sys2Proof/Machine/Crc.lean ====
section
/-! DEFINITION. The CRC engine and its profiles (R504 to R506). -/

namespace Sys2Proof.Machine

/-- A CRC profile (R504). -/
structure CrcProfile where
  width : Nat
  poly : Nat
  init : Nat
  xorOut : Nat
  refIn : Bool
  refOut : Bool
  prefixEn : Bool
  deriving DecidableEq, Repr

/-- The w lowest bits of a number in reverse order. -/
def reflect : Nat → Nat → Nat
  | 0, _ => 0
  | w + 1, n => n % 2 * 2 ^ w + reflect w (n / 2)

/-- One bit into the register: i counts down from 7. -/
def crcBit (p : CrcProfile) (r b i : Nat) : Nat :=
  let top := (r / 2 ^ (p.width - 1) + b / 2 ^ i) % 2
  let s := (r * 2) % 2 ^ p.width
  if top = 1 then Nat.xor s p.poly else s

/-- One byte into the register. -/
def crcByte (p : CrcProfile) (r : Nat) (b : Byte) : Nat :=
  let v := if p.refIn then reflect 8 b.toNat else b.toNat
  [7, 6, 5, 4, 3, 2, 1, 0].foldl (fun r i => crcBit p r v i) r

/-- The check value of a message; the prefix goes first when the profile enables it. -/
def crc (p : CrcProfile) (pre data : List Byte) : Nat :=
  let r := ((if p.prefixEn then pre ++ data else data).foldl (crcByte p) p.init)
  Nat.xor (if p.refOut then reflect p.width r else r) p.xorOut

/-- Profile 0, the house default (CRC-32C). -/
def houseProfile : CrcProfile := ⟨32, 0x1EDC6F41, 0xFFFFFFFF, 0xFFFFFFFF, true, true, true⟩
/-- Profile 1: trailers, LINK and TIME blocks. -/
def linkProfile : CrcProfile := ⟨8, 0x07, 0, 0, false, false, false⟩
/-- Profile 2: trigger messages. -/
def trigProfile : CrcProfile := ⟨16, 0x1021, 0xFFFF, 0, false, false, true⟩

/-- The house check value over data behind an 8-byte prefix. -/
def houseCrc (pre data : List Byte) : Nat := crc houseProfile (slice pre 0 8) data

end Sys2Proof.Machine
end

