-- ==== Sys2Proof/Config.lean ====
section
/-! DEFINITION. What the manual leaves open or gives to a standard's arithmetic: opaque constants without a body, so no
proof can see a value. -/

namespace Sys2Proof.Config

/-- A fresh unstated value, taken at the state's own counter (log entry 1). -/
opaque freeValue : Nat → Nat

/-- Tirzo's PCI-SIG vendor identifier (Table 1-10a): the manual does not print it (log entry 2). -/
opaque vendorId : BitVec 16

/-- Tirzo's JEDEC manufacturer code in IDCODE (Table 17-10): not printed (log entry 2). -/
opaque jedecCode : BitVec 11

/-- SHA-384 of a byte string (R530), 48 bytes; left uninterpreted (log entry 3). -/
opaque sha384 : List Byte → List Byte

/-- ECDSA over P-384 with SHA-384: does the signature (r then s) verify over the message under the public key (R530)? -/
opaque ecdsaVerify : List Byte → List Byte → List Byte → Bool

/-- ECDSA over P-384 by the die's identity key over a message (R534), given the die's UID; 96 bytes. -/
opaque identitySign : List Byte → List Byte → List Byte

/-- Is a 96-byte string a point of P-384 (R525)? -/
opaque pointValid : List Byte → Bool

/-- HMAC-SHA-384 of a message under a key (R466), 48 bytes. -/
opaque hmacSha384 : List Byte → List Byte → List Byte

/-- AES-256-GMAC: key, 12-byte IV, additional data; 16 bytes (R466, R537). -/
opaque gmac : List Byte → List Byte → List Byte → List Byte

/-- What the firmware of a group member answers about itself when the root admits a stream (log entry 13): device, item, argument, and
the number of the command that asks. -/
opaque memberReport : Nat → Nat → Nat → Nat → Nat

end Sys2Proof.Config
end

