-- ==== Sys2Proof/Machine/Fields.lean ====
section
/-! DEFINITION. Named register fields: one definition per field of the register tables of spec/, giving the
internal word address, the lowest bit and the width. -/

namespace Sys2Proof.Machine.Reg
open Sys2Proof.Machine

/-! Table 1-8. -/
def Role.spareK (c : Nat) : Fld := ⟨0x10000000 + 0x01000000 * c + 0x40, 0, 3, 0⟩
def Role.spareValid (c : Nat) : Fld := ⟨0x10000000 + 0x01000000 * c + 0x40, 3, 1, 0⟩
def Role.retired (c : Nat) : Fld := ⟨0x10000000 + 0x01000000 * c + 0x40, 8, 8, 0⟩
def Role.bound (c : Nat) : Fld := ⟨0x10000000 + 0x01000000 * c + 0x40, 16, 8, 0⟩

/-! Table 1-10a. -/
def Ident.vendorId : Fld := ⟨0x01000000, 0, 16, 0⟩
def Ident.device : Fld := ⟨0x01000000, 16, 16, 0⟩
def Ident.formLevel : Fld := ⟨0x01000000 + 0x4, 0, 8, 0⟩
def Ident.ifLevel : Fld := ⟨0x01000000 + 0x4, 8, 8, 0⟩
def Ident.role : Fld := ⟨0x01000000 + 0x4, 16, 1, 0⟩
def Ident.form : Fld := ⟨0x01000000 + 0x4, 17, 1, 0⟩
def Ident.uid (i : Nat) : Fld := ⟨0x01000000 + 0x10 + 4 * i, 0, 32, 0⟩

/-! Table 2-5. -/
def ModeReg.modeF : Fld := ⟨0x01000100, 0, 3, 0⟩
def ModeReg.target : Fld := ⟨0x01000100, 3, 3, 0⟩
def ModeReg.pending : Fld := ⟨0x01000100, 6, 1, 0⟩
def ModeReg.cause : Fld := ⟨0x01000100, 8, 8, 0⟩
def ModeReg.wakeSrc : Fld := ⟨0x01000100, 16, 4, 0⟩

/-! Table 2-10. -/
def Dom.domainOn (i : Nat) : Fld := ⟨0x1000200 + 4 * i, 0, 32, 0⟩
def Dom.domainRet (i : Nat) : Fld := ⟨0x1000220 + 4 * i, 0, 32, 0⟩

/-! Table 2-18. -/
def Therm.temp (n : Nat) : Fld := ⟨0x01700000 + 0x0 + 4 * n, 0, 16, 0⟩
def Therm.valid (n : Nat) : Fld := ⟨0x01700000 + 0x0 + 4 * n, 16, 1, 0⟩
def Therm.suspect (n : Nat) : Fld := ⟨0x01700000 + 0x0 + 4 * n, 17, 1, 0⟩
def Therm.hostExcl (n : Nat) : Fld := ⟨0x01700000 + 0x0 + 4 * n, 18, 1, 0⟩
def Therm.state : Fld := ⟨0x01700000 + 0x80, 0, 3, 0⟩
def Therm.step : Fld := ⟨0x01700000 + 0x80, 3, 3, 0⟩
def Therm.fast : Fld := ⟨0x01700000 + 0x80, 6, 1, 0⟩
def Therm.rateAlarm : Fld := ⟨0x01700000 + 0x80, 7, 1, 0⟩
def Therm.warnSeen : Fld := ⟨0x01700000 + 0x80, 16, 1, 0x01700000 + 0xc0⟩
def Therm.throttleSeen : Fld := ⟨0x01700000 + 0x80, 17, 1, 0x01700000 + 0xc4⟩
def Therm.stopSeen : Fld := ⟨0x01700000 + 0x80, 18, 1, 0x01700000 + 0xc8⟩
def Therm.tripSeen : Fld := ⟨0x01700000 + 0x80, 19, 1, 0x01700000 + 0xcc⟩
def Therm.suspectSeen : Fld := ⟨0x01700000 + 0x80, 20, 1, 0x01700000 + 0xd0⟩
def Therm.rateSeen : Fld := ⟨0x01700000 + 0x80, 21, 1, 0x01700000 + 0xd4⟩
def Therm.tmax : Fld := ⟨0x01700000 + 0x84, 0, 16, 0⟩
def Therm.tmaxSensor : Fld := ⟨0x01700000 + 0x84, 16, 5, 0⟩
def Therm.rateLimit : Fld := ⟨0x01700000 + 0x88, 0, 8, 0⟩
def Therm.warn : Fld := ⟨0x01700000 + 0x88, 8, 8, 0⟩
def Therm.throttle : Fld := ⟨0x01700000 + 0x88, 16, 8, 0⟩
def Therm.exclude : Fld := ⟨0x01700000 + 0x8c, 0, 20, 0⟩

/-! Table 3-5. -/
def Bridge.mod0Rate (fn : Nat) : Fld := ⟨0x01300000 + 0x10000 * fn, 0, 3, 0⟩
def Bridge.mod1Rate (fn : Nat) : Fld := ⟨0x01300000 + 0x10000 * fn, 3, 3, 0⟩
def Bridge.flitLo (fn : Nat) : Fld := ⟨0x01300000 + 0x10000 * fn, 6, 1, 0⟩
def Bridge.mod0Repairs (fn : Nat) : Fld := ⟨0x01300000 + 0x10000 * fn, 8, 4, 0⟩
def Bridge.mod1Repairs (fn : Nat) : Fld := ⟨0x01300000 + 0x10000 * fn, 12, 4, 0⟩
def Bridge.mod0Down (fn : Nat) : Fld := ⟨0x01300000 + 0x10000 * fn + 0x4, 0, 1, 0x01300000 + 0x10000 * fn + 0x80⟩
def Bridge.mod1Down (fn : Nat) : Fld := ⟨0x01300000 + 0x10000 * fn + 0x4, 1, 1, 0x01300000 + 0x10000 * fn + 0x84⟩
def Bridge.modUp (fn : Nat) : Fld := ⟨0x01300000 + 0x10000 * fn + 0x4, 2, 1, 0x01300000 + 0x10000 * fn + 0x88⟩
def Bridge.postedFault (fn : Nat) : Fld := ⟨0x01300000 + 0x10000 * fn + 0x4, 3, 1, 0x01300000 + 0x10000 * fn + 0x8c⟩
def Bridge.replayExcess (fn : Nat) : Fld := ⟨0x01300000 + 0x10000 * fn + 0x4, 4, 1, 0x01300000 + 0x10000 * fn + 0x90⟩
def Bridge.bmeDiscard (fn : Nat) : Fld := ⟨0x01300000 + 0x10000 * fn + 0x4, 5, 1, 0x01300000 + 0x10000 * fn + 0x94⟩
def Bridge.rateCap (fn : Nat) : Fld := ⟨0x01300000 + 0x10000 * fn + 0x8, 0, 3, 0⟩
def Bridge.faultAddrLo (fn : Nat) : Fld := ⟨0x01300000 + 0x10000 * fn + 0x10, 0, 32, 0⟩
def Bridge.faultAddrHi (fn : Nat) : Fld := ⟨0x01300000 + 0x10000 * fn + 0x14, 0, 8, 0⟩
def Bridge.cause (fn : Nat) : Fld := ⟨0x01300000 + 0x10000 * fn + 0x14, 8, 3, 0⟩
def Bridge.world (fn : Nat) : Fld := ⟨0x01300000 + 0x10000 * fn + 0x14, 11, 1, 0⟩
def Bridge.bar (fn : Nat) : Fld := ⟨0x01300000 + 0x10000 * fn + 0x14, 12, 1, 0⟩
def Bridge.length (fn : Nat) : Fld := ⟨0x01300000 + 0x10000 * fn + 0x14, 14, 10, 0⟩
def Bridge.sramWinBase (fn : Nat) : Fld := ⟨0x01300000 + 0x10000 * fn + 0x20, 0, 24, 0⟩
def Bridge.outBaseLo (fn : Nat) : Fld := ⟨0x01300000 + 0x10000 * fn + 0x28, 12, 20, 0⟩
def Bridge.outBaseHi (fn : Nat) : Fld := ⟨0x01300000 + 0x10000 * fn + 0x2c, 0, 32, 0⟩
def Bridge.replays (fn : Nat) : Fld := ⟨0x01300000 + 0x10000 * fn + 0x40, 0, 32, 0⟩
def Bridge.outDiscards (fn : Nat) : Fld := ⟨0x01300000 + 0x10000 * fn + 0x44, 0, 32, 0⟩
def Bridge.inPosted (fn : Nat) : Fld := ⟨0x01300000 + 0x10000 * fn + 0x48, 0, 6, 0⟩
def Bridge.inNonposted (fn : Nat) : Fld := ⟨0x01300000 + 0x10000 * fn + 0x48, 8, 6, 0⟩
def Bridge.outPosted (fn : Nat) : Fld := ⟨0x01300000 + 0x10000 * fn + 0x48, 16, 8, 0⟩
def Bridge.flagCount (fn i : Nat) : Fld := ⟨0x01300000 + 0x10000 * fn + 0x80 + 4 * i, 0, 16, 0⟩

/-! Table 4-3. -/
def Mbx.state (a : Nat) : Fld := ⟨a + 0x804, 0, 2, 0⟩
def Mbx.respReady (a : Nat) : Fld := ⟨a + 0x804, 8, 1, a + 0x808⟩
def Mbx.dbLost (a : Nat) : Fld := ⟨a + 0x804, 9, 1, a + 0x80c⟩
def Mbx.fwReady (a : Nat) : Fld := ⟨a + 0x804, 10, 1, 0⟩
def Mbx.lastStatus (a : Nat) : Fld := ⟨a + 0x804, 16, 8, 0⟩

/-! Table 4-16. -/
def DPort.addrLo (a : Nat) : Fld := ⟨a, 2, 30, 0⟩
def DPort.addrHi (a : Nat) : Fld := ⟨a + 0x4, 0, 8, 0⟩
def DPort.inc (a : Nat) : Fld := ⟨a + 0x8, 0, 2, 0⟩
def DPort.prefetch (a : Nat) : Fld := ⟨a + 0x8, 2, 1, 0⟩
def DPort.next (a : Nat) : Fld := ⟨a + 0x8, 8, 1, 0⟩
def DPort.refresh (a : Nat) : Fld := ⟨a + 0x8, 9, 1, 0⟩
def DPort.pfValid (a : Nat) : Fld := ⟨a + 0xc, 0, 1, 0⟩
def DPort.pfFilling (a : Nat) : Fld := ⟨a + 0xc, 1, 1, 0⟩
def DPort.onDemand (a : Nat) : Fld := ⟨a + 0xc, 2, 1, 0⟩

/-! Table 5-5. -/
def BootReg.step : Fld := ⟨0x10000001000, 0, 4, 0⟩
def BootReg.waiting : Fld := ⟨0x10000001000, 4, 1, 0⟩
def BootReg.failed : Fld := ⟨0x10000001000, 5, 1, 0⟩
def BootReg.source : Fld := ⟨0x10000001000, 6, 2, 0⟩
def BootReg.code : Fld := ⟨0x10000001000, 8, 8, 0⟩
def BootReg.attempt : Fld := ⟨0x10000001000, 16, 4, 0⟩
def BootReg.role : Fld := ⟨0x10000001000 + 0x4, 0, 1, 0⟩
def BootReg.bootsrc : Fld := ⟨0x10000001000 + 0x4, 1, 2, 0⟩
def BootReg.twaddr : Fld := ⟨0x10000001000 + 0x4, 3, 2, 0⟩
def BootReg.form : Fld := ⟨0x10000001000 + 0x4, 5, 1, 0⟩
def BootReg.elapsed : Fld := ⟨0x10000001000 + 0x8, 0, 32, 0⟩
def BootReg.failDetail : Fld := ⟨0x10000001000 + 0xc, 0, 32, 0⟩
def BootReg.imgLen : Fld := ⟨0x10000001000 + 0x10, 0, 22, 0⟩
def BootReg.go : Fld := ⟨0x10000001000 + 0x14, 0, 1, 0⟩
def BootReg.goIgnored : Fld := ⟨0x10000001000 + 0x18, 0, 1, 0x10000001000 + 0x20⟩
def BootReg.wdogSeen : Fld := ⟨0x10000001000 + 0x18, 1, 1, 0x10000001000 + 0x24⟩
def BootReg.resetCause : Fld := ⟨0x10000001000 + 0x1c, 0, 3, 0⟩
def BootReg.flagCount (i : Nat) : Fld := ⟨0x10000001000 + 0x20 + 4 * i, 0, 16, 0⟩

/-! Table 6-5. -/
def Steer.valid (n e : Nat) : Fld := ⟨portBase n + 0x100 + 8 * e, 0, 1, 0⟩
def Steer.vc (n e : Nat) : Fld := ⟨portBase n + 0x100 + 8 * e, 1, 5, 0⟩
def Steer.dt (n e : Nat) : Fld := ⟨portBase n + 0x100 + 8 * e, 6, 6, 0⟩
def Steer.action (n e : Nat) : Fld := ⟨portBase n + 0x100 + 8 * e, 12, 2, 0⟩
def Steer.pipe (n e : Nat) : Fld := ⟨portBase n + 0x100 + 8 * e, 14, 3, 0⟩
def Steer.pack (n e : Nat) : Fld := ⟨portBase n + 0x100 + 8 * e, 17, 3, 0⟩
def Steer.waitBound (n e : Nat) : Fld := ⟨portBase n + 0x100 + 8 * e + 0x4, 0, 20, 0⟩

/-! Table 6-10. -/
def Port.enable (n : Nat) : Fld := ⟨portBase n, 0, 1, 0⟩
def Port.modeF (n : Nat) : Fld := ⟨portBase n, 1, 1, 0⟩
def Port.rateCap (n : Nat) : Fld := ⟨portBase n, 2, 3, 0⟩
def Port.lanes (n : Nat) : Fld := ⟨portBase n, 5, 2, 0⟩
def Port.rtxEn (n : Nat) : Fld := ⟨portBase n, 7, 1, 0⟩
def Port.rtxLimit (n : Nat) : Fld := ⟨portBase n, 8, 3, 0⟩
def Port.media (n : Nat) : Fld := ⟨portBase n, 11, 1, 0⟩
def Port.comboRate (n : Nat) : Fld := ⟨portBase n + 0x4, 0, 13, 0⟩
def Port.laneOrder (n : Nat) : Fld := ⟨portBase n + 0x8, 0, 8, 0⟩
def Port.polarity (n : Nat) : Fld := ⟨portBase n + 0x8, 8, 4, 0⟩
def Port.wireOrder (n : Nat) : Fld := ⟨portBase n + 0x8, 12, 9, 0⟩
def Port.link (n : Nat) : Fld := ⟨portBase n + 0x10, 0, 2, 0⟩
def Port.gear (n : Nat) : Fld := ⟨portBase n + 0x10, 2, 3, 0⟩
def Port.rtxActive (n : Nat) : Fld := ⟨portBase n + 0x10, 5, 1, 0⟩
def Port.rate (n : Nat) : Fld := ⟨portBase n + 0x10, 8, 8, 0⟩
def Port.linkLost (n : Nat) : Fld := ⟨portBase n + 0x14, 0, 1, portBase n + 0x80⟩
def Port.checkErr (n : Nat) : Fld := ⟨portBase n + 0x14, 1, 1, portBase n + 0x84⟩
def Port.overflow (n : Nat) : Fld := ⟨portBase n + 0x14, 2, 1, portBase n + 0x88⟩
def Port.unsupDt (n : Nat) : Fld := ⟨portBase n + 0x14, 3, 1, portBase n + 0x8c⟩
def Port.noMatch (n : Nat) : Fld := ⟨portBase n + 0x14, 4, 1, portBase n + 0x90⟩
def Port.headerLost (n : Nat) : Fld := ⟨portBase n + 0x14, 5, 1, portBase n + 0x94⟩
def Port.eqReadapt (n : Nat) : Fld := ⟨portBase n + 0x14, 6, 1, portBase n + 0x98⟩
def Port.rtt (n : Nat) : Fld := ⟨portBase n + 0x18, 0, 20, 0⟩
def Port.rtxTerm (n : Nat) : Fld := ⟨portBase n + 0x1c, 0, 24, 0⟩
def Port.bufOcc (n : Nat) : Fld := ⟨portBase n + 0x20, 0, 12, 0⟩
def Port.bufPeak (n : Nat) : Fld := ⟨portBase n + 0x20, 16, 12, 0⟩
def Port.retrans (n : Nat) : Fld := ⟨portBase n + 0x40, 0, 32, 0⟩
def Port.linkErr (n : Nat) : Fld := ⟨portBase n + 0x44, 0, 32, 0⟩
def Port.lost (n : Nat) : Fld := ⟨portBase n + 0x48, 0, 32, 0⟩
def Port.eccCorr (n : Nat) : Fld := ⟨portBase n + 0x4c, 0, 32, 0⟩
def Port.hdrUncorr (n : Nat) : Fld := ⟨portBase n + 0x50, 0, 32, 0⟩
def Port.crcErr (n : Nat) : Fld := ⟨portBase n + 0x54, 0, 32, 0⟩
def Port.unsupportedDt (n : Nat) : Fld := ⟨portBase n + 0x58, 0, 32, 0⟩
def Port.noMatchCount (n : Nat) : Fld := ⟨portBase n + 0x5c, 0, 32, 0⟩
def Port.overflowDrops (n : Nat) : Fld := ⟨portBase n + 0x60, 0, 32, 0⟩
def Port.shortOther (n : Nat) : Fld := ⟨portBase n + 0x64, 0, 32, 0⟩
def Port.embTrunc (n : Nat) : Fld := ⟨portBase n + 0x68, 0, 32, 0⟩
def Port.counter (n i : Nat) : Fld := ⟨portBase n + 0x40 + 4 * i, 0, 32, 0⟩
def Port.flagCount (n i : Nat) : Fld := ⟨portBase n + 0x80 + 4 * i, 0, 16, 0⟩
def Port.queueReserve (n q : Nat) : Fld := ⟨portBase n + 0x200 + 4 * q, 0, 12, 0⟩

/-! Table 6-11. -/
def Framer.area (p : Nat) : Fld := ⟨0x20000800 + 0x100000 * p, 0, 1, 0⟩
def Framer.unpadded (p : Nat) : Fld := ⟨0x20000800 + 0x100000 * p, 1, 1, 0⟩
def Framer.linePixels (p : Nat) : Fld := ⟨0x20000800 + 0x100000 * p + 0x4, 0, 15, 0⟩
def Framer.frameLines (p : Nat) : Fld := ⟨0x20000800 + 0x100000 * p + 0x8, 0, 16, 0⟩
def Framer.lineTimeout (p : Nat) : Fld := ⟨0x20000800 + 0x100000 * p + 0xc, 0, 20, 0⟩
def Framer.frameTimeout (p : Nat) : Fld := ⟨0x20000800 + 0x100000 * p + 0x10, 0, 24, 0⟩
def Framer.overLen (p : Nat) : Fld := ⟨0x20000800 + 0x100000 * p + 0x40, 0, 32, 0⟩
def Framer.underLen (p : Nat) : Fld := ⟨0x20000800 + 0x100000 * p + 0x44, 0, 32, 0⟩
def Framer.truncated (p : Nat) : Fld := ⟨0x20000800 + 0x100000 * p + 0x48, 0, 32, 0⟩
def Framer.resyncDiscard (p : Nat) : Fld := ⟨0x20000800 + 0x100000 * p + 0x4c, 0, 32, 0⟩
def Framer.late (p : Nat) : Fld := ⟨0x20000800 + 0x100000 * p + 0x50, 0, 32, 0⟩
def Framer.waitDrop (p : Nat) : Fld := ⟨0x20000800 + 0x100000 * p + 0x54, 0, 32, 0⟩
def Framer.missingLe (p : Nat) : Fld := ⟨0x20000800 + 0x100000 * p + 0x58, 0, 32, 0⟩
def Framer.missingFe (p : Nat) : Fld := ⟨0x20000800 + 0x100000 * p + 0x5c, 0, 32, 0⟩
def Framer.overLines (p : Nat) : Fld := ⟨0x20000800 + 0x100000 * p + 0x60, 0, 32, 0⟩
def Framer.underLines (p : Nat) : Fld := ⟨0x20000800 + 0x100000 * p + 0x64, 0, 32, 0⟩
def Framer.frameTrunc (p : Nat) : Fld := ⟨0x20000800 + 0x100000 * p + 0x68, 0, 32, 0⟩
def Framer.counter (p i : Nat) : Fld := ⟨0x20000800 + 0x100000 * p + 0x40 + 4 * i, 0, 32, 0⟩

/-! Table 7-2. -/
def Enc.enable (e : Nat) : Fld := ⟨0x01501000 + 0x100 * e, 0, 1, 0⟩
def Enc.reverseCount (e : Nat) : Fld := ⟨0x01501000 + 0x100 * e, 1, 1, 0⟩
def Enc.indexEn (e : Nat) : Fld := ⟨0x01501000 + 0x100 * e, 2, 1, 0⟩
def Enc.indexZero (e : Nat) : Fld := ⟨0x01501000 + 0x100 * e, 3, 1, 0⟩
def Enc.interpEn (e : Nat) : Fld := ⟨0x01501000 + 0x100 * e, 4, 1, 0⟩
def Enc.filter (e : Nat) : Fld := ⟨0x01501000 + 0x100 * e, 8, 8, 0⟩
def Enc.interpMax (e : Nat) : Fld := ⟨0x01501000 + 0x100 * e + 0x4, 0, 24, 0⟩
def Enc.posLo (e : Nat) : Fld := ⟨0x01501000 + 0x100 * e + 0x8, 0, 32, 0⟩
def Enc.posHi (e : Nat) : Fld := ⟨0x01501000 + 0x100 * e + 0xc, 0, 16, 0⟩
def Enc.edgeSec (e : Nat) : Fld := ⟨0x01501000 + 0x100 * e + 0x10, 0, 32, 0⟩
def Enc.edgeNs (e : Nat) : Fld := ⟨0x01501000 + 0x100 * e + 0x14, 0, 32, 0⟩
def Enc.interval (e : Nat) : Fld := ⟨0x01501000 + 0x100 * e + 0x18, 0, 32, 0⟩
def Enc.idxPosLo (e : Nat) : Fld := ⟨0x01501000 + 0x100 * e + 0x20, 0, 32, 0⟩
def Enc.idxPosHi (e : Nat) : Fld := ⟨0x01501000 + 0x100 * e + 0x24, 0, 16, 0⟩
def Enc.idxSec (e : Nat) : Fld := ⟨0x01501000 + 0x100 * e + 0x28, 0, 32, 0⟩
def Enc.idxNs (e : Nat) : Fld := ⟨0x01501000 + 0x100 * e + 0x2c, 0, 32, 0⟩
def Enc.winLoL (e : Nat) : Fld := ⟨0x01501000 + 0x100 * e + 0x30, 0, 32, 0⟩
def Enc.winLoH (e : Nat) : Fld := ⟨0x01501000 + 0x100 * e + 0x34, 0, 16, 0⟩
def Enc.winHiL (e : Nat) : Fld := ⟨0x01501000 + 0x100 * e + 0x38, 0, 32, 0⟩
def Enc.winHiH (e : Nat) : Fld := ⟨0x01501000 + 0x100 * e + 0x3c, 0, 16, 0⟩
def Enc.qerr (e : Nat) : Fld := ⟨0x01501000 + 0x100 * e + 0x40, 0, 1, 0x01501000 + 0x100 * e + 0x80⟩
def Enc.wrap (e : Nat) : Fld := ⟨0x01501000 + 0x100 * e + 0x40, 1, 1, 0x01501000 + 0x100 * e + 0x84⟩
def Enc.indexSeen (e : Nat) : Fld := ⟨0x01501000 + 0x100 * e + 0x40, 2, 1, 0x01501000 + 0x100 * e + 0x88⟩
def Enc.windowExit (e : Nat) : Fld := ⟨0x01501000 + 0x100 * e + 0x40, 3, 1, 0x01501000 + 0x100 * e + 0x8c⟩
def Enc.qerrCount (e : Nat) : Fld := ⟨0x01501000 + 0x100 * e + 0x44, 0, 32, 0⟩
def Enc.flagCount (e i : Nat) : Fld := ⟨0x01501000 + 0x100 * e + 0x80 + 4 * i, 0, 16, 0⟩

/-! Table 7-3. -/
def Trig.armed (s : Nat) : Fld := ⟨0x01510000 + 0x4000 * s, 0, 1, 0⟩
def Trig.source (s : Nat) : Fld := ⟨0x01510000 + 0x4000 * s, 1, 3, 0⟩
def Trig.dir (s : Nat) : Fld := ⟨0x01510000 + 0x4000 * s, 4, 1, 0⟩
def Trig.pin (s : Nat) : Fld := ⟨0x01510000 + 0x4000 * s, 5, 5, 0⟩
def Trig.pitchFrac (s : Nat) : Fld := ⟨0x01510000 + 0x4000 * s + 0x8, 0, 32, 0⟩
def Trig.pitchInt (s : Nat) : Fld := ⟨0x01510000 + 0x4000 * s + 0xc, 0, 32, 0⟩
def Trig.phaseFrac (s : Nat) : Fld := ⟨0x01510000 + 0x4000 * s + 0x10, 0, 32, 0⟩
def Trig.phaseInt (s : Nat) : Fld := ⟨0x01510000 + 0x4000 * s + 0x14, 0, 32, 0⟩
def Trig.trigDelay (s : Nat) : Fld := ⟨0x01510000 + 0x4000 * s + 0x18, 0, 16, 0⟩
def Trig.minPeriod (s : Nat) : Fld := ⟨0x01510000 + 0x4000 * s + 0x1c, 0, 24, 0⟩
def Trig.originLo (s : Nat) : Fld := ⟨0x01510000 + 0x4000 * s + 0x20, 0, 32, 0⟩
def Trig.originHi (s : Nat) : Fld := ⟨0x01510000 + 0x4000 * s + 0x24, 0, 16, 0⟩
def Trig.nextLo (s : Nat) : Fld := ⟨0x01510000 + 0x4000 * s + 0x28, 0, 32, 0⟩
def Trig.nextHi (s : Nat) : Fld := ⟨0x01510000 + 0x4000 * s + 0x2c, 0, 16, 0⟩
def Trig.offsetBase (s : Nat) : Fld := ⟨0x01510000 + 0x4000 * s + 0x30, 0, 32, 0⟩
def Trig.overrateCount (s : Nat) : Fld := ⟨0x01510000 + 0x4000 * s + 0x38, 0, 32, 0⟩
def Trig.cascadeLostCount (s : Nat) : Fld := ⟨0x01510000 + 0x4000 * s + 0x3c, 0, 32, 0⟩
def Trig.overrate (s : Nat) : Fld := ⟨0x01510000 + 0x4000 * s + 0x40, 0, 1, 0x01510000 + 0x4000 * s + 0x80⟩
def Trig.reversed (s : Nat) : Fld := ⟨0x01510000 + 0x4000 * s + 0x40, 1, 1, 0x01510000 + 0x4000 * s + 0x84⟩
def Trig.cascadeTrigLost (s : Nat) : Fld := ⟨0x01510000 + 0x4000 * s + 0x40, 2, 1, 0x01510000 + 0x4000 * s + 0x88⟩
def Trig.indexWrap (s : Nat) : Fld := ⟨0x01510000 + 0x4000 * s + 0x40, 3, 1, 0x01510000 + 0x4000 * s + 0x8c⟩
def Trig.flagCount (s i : Nat) : Fld := ⟨0x01510000 + 0x4000 * s + 0x80 + 4 * i, 0, 16, 0⟩

/-! Table 7-5. -/
def Head.valid (s h : Nat) : Fld := ⟨0x01512000 + 0x4000 * s + 0x20 * h, 0, 1, 0⟩
def Head.device (s h : Nat) : Fld := ⟨0x01512000 + 0x4000 * s + 0x20 * h, 1, 4, 0⟩
def Head.port (s h : Nat) : Fld := ⟨0x01512000 + 0x4000 * s + 0x20 * h, 5, 6, 0⟩
def Head.vc (s h : Nat) : Fld := ⟨0x01512000 + 0x4000 * s + 0x20 * h, 11, 5, 0⟩
def Head.route (s h : Nat) : Fld := ⟨0x01512000 + 0x4000 * s + 0x20 * h, 16, 1, 0⟩
def Head.line (s h : Nat) : Fld := ⟨0x01512000 + 0x4000 * s + 0x20 * h, 17, 5, 0⟩
def Head.polarity (s h : Nat) : Fld := ⟨0x01512000 + 0x4000 * s + 0x20 * h, 22, 1, 0⟩
def Head.posOffsetInt (s h : Nat) : Fld := ⟨0x01512000 + 0x4000 * s + 0x20 * h + 0x4, 0, 32, 0⟩
def Head.timeOffset (s h : Nat) : Fld := ⟨0x01512000 + 0x4000 * s + 0x20 * h + 0x8, 0, 16, 0⟩
def Head.posOffsetFrac (s h : Nat) : Fld := ⟨0x01512000 + 0x4000 * s + 0x20 * h + 0x8, 16, 16, 0⟩
def Head.width (s h : Nat) : Fld := ⟨0x01512000 + 0x4000 * s + 0x20 * h + 0xc, 0, 16, 0⟩
def Head.hdrMin (s h : Nat) : Fld := ⟨0x01512000 + 0x4000 * s + 0x20 * h + 0x10, 0, 24, 0⟩
def Head.hdrMax (s h : Nat) : Fld := ⟨0x01512000 + 0x4000 * s + 0x20 * h + 0x14, 0, 24, 0⟩
def Head.unsolicited (s h : Nat) : Fld := ⟨0x01512000 + 0x4000 * s + 0x20 * h + 0x18, 0, 16, 0⟩
def Head.absent (s h : Nat) : Fld := ⟨0x01512000 + 0x4000 * s + 0x20 * h + 0x18, 16, 16, 0⟩
def Head.overrateHead (s h : Nat) : Fld := ⟨0x01512000 + 0x4000 * s + 0x20 * h + 0x1c, 0, 16, 0⟩
def Head.lateEmit (s h : Nat) : Fld := ⟨0x01512000 + 0x4000 * s + 0x20 * h + 0x1c, 16, 16, 0⟩

/-! Table 7-10. -/
def TimeReg.secLo : Fld := ⟨0x01500000, 0, 32, 0⟩
def TimeReg.secHi : Fld := ⟨0x01500000 + 0x4, 0, 16, 0⟩
def TimeReg.ns : Fld := ⟨0x01500000 + 0x8, 0, 30, 0⟩
def TimeReg.frac : Fld := ⟨0x01500000 + 0xc, 0, 16, 0⟩
def TimeReg.addendFrac : Fld := ⟨0x01500000 + 0x10, 0, 32, 0⟩
def TimeReg.addendInt : Fld := ⟨0x01500000 + 0x14, 0, 32, 0⟩
def TimeReg.source : Fld := ⟨0x01500000 + 0x18, 0, 3, 0⟩
def TimeReg.holdover : Fld := ⟨0x01500000 + 0x18, 3, 1, 0⟩
def TimeReg.timescale : Fld := ⟨0x01500000 + 0x18, 4, 1, 0⟩
def TimeReg.utcOffset : Fld := ⟨0x01500000 + 0x18, 16, 16, 0⟩
def TimeReg.alarmSecLo : Fld := ⟨0x01500000 + 0x20, 0, 32, 0⟩
def TimeReg.alarmSecHi : Fld := ⟨0x01500000 + 0x24, 0, 16, 0⟩
def TimeReg.alarmNs : Fld := ⟨0x01500000 + 0x28, 0, 30, 0⟩
def TimeReg.alarmHit : Fld := ⟨0x01500000 + 0x30, 0, 1, 0x01500000 + 0x40⟩
def TimeReg.stepped : Fld := ⟨0x01500000 + 0x30, 1, 1, 0x01500000 + 0x44⟩
def TimeReg.holdoverEntered : Fld := ⟨0x01500000 + 0x30, 2, 1, 0x01500000 + 0x48⟩
def TimeReg.ppsInLost : Fld := ⟨0x01500000 + 0x30, 3, 1, 0x01500000 + 0x4c⟩
def TimeReg.flagCount (i : Nat) : Fld := ⟨0x01500000 + 0x40 + 4 * i, 0, 16, 0⟩

/-! Table 7-12. -/
def TPort.portState : Fld := ⟨0x01560000, 0, 4, 0⟩
def TPort.lineRate : Fld := ⟨0x01560000, 4, 2, 0⟩
def TPort.pcsLock : Fld := ⟨0x01560000, 6, 1, 0⟩
def TPort.offset : Fld := ⟨0x01560000 + 0x4, 0, 32, 0⟩
def TPort.meanDelay : Fld := ⟨0x01560000 + 0x8, 0, 32, 0⟩
def TPort.rxPtp : Fld := ⟨0x01560000 + 0x10, 0, 32, 0⟩
def TPort.txPtp : Fld := ⟨0x01560000 + 0x14, 0, 32, 0⟩
def TPort.nonPtp : Fld := ⟨0x01560000 + 0x18, 0, 32, 0⟩
def TPort.fcsErr : Fld := ⟨0x01560000 + 0x1c, 0, 32, 0⟩
def TPort.announceTimeout : Fld := ⟨0x01560000 + 0x20, 0, 32, 0⟩
def TPort.counter (i : Nat) : Fld := ⟨0x01560000 + 0x10 + 4 * i, 0, 32, 0⟩

/-! Table 7-13. -/
def Pin.func (i : Nat) : Fld := ⟨0x01550000 + 0x0 + 4 * i, 0, 3, 0⟩
def Pin.invert (i : Nat) : Fld := ⟨0x01550000 + 0x0 + 4 * i, 3, 1, 0⟩
def Pin.edge (i : Nat) : Fld := ⟨0x01550000 + 0x0 + 4 * i, 4, 2, 0⟩
def Pin.safe (i : Nat) : Fld := ⟨0x01550000 + 0x0 + 4 * i, 6, 1, 0⟩
def Pin.pulseUnit (i : Nat) : Fld := ⟨0x01550000 + 0x0 + 4 * i, 8, 4, 0⟩
def Pin.filter (i : Nat) : Fld := ⟨0x01550000 + 0x0 + 4 * i, 16, 8, 0⟩
def Pin.ppsWidth : Fld := ⟨0x01550000 + 0x80, 0, 30, 0⟩
def Pin.capLost (i : Nat) : Fld := ⟨0x01550000 + 0x100 + 4 * i, 0, 16, 0⟩
def Pin.capLevel (i : Nat) : Fld := ⟨0x01550000 + 0x100 + 4 * i, 16, 5, 0⟩

/-! Table 7-14. -/
def Pulse.enable (u : Nat) : Fld := ⟨0x01551000 + 0x40 * u, 0, 1, 0⟩
def Pulse.periodic (u : Nat) : Fld := ⟨0x01551000 + 0x40 * u, 1, 1, 0⟩
def Pulse.startSecHi (u : Nat) : Fld := ⟨0x01551000 + 0x40 * u + 0x4, 0, 16, 0⟩
def Pulse.startSecLo (u : Nat) : Fld := ⟨0x01551000 + 0x40 * u + 0x8, 0, 32, 0⟩
def Pulse.startNs (u : Nat) : Fld := ⟨0x01551000 + 0x40 * u + 0xc, 0, 30, 0⟩
def Pulse.periodInt (u : Nat) : Fld := ⟨0x01551000 + 0x40 * u + 0x10, 0, 32, 0⟩
def Pulse.periodFrac (u : Nat) : Fld := ⟨0x01551000 + 0x40 * u + 0x14, 0, 32, 0⟩
def Pulse.width (u : Nat) : Fld := ⟨0x01551000 + 0x40 * u + 0x18, 0, 30, 0⟩
def Pulse.count (u : Nat) : Fld := ⟨0x01551000 + 0x40 * u + 0x1c, 0, 32, 0⟩

/-! Table 8-6. -/
def Corr.linEn (p : Nat) : Fld := ⟨0x20000000 + 0x100000 * p, 0, 1, 0⟩
def Corr.w (p : Nat) : Fld := ⟨0x20000000 + 0x100000 * p, 1, 5, 0⟩
def Corr.xpM1 (p : Nat) : Fld := ⟨0x20000000 + 0x100000 * p, 6, 2, 0⟩
def Corr.ypM1 (p : Nat) : Fld := ⟨0x20000000 + 0x100000 * p, 8, 1, 0⟩
def Corr.numChM1 (p : Nat) : Fld := ⟨0x20000000 + 0x100000 * p, 9, 2, 0⟩
def Corr.chMap (p : Nat) : Fld := ⟨0x20000000 + 0x100000 * p + 0x4, 0, 16, 0⟩
def Corr.linX (p i : Nat) : Fld := ⟨0x20000000 + 0x100000 * p + 0x100 + 4 * i, 0, 20, 0⟩
def Corr.linY (p i : Nat) : Fld := ⟨0x20000000 + 0x100000 * p + 0x200 + 4 * i, 0, 16, 0⟩
def Corr.linSLo (p i : Nat) : Fld := ⟨0x20000000 + 0x100000 * p + 0x300 + 8 * i, 0, 32, 0⟩
def Corr.linSHi (p i : Nat) : Fld := ⟨0x20000000 + 0x100000 * p + 0x304 + 8 * i, 0, 8, 0⟩
def Corr.bypass (p : Nat) : Fld := ⟨0x20000000 + 0x100000 * p + 0x1000, 0, 1, 0⟩
def Corr.bl (p k : Nat) : Fld := ⟨0x20000000 + 0x100000 * p + 0x1004 + 4 * (k / 2), 16 * (k % 2), 16, 0⟩
def Corr.clipLow (p : Nat) : Fld := ⟨0x20000000 + 0x100000 * p + 0x1040, 0, 32, 0⟩
def Corr.bypass2 (p : Nat) : Fld := ⟨0x20000000 + 0x100000 * p + 0x2000, 0, 1, 0⟩
def Corr.staticEn (p : Nat) : Fld := ⟨0x20000000 + 0x100000 * p + 0x2000, 1, 1, 0⟩
def Corr.hotEn (p : Nat) : Fld := ⟨0x20000000 + 0x100000 * p + 0x2000, 2, 1, 0⟩
def Corr.coldEn (p : Nat) : Fld := ⟨0x20000000 + 0x100000 * p + 0x2000, 3, 1, 0⟩
def Corr.staticCount (p : Nat) : Fld := ⟨0x20000000 + 0x100000 * p + 0x2000, 16, 11, 0⟩
def Corr.dynThresh (p : Nat) : Fld := ⟨0x20000000 + 0x100000 * p + 0x2004, 0, 16, 0⟩
def Corr.staticReplaced (p : Nat) : Fld := ⟨0x20000000 + 0x100000 * p + 0x2040, 0, 32, 0⟩
def Corr.dynHot (p : Nat) : Fld := ⟨0x20000000 + 0x100000 * p + 0x2044, 0, 32, 0⟩
def Corr.dynCold (p : Nat) : Fld := ⟨0x20000000 + 0x100000 * p + 0x2048, 0, 32, 0⟩
def Corr.uncorrectable (p : Nat) : Fld := ⟨0x20000000 + 0x100000 * p + 0x204c, 0, 32, 0⟩
def Corr.counter (p i : Nat) : Fld := ⟨0x20000000 + 0x100000 * p + 0x2040 + 4 * i, 0, 32, 0⟩
def Corr.bypass3 (p : Nat) : Fld := ⟨0x20000000 + 0x100000 * p + 0x3000, 0, 1, 0⟩
def Corr.sx (p : Nat) : Fld := ⟨0x20000000 + 0x100000 * p + 0x3000, 1, 3, 0⟩
def Corr.sy (p : Nat) : Fld := ⟨0x20000000 + 0x100000 * p + 0x3000, 4, 4, 0⟩
def Corr.active (p : Nat) : Fld := ⟨0x20000000 + 0x100000 * p + 0x3010, 0, 1, 0⟩
def Corr.swapPending (p : Nat) : Fld := ⟨0x20000000 + 0x100000 * p + 0x3010, 1, 1, 0⟩
def Corr.stateA (p : Nat) : Fld := ⟨0x20000000 + 0x100000 * p + 0x3010, 2, 2, 0⟩
def Corr.stateB (p : Nat) : Fld := ⟨0x20000000 + 0x100000 * p + 0x3010, 4, 2, 0⟩
def Corr.staticCountIn (p : Nat) : Fld := ⟨0x20000000 + 0x100000 * p + 0x3010, 6, 11, 0⟩
def Corr.swapIndexLo (p : Nat) : Fld := ⟨0x20000000 + 0x100000 * p + 0x3018, 0, 32, 0⟩
def Corr.swapIndexHi (p : Nat) : Fld := ⟨0x20000000 + 0x100000 * p + 0x301c, 0, 16, 0⟩
def Corr.lastSwapLo (p : Nat) : Fld := ⟨0x20000000 + 0x100000 * p + 0x3020, 0, 32, 0⟩
def Corr.lastSwapHi (p : Nat) : Fld := ⟨0x20000000 + 0x100000 * p + 0x3024, 0, 16, 0⟩
def Corr.crcA (p : Nat) : Fld := ⟨0x20000000 + 0x100000 * p + 0x3028, 0, 32, 0⟩
def Corr.crcB (p : Nat) : Fld := ⟨0x20000000 + 0x100000 * p + 0x302c, 0, 32, 0⟩
def Corr.swapped (p : Nat) : Fld := ⟨0x20000000 + 0x100000 * p + 0x3030, 0, 1, 0x20000000 + 0x100000 * p + 0x3080⟩
def Corr.clipHigh (p : Nat) : Fld := ⟨0x20000000 + 0x100000 * p + 0x3040, 0, 32, 0⟩
def Corr.flagCount (p : Nat) : Fld := ⟨0x20000000 + 0x100000 * p + 0x3080, 0, 16, 0⟩
def Corr.state (p : Nat) : Fld := ⟨0x20000000 + 0x100000 * p + 0xa000, 0, 2, 0⟩
def Corr.tap (p : Nat) : Fld := ⟨0x20000000 + 0x100000 * p + 0xa000, 2, 1, 0⟩
def Corr.kind (p : Nat) : Fld := ⟨0x20000000 + 0x100000 * p + 0xa000, 3, 1, 0⟩
def Corr.targetLines (p : Nat) : Fld := ⟨0x20000000 + 0x100000 * p + 0xa004, 0, 17, 0⟩
def Corr.used (p : Nat) : Fld := ⟨0x20000000 + 0x100000 * p + 0xa008, 0, 17, 0⟩
def Corr.skipped (p : Nat) : Fld := ⟨0x20000000 + 0x100000 * p + 0xa00c, 0, 32, 0⟩

/-! Table 9-7. -/
def Col.bypass (p : Nat) : Fld := ⟨0x20000000 + 0x100000 * p + 0x4000, 0, 1, 0⟩
def Col.wb (p k : Nat) : Fld := ⟨0x20000000 + 0x100000 * p + 0x4004 + 4 * (k / 2), 16 * (k % 2), 16, 0⟩
def Col.updatePending (p : Nat) : Fld := ⟨0x20000000 + 0x100000 * p + 0x4010, 0, 1, 0⟩
def Col.updateIndexLo (p : Nat) : Fld := ⟨0x20000000 + 0x100000 * p + 0x4018, 0, 32, 0⟩
def Col.updateIndexHi (p : Nat) : Fld := ⟨0x20000000 + 0x100000 * p + 0x401c, 0, 16, 0⟩
def Col.applied (p : Nat) : Fld := ⟨0x20000000 + 0x100000 * p + 0x4020, 0, 1, 0x20000000 + 0x100000 * p + 0x4080⟩
def Col.wbClip (p : Nat) : Fld := ⟨0x20000000 + 0x100000 * p + 0x4040, 0, 32, 0⟩
def Col.flagCount (p : Nat) : Fld := ⟨0x20000000 + 0x100000 * p + 0x4080, 0, 16, 0⟩
def Col.modeF (p : Nat) : Fld := ⟨0x20000000 + 0x100000 * p + 0x5000, 0, 2, 0⟩
def Col.edgeT (p : Nat) : Fld := ⟨0x20000000 + 0x100000 * p + 0x5004, 0, 16, 0⟩
def Col.colour (p : Nat) : Fld := ⟨0x20000000 + 0x100000 * p + 0x5008, 0, 8, 0⟩
def Col.d0 (p : Nat) : Fld := ⟨0x20000000 + 0x100000 * p + 0x500c, 0, 6, 0⟩
def Col.d1 (p : Nat) : Fld := ⟨0x20000000 + 0x100000 * p + 0x500c, 8, 6, 0⟩
def Col.d2 (p : Nat) : Fld := ⟨0x20000000 + 0x100000 * p + 0x500c, 16, 6, 0⟩
def Col.d3 (p : Nat) : Fld := ⟨0x20000000 + 0x100000 * p + 0x500c, 24, 6, 0⟩
def Col.alignMiss (p : Nat) : Fld := ⟨0x20000000 + 0x100000 * p + 0x5040, 0, 32, 0⟩
def Col.bypass6000 (p : Nat) : Fld := ⟨0x20000000 + 0x100000 * p + 0x6000, 0, 1, 0⟩
def Col.m (p j : Nat) : Fld := ⟨0x20000000 + 0x100000 * p + 0x6010 + 4 * j, 0, 16, 0⟩
def Col.off (p i : Nat) : Fld := ⟨0x20000000 + 0x100000 * p + 0x6040 + 4 * i, 0, 17, 0⟩
def Col.kr (p : Nat) : Fld := ⟨0x20000000 + 0x100000 * p + 0x6050, 0, 16, 0⟩
def Col.kg (p : Nat) : Fld := ⟨0x20000000 + 0x100000 * p + 0x6050, 16, 16, 0⟩
def Col.kb (p : Nat) : Fld := ⟨0x20000000 + 0x100000 * p + 0x6054, 0, 16, 0⟩
def Col.matrixClip (p : Nat) : Fld := ⟨0x20000000 + 0x100000 * p + 0x6080, 0, 32, 0⟩
def Col.format (p : Nat) : Fld := ⟨0x20000000 + 0x100000 * p + 0x7000, 0, 4, 0⟩
def Col.comps3 (p : Nat) : Fld := ⟨0x20000000 + 0x100000 * p + 0x7000, 4, 1, 0⟩
def Col.fill (p : Nat) : Fld := ⟨0x20000000 + 0x100000 * p + 0x7004, 0, 16, 0⟩
def Col.enable (p : Nat) : Fld := ⟨0x20000000 + 0x100000 * p + 0x8000, 0, 1, 0⟩
def Col.yEn (p : Nat) : Fld := ⟨0x20000000 + 0x100000 * p + 0x8000, 1, 1, 0⟩
def Col.y1024 (p : Nat) : Fld := ⟨0x20000000 + 0x100000 * p + 0x8000, 2, 1, 0⟩
def Col.everyM1 (p : Nat) : Fld := ⟨0x20000000 + 0x100000 * p + 0x8000, 8, 8, 0⟩
def Col.zonesXM1 (p : Nat) : Fld := ⟨0x20000000 + 0x100000 * p + 0x8004, 0, 6, 0⟩
def Col.zonesYM1 (p : Nat) : Fld := ⟨0x20000000 + 0x100000 * p + 0x8004, 8, 5, 0⟩
def Col.zoneW (p : Nat) : Fld := ⟨0x20000000 + 0x100000 * p + 0x8008, 0, 15, 0⟩
def Col.zoneH (p : Nat) : Fld := ⟨0x20000000 + 0x100000 * p + 0x8008, 16, 16, 0⟩
def Col.originX (p : Nat) : Fld := ⟨0x20000000 + 0x100000 * p + 0x800c, 0, 14, 0⟩
def Col.originY (p : Nat) : Fld := ⟨0x20000000 + 0x100000 * p + 0x800c, 16, 16, 0⟩
def Col.clipLevel (p : Nat) : Fld := ⟨0x20000000 + 0x100000 * p + 0x8010, 0, 16, 0⟩
def Col.records (p : Nat) : Fld := ⟨0x20000000 + 0x100000 * p + 0x8040, 0, 32, 0⟩
def Col.partialRecords (p : Nat) : Fld := ⟨0x20000000 + 0x100000 * p + 0x8044, 0, 32, 0⟩

/-! Table 10-5. -/
def Scr.enable (p : Nat) : Fld := ⟨0x20000000 + 0x100000 * p + 0x9000, 0, 1, 0⟩
def Scr.holdFlagged (p : Nat) : Fld := ⟨0x20000000 + 0x100000 * p + 0x9000, 1, 1, 0⟩
def Scr.margin (p : Nat) : Fld := ⟨0x20000000 + 0x100000 * p + 0x9000, 2, 2, 0⟩
def Scr.cutout (p : Nat) : Fld := ⟨0x20000000 + 0x100000 * p + 0x9000, 4, 1, 0⟩
def Scr.w0 (p : Nat) : Fld := ⟨0x20000000 + 0x100000 * p + 0x9004, 0, 8, 0⟩
def Scr.w1 (p : Nat) : Fld := ⟨0x20000000 + 0x100000 * p + 0x9004, 8, 8, 0⟩
def Scr.w2 (p : Nat) : Fld := ⟨0x20000000 + 0x100000 * p + 0x9004, 16, 8, 0⟩
def Scr.thresh (p : Nat) : Fld := ⟨0x20000000 + 0x100000 * p + 0x9004, 24, 8, 0⟩
def Scr.floor0 (p : Nat) : Fld := ⟨0x20000000 + 0x100000 * p + 0x9008, 0, 16, 0⟩
def Scr.floor1 (p : Nat) : Fld := ⟨0x20000000 + 0x100000 * p + 0x9008, 16, 16, 0⟩
def Scr.floor2 (p : Nat) : Fld := ⟨0x20000000 + 0x100000 * p + 0x900c, 0, 16, 0⟩
def Scr.quota (p : Nat) : Fld := ⟨0x20000000 + 0x100000 * p + 0x9010, 0, 13, 0⟩
def Scr.tunePending (p : Nat) : Fld := ⟨0x20000000 + 0x100000 * p + 0x9014, 0, 1, 0⟩
def Scr.tuneIndexLo (p : Nat) : Fld := ⟨0x20000000 + 0x100000 * p + 0x9018, 0, 32, 0⟩
def Scr.tuneIndexHi (p : Nat) : Fld := ⟨0x20000000 + 0x100000 * p + 0x901c, 0, 16, 0⟩
def Scr.quotaHit (p : Nat) : Fld := ⟨0x20000000 + 0x100000 * p + 0x9020, 0, 1, 0x20000000 + 0x100000 * p + 0x9080⟩
def Scr.tuned (p : Nat) : Fld := ⟨0x20000000 + 0x100000 * p + 0x9020, 1, 1, 0x20000000 + 0x100000 * p + 0x9084⟩
def Scr.tilesScored (p : Nat) : Fld := ⟨0x20000000 + 0x100000 * p + 0x9040, 0, 32, 0⟩
def Scr.tilesFlagged (p : Nat) : Fld := ⟨0x20000000 + 0x100000 * p + 0x9044, 0, 32, 0⟩
def Scr.tilesCut (p : Nat) : Fld := ⟨0x20000000 + 0x100000 * p + 0x9048, 0, 32, 0⟩
def Scr.notCut (p : Nat) : Fld := ⟨0x20000000 + 0x100000 * p + 0x904c, 0, 32, 0⟩
def Scr.invalid (p : Nat) : Fld := ⟨0x20000000 + 0x100000 * p + 0x9050, 0, 32, 0⟩
def Scr.maps (p : Nat) : Fld := ⟨0x20000000 + 0x100000 * p + 0x9054, 0, 32, 0⟩
def Scr.suspendedMaps (p : Nat) : Fld := ⟨0x20000000 + 0x100000 * p + 0x9058, 0, 32, 0⟩
def Scr.counter (p i : Nat) : Fld := ⟨0x20000000 + 0x100000 * p + 0x9040 + 4 * i, 0, 32, 0⟩
def Scr.flagCount (p i : Nat) : Fld := ⟨0x20000000 + 0x100000 * p + 0x9080 + 4 * i, 0, 16, 0⟩

/-! Table 11-6. -/
def Asm.admitted (s : Nat) : Fld := ⟨0x01200000 + 0x8000 * s, 0, 1, 0⟩
def Asm.area (s : Nat) : Fld := ⟨0x01200000 + 0x8000 * s, 1, 1, 0⟩
def Asm.bandRows (s : Nat) : Fld := ⟨0x01200000 + 0x8000 * s, 16, 16, 0⟩
def Asm.deadline (s : Nat) : Fld := ⟨0x01200000 + 0x8000 * s + 0x4, 0, 32, 0⟩
def Asm.areaLineNs (s : Nat) : Fld := ⟨0x01200000 + 0x8000 * s + 0x8, 0, 24, 0⟩
def Asm.width (s : Nat) : Fld := ⟨0x01200000 + 0x8000 * s + 0xc, 0, 21, 0⟩
def Asm.segments (s : Nat) : Fld := ⟨0x01200000 + 0x8000 * s + 0xc, 24, 6, 0⟩
def Asm.recordBytes (s : Nat) : Fld := ⟨0x01200000 + 0x8000 * s + 0x10, 0, 32, 0⟩
def Asm.storeGranules (s : Nat) : Fld := ⟨0x01200000 + 0x8000 * s + 0x14, 0, 10, 0⟩
def Asm.storeFirst (s : Nat) : Fld := ⟨0x01200000 + 0x8000 * s + 0x14, 16, 10, 0⟩
def Asm.openRows (s : Nat) : Fld := ⟨0x01200000 + 0x8000 * s + 0x18, 0, 16, 0⟩
def Asm.openPeak (s : Nat) : Fld := ⟨0x01200000 + 0x8000 * s + 0x18, 16, 16, 0⟩
def Asm.deadlineHit (s : Nat) : Fld := ⟨0x01200000 + 0x8000 * s + 0x20, 0, 1, 0x01200000 + 0x8000 * s + 0x80⟩
def Asm.remoteMissing (s : Nat) : Fld := ⟨0x01200000 + 0x8000 * s + 0x20, 1, 1, 0x01200000 + 0x8000 * s + 0x84⟩
def Asm.matchApplied (s : Nat) : Fld := ⟨0x01200000 + 0x8000 * s + 0x20, 2, 1, 0x01200000 + 0x8000 * s + 0x88⟩
def Asm.matchPending (s : Nat) : Fld := ⟨0x01200000 + 0x8000 * s + 0x24, 0, 1, 0⟩
def Asm.matchIndexLo (s : Nat) : Fld := ⟨0x01200000 + 0x8000 * s + 0x28, 0, 32, 0⟩
def Asm.matchIndexHi (s : Nat) : Fld := ⟨0x01200000 + 0x8000 * s + 0x2c, 0, 16, 0⟩
def Asm.rows (s : Nat) : Fld := ⟨0x01200000 + 0x8000 * s + 0x40, 0, 64, 0⟩
def Asm.deadlineCloses (s : Nat) : Fld := ⟨0x01200000 + 0x8000 * s + 0x48, 0, 64, 0⟩
def Asm.markedRows (s : Nat) : Fld := ⟨0x01200000 + 0x8000 * s + 0x50, 0, 64, 0⟩
def Asm.lateSlots (s : Nat) : Fld := ⟨0x01200000 + 0x8000 * s + 0x58, 0, 64, 0⟩
def Asm.missingSlots (s : Nat) : Fld := ⟨0x01200000 + 0x8000 * s + 0x60, 0, 64, 0⟩
def Asm.withheld (s : Nat) : Fld := ⟨0x01200000 + 0x8000 * s + 0x68, 0, 64, 0⟩
def Asm.remoteMissing70 (s : Nat) : Fld := ⟨0x01200000 + 0x8000 * s + 0x70, 0, 64, 0⟩
def Asm.counter (s i : Nat) : Fld := ⟨0x01200000 + 0x8000 * s + 0x40 + 8 * i, 0, 64, 0⟩
def Asm.flagCount (s i : Nat) : Fld := ⟨0x01200000 + 0x8000 * s + 0x80 + 4 * i, 0, 16, 0⟩

/-! Table 11-7. -/
def Geo.col0 (s h : Nat) : Fld := ⟨0x01204000 + 0x8000 * s + 0x40 * h, 0, 21, 0⟩
def Geo.cropStart (s h : Nat) : Fld := ⟨0x01204000 + 0x8000 * s + 0x40 * h + 0x4, 0, 14, 0⟩
def Geo.cropWidth (s h : Nat) : Fld := ⟨0x01204000 + 0x8000 * s + 0x40 * h + 0x4, 16, 15, 0⟩
def Geo.outWidth (s h : Nat) : Fld := ⟨0x01204000 + 0x8000 * s + 0x40 * h + 0x8, 0, 15, 0⟩
def Geo.resample (s h : Nat) : Fld := ⟨0x01204000 + 0x8000 * s + 0x40 * h + 0x8, 15, 1, 0⟩
def Geo.seam (s h : Nat) : Fld := ⟨0x01204000 + 0x8000 * s + 0x40 * h + 0x8, 16, 1, 0⟩
def Geo.cut (s h : Nat) : Fld := ⟨0x01204000 + 0x8000 * s + 0x40 * h + 0x8, 17, 9, 0⟩
def Geo.a0 (s h : Nat) : Fld := ⟨0x01204000 + 0x8000 * s + 0x40 * h + 0x10, 0, 32, 0⟩
def Geo.a1 (s h : Nat) : Fld := ⟨0x01204000 + 0x8000 * s + 0x40 * h + 0x14, 0, 32, 0⟩
def Geo.a2 (s h : Nat) : Fld := ⟨0x01204000 + 0x8000 * s + 0x40 * h + 0x18, 0, 32, 0⟩
def Geo.a3 (s h : Nat) : Fld := ⟨0x01204000 + 0x8000 * s + 0x40 * h + 0x1c, 0, 32, 0⟩
def Geo.mg0 (s h : Nat) : Fld := ⟨0x01204000 + 0x8000 * s + 0x40 * h + 0x20, 0, 16, 0⟩
def Geo.mg1 (s h : Nat) : Fld := ⟨0x01204000 + 0x8000 * s + 0x40 * h + 0x20, 16, 16, 0⟩
def Geo.mg2 (s h : Nat) : Fld := ⟨0x01204000 + 0x8000 * s + 0x40 * h + 0x24, 0, 16, 0⟩
def Geo.lateHead (s h : Nat) : Fld := ⟨0x01204000 + 0x8000 * s + 0x40 * h + 0x28, 0, 32, 0⟩
def Geo.missingHead (s h : Nat) : Fld := ⟨0x01204000 + 0x8000 * s + 0x40 * h + 0x2c, 0, 32, 0⟩
def Geo.rescuedHead (s h : Nat) : Fld := ⟨0x01204000 + 0x8000 * s + 0x40 * h + 0x30, 0, 32, 0⟩

/-! Table 11-8. -/
def Seam.closeQueue (c : Nat) : Fld := ⟨0x10200000 + 0x01000000 * c, 0, 5, 0⟩
def Seam.closePeak (c : Nat) : Fld := ⟨0x10200000 + 0x01000000 * c + 0x4, 0, 32, 0⟩
def Seam.rescue (c : Nat) : Fld := ⟨0x10200000 + 0x01000000 * c + 0x10, 0, 1, 0x10200000 + 0x01000000 * c + 0x80⟩
def Seam.spansClosed (c : Nat) : Fld := ⟨0x10200000 + 0x01000000 * c + 0x40, 0, 32, 0⟩
def Seam.edgeBandsSent (c : Nat) : Fld := ⟨0x10200000 + 0x01000000 * c + 0x44, 0, 32, 0⟩
def Seam.edgeBandsFill (c : Nat) : Fld := ⟨0x10200000 + 0x01000000 * c + 0x48, 0, 32, 0⟩
def Seam.rescuedColumns (c : Nat) : Fld := ⟨0x10200000 + 0x01000000 * c + 0x4c, 0, 32, 0⟩
def Seam.counter (c i : Nat) : Fld := ⟨0x10200000 + 0x01000000 * c + 0x40 + 4 * i, 0, 32, 0⟩
def Seam.flagCount (c : Nat) : Fld := ⟨0x10200000 + 0x01000000 * c + 0x80, 0, 16, 0⟩

/-! Table 12-10. -/
def Cod.ratio (s : Nat) : Fld := ⟨0x01200100 + 0x8000 * s, 0, 3, 0⟩
def Cod.effort (s : Nat) : Fld := ⟨0x01200100 + 0x8000 * s, 3, 2, 0⟩
def Cod.independent (s : Nat) : Fld := ⟨0x01200100 + 0x8000 * s, 5, 1, 0⟩
def Cod.effortInUse (s : Nat) : Fld := ⟨0x01200100 + 0x8000 * s, 6, 2, 0⟩
def Cod.effortPending (s : Nat) : Fld := ⟨0x01200100 + 0x8000 * s, 8, 1, 0⟩
def Cod.budget (s : Nat) : Fld := ⟨0x01200100 + 0x8000 * s + 0x4, 0, 24, 0⟩
def Cod.effortIndexLo (s : Nat) : Fld := ⟨0x01200100 + 0x8000 * s + 0x8, 0, 32, 0⟩
def Cod.effortIndexHi (s : Nat) : Fld := ⟨0x01200100 + 0x8000 * s + 0xc, 0, 16, 0⟩
def Cod.lossyRow (s : Nat) : Fld := ⟨0x01200100 + 0x8000 * s + 0x10, 0, 1, 0x01200100 + 0x8000 * s + 0x80⟩
def Cod.held (s : Nat) : Fld := ⟨0x01200100 + 0x8000 * s + 0x10, 1, 1, 0x01200100 + 0x8000 * s + 0x84⟩
def Cod.effortApplied (s : Nat) : Fld := ⟨0x01200100 + 0x8000 * s + 0x10, 2, 1, 0x01200100 + 0x8000 * s + 0x88⟩
def Cod.codedRows (s : Nat) : Fld := ⟨0x01200100 + 0x8000 * s + 0x40, 0, 64, 0⟩
def Cod.intraRows (s : Nat) : Fld := ⟨0x01200100 + 0x8000 * s + 0x48, 0, 64, 0⟩
def Cod.lossyRows (s : Nat) : Fld := ⟨0x01200100 + 0x8000 * s + 0x50, 0, 64, 0⟩
def Cod.lossyBlocks (s : Nat) : Fld := ⟨0x01200100 + 0x8000 * s + 0x58, 0, 64, 0⟩
def Cod.heldBlocks (s : Nat) : Fld := ⟨0x01200100 + 0x8000 * s + 0x60, 0, 64, 0⟩
def Cod.counter (s i : Nat) : Fld := ⟨0x01200100 + 0x8000 * s + 0x40 + 8 * i, 0, 64, 0⟩
def Cod.flagCount (s i : Nat) : Fld := ⟨0x01200100 + 0x8000 * s + 0x80 + 4 * i, 0, 16, 0⟩

/-! Table 12-11. -/
def Slice.codeQueue (c : Nat) : Fld := ⟨0x10300000 + 0x01000000 * c, 0, 5, 0⟩
def Slice.codePeak (c : Nat) : Fld := ⟨0x10300000 + 0x01000000 * c + 0x4, 0, 32, 0⟩
def Slice.segmentsCoded (c : Nat) : Fld := ⟨0x10300000 + 0x01000000 * c + 0x40, 0, 32, 0⟩
def Slice.blocksCoded (c : Nat) : Fld := ⟨0x10300000 + 0x01000000 * c + 0x44, 0, 32, 0⟩
def Slice.lossyBlocks (c : Nat) : Fld := ⟨0x10300000 + 0x01000000 * c + 0x48, 0, 32, 0⟩
def Slice.heldBlocks (c : Nat) : Fld := ⟨0x10300000 + 0x01000000 * c + 0x4c, 0, 32, 0⟩
def Slice.counter (c i : Nat) : Fld := ⟨0x10300000 + 0x01000000 * c + 0x40 + 4 * i, 0, 32, 0⟩

/-! Table 12-12. -/
def RootCod.decUnverified : Fld := ⟨0x01280000, 0, 1, 0x01280000 + 0x80⟩
def RootCod.decCorrupt : Fld := ⟨0x01280000, 1, 1, 0x01280000 + 0x84⟩
def RootCod.jobFault : Fld := ⟨0x01280000, 2, 1, 0x01280000 + 0x88⟩
def RootCod.spansDecoded : Fld := ⟨0x01280000 + 0x40, 0, 64, 0⟩
def RootCod.spansUnverified : Fld := ⟨0x01280000 + 0x48, 0, 64, 0⟩
def RootCod.spansCorrupt : Fld := ⟨0x01280000 + 0x50, 0, 64, 0⟩
def RootCod.jobsDone : Fld := ⟨0x01280000 + 0x58, 0, 64, 0⟩
def RootCod.jobsStopped : Fld := ⟨0x01280000 + 0x60, 0, 64, 0⟩
def RootCod.jobsFailed : Fld := ⟨0x01280000 + 0x68, 0, 64, 0⟩
def RootCod.counter (i : Nat) : Fld := ⟨0x01280000 + 0x40 + 8 * i, 0, 64, 0⟩
def RootCod.flagCount (i : Nat) : Fld := ⟨0x01280000 + 0x80 + 4 * i, 0, 16, 0⟩
def RootCod.jobState (r : Nat) : Fld := ⟨0x01280000 + 0x100 + 16 * r, 0, 2, 0⟩
def RootCod.jobTag (r : Nat) : Fld := ⟨0x01280000 + 0x104 + 16 * r, 0, 32, 0⟩
def RootCod.jobRows (r : Nat) : Fld := ⟨0x01280000 + 0x108 + 16 * r, 0, 32, 0⟩

/-! Table 13-5. -/
def Ring.enable (i : Nat) : Fld := ⟨0x01320000 + 0x40 * i, 0, 1, 0⟩
def Ring.world (i : Nat) : Fld := ⟨0x01320000 + 0x40 * i, 1, 1, 0⟩
def Ring.type (i : Nat) : Fld := ⟨0x01320000 + 0x40 * i, 2, 3, 0⟩
def Ring.entryBytes (i : Nat) : Fld := ⟨0x01320000 + 0x40 * i + 0x4, 0, 24, 0⟩
def Ring.baseLo (i : Nat) : Fld := ⟨0x01320000 + 0x40 * i + 0x8, 6, 26, 0⟩
def Ring.baseHi (i : Nat) : Fld := ⟨0x01320000 + 0x40 * i + 0xc, 0, 32, 0⟩
def Ring.count (i : Nat) : Fld := ⟨0x01320000 + 0x40 * i + 0x10, 0, 21, 0⟩
def Ring.vector (i : Nat) : Fld := ⟨0x01320000 + 0x40 * i + 0x14, 0, 7, 0⟩
def Ring.irqEn (i : Nat) : Fld := ⟨0x01320000 + 0x40 * i + 0x14, 7, 1, 0⟩
def Ring.holdoff (i : Nat) : Fld := ⟨0x01320000 + 0x40 * i + 0x14, 8, 16, 0⟩
def Ring.indexAddrLo (i : Nat) : Fld := ⟨0x01320000 + 0x40 * i + 0x18, 2, 30, 0⟩
def Ring.indexAddrHi (i : Nat) : Fld := ⟨0x01320000 + 0x40 * i + 0x1c, 0, 32, 0⟩
def Ring.hostIndex (i : Nat) : Fld := ⟨0x01320000 + 0x40 * i + 0x20, 0, 32, 0⟩
def Ring.devIndex (i : Nat) : Fld := ⟨0x01320000 + 0x40 * i + 0x24, 0, 32, 0⟩
def Ring.stalled (i : Nat) : Fld := ⟨0x01320000 + 0x40 * i + 0x28, 0, 1, 0x01320000 + 0x40 * i + 0x30⟩
def Ring.discarded (i : Nat) : Fld := ⟨0x01320000 + 0x40 * i + 0x28, 1, 1, 0x01320000 + 0x40 * i + 0x34⟩
def Ring.badIndex (i : Nat) : Fld := ⟨0x01320000 + 0x40 * i + 0x28, 2, 1, 0x01320000 + 0x40 * i + 0x38⟩
def Ring.discards (i : Nat) : Fld := ⟨0x01320000 + 0x40 * i + 0x2c, 0, 32, 0⟩
def Ring.flagCount (i j : Nat) : Fld := ⟨0x01320000 + 0x40 * i + 0x30 + 4 * j, 0, 16, 0⟩

/-! Table 13-13. -/
def Del.state (s : Nat) : Fld := ⟨0x01200200 + 0x8000 * s, 0, 2, 0⟩
def Del.suspended (s : Nat) : Fld := ⟨0x01200200 + 0x8000 * s, 2, 1, 0⟩
def Del.fast (s : Nat) : Fld := ⟨0x01200200 + 0x8000 * s, 3, 1, 0⟩
def Del.boundNs (s : Nat) : Fld := ⟨0x01200200 + 0x8000 * s + 0x4, 0, 32, 0⟩
def Del.acceptNs (s : Nat) : Fld := ⟨0x01200200 + 0x8000 * s + 0x8, 0, 32, 0⟩
def Del.slots (s : Nat) : Fld := ⟨0x01200200 + 0x8000 * s + 0xc, 0, 8, 0⟩
def Del.egressGranules (s : Nat) : Fld := ⟨0x01200200 + 0x8000 * s + 0xc, 16, 10, 0⟩
def Del.slack (s : Nat) : Fld := ⟨0x01200200 + 0x8000 * s + 0x10, 0, 24, 0⟩
def Del.worstNs (s : Nat) : Fld := ⟨0x01200200 + 0x8000 * s + 0x14, 0, 32, 0⟩
def Del.violation (s : Nat) : Fld := ⟨0x01200200 + 0x8000 * s + 0x18, 0, 1, 0x01200200 + 0x8000 * s + 0x80⟩
def Del.recordDropped (s : Nat) : Fld := ⟨0x01200200 + 0x8000 * s + 0x18, 1, 1, 0x01200200 + 0x8000 * s + 0x84⟩
def Del.sideDropped (s : Nat) : Fld := ⟨0x01200200 + 0x8000 * s + 0x18, 2, 1, 0x01200200 + 0x8000 * s + 0x88⟩
def Del.stranded (s : Nat) : Fld := ⟨0x01200200 + 0x8000 * s + 0x18, 3, 1, 0x01200200 + 0x8000 * s + 0x8c⟩
def Del.delivered (s : Nat) : Fld := ⟨0x01200200 + 0x8000 * s + 0x40, 0, 64, 0⟩
def Del.violations (s : Nat) : Fld := ⟨0x01200200 + 0x8000 * s + 0x48, 0, 64, 0⟩
def Del.lateSuspended (s : Nat) : Fld := ⟨0x01200200 + 0x8000 * s + 0x50, 0, 64, 0⟩
def Del.recordsDropped (s : Nat) : Fld := ⟨0x01200200 + 0x8000 * s + 0x58, 0, 64, 0⟩
def Del.sideDroppedCount (s : Nat) : Fld := ⟨0x01200200 + 0x8000 * s + 0x60, 0, 64, 0⟩
def Del.sideRecords (s : Nat) : Fld := ⟨0x01200200 + 0x8000 * s + 0x68, 0, 64, 0⟩
def Del.flushes (s : Nat) : Fld := ⟨0x01200200 + 0x8000 * s + 0x70, 0, 64, 0⟩
def Del.strandedCount (s : Nat) : Fld := ⟨0x01200200 + 0x8000 * s + 0x78, 0, 64, 0⟩
def Del.counter (s i : Nat) : Fld := ⟨0x01200200 + 0x8000 * s + 0x40 + 8 * i, 0, 64, 0⟩
def Del.flagCount (s i : Nat) : Fld := ⟨0x01200200 + 0x8000 * s + 0x80 + 4 * i, 0, 16, 0⟩

/-! Table 13-14. -/
def Car.assigned : Fld := ⟨0x012C0000, 0, 8, 0⟩
def Car.fastFlits : Fld := ⟨0x012C0000, 8, 2, 0⟩
def Car.slotBytes : Fld := ⟨0x012C0000 + 0x4, 0, 20, 0⟩
def Car.replayTerm : Fld := ⟨0x012C0000 + 0x8, 0, 16, 0⟩

/-! Table 14-11. -/
def Quad.enable (q : Nat) : Fld := ⟨0x01400000 + 0x40000 * q, 0, 1, 0⟩
def Quad.rateCap (q : Nat) : Fld := ⟨0x01400000 + 0x40000 * q, 1, 3, 0⟩
def Quad.widthCap (q : Nat) : Fld := ⟨0x01400000 + 0x40000 * q, 4, 2, 0⟩
def Quad.cascRatio (q : Nat) : Fld := ⟨0x01400000 + 0x40000 * q, 6, 3, 0⟩
def Quad.upstream (q : Nat) : Fld := ⟨0x01400000 + 0x40000 * q, 9, 1, 0⟩
def Quad.lstate (q : Nat) : Fld := ⟨0x01400000 + 0x40000 * q + 0x4, 0, 3, 0⟩
def Quad.rate (q : Nat) : Fld := ⟨0x01400000 + 0x40000 * q + 0x4, 3, 3, 0⟩
def Quad.width (q : Nat) : Fld := ⟨0x01400000 + 0x40000 * q + 0x4, 6, 2, 0⟩
def Quad.laneLock (q : Nat) : Fld := ⟨0x01400000 + 0x40000 * q + 0x4, 8, 4, 0⟩
def Quad.deskewed (q : Nat) : Fld := ⟨0x01400000 + 0x40000 * q + 0x4, 12, 1, 0⟩
def Quad.timeLocked (q : Nat) : Fld := ⟨0x01400000 + 0x40000 * q + 0x4, 13, 1, 0⟩
def Quad.keyDefault (q : Nat) : Fld := ⟨0x01400000 + 0x40000 * q + 0x4, 14, 1, 0⟩
def Quad.peer (q : Nat) : Fld := ⟨0x01400000 + 0x40000 * q + 0x4, 15, 4, 0⟩
def Quad.rtt (q : Nat) : Fld := ⟨0x01400000 + 0x40000 * q + 0x8, 0, 16, 0⟩
def Quad.ow (q : Nat) : Fld := ⟨0x01400000 + 0x40000 * q + 0x8, 16, 16, 0⟩
def Quad.trigHop (q : Nat) : Fld := ⟨0x01400000 + 0x40000 * q + 0xc, 0, 16, 0⟩
def Quad.epoch (q : Nat) : Fld := ⟨0x01400000 + 0x40000 * q + 0xc, 16, 16, 0⟩
def Quad.asym (q : Nat) : Fld := ⟨0x01400000 + 0x40000 * q + 0x10, 0, 16, 0⟩
def Quad.offset (q : Nat) : Fld := ⟨0x01400000 + 0x40000 * q + 0x14, 0, 32, 0⟩
def Quad.meanDelay (q : Nat) : Fld := ⟨0x01400000 + 0x40000 * q + 0x18, 0, 32, 0⟩
def Quad.lockLost (q : Nat) : Fld := ⟨0x01400000 + 0x40000 * q + 0x20, 0, 1, 0x01400000 + 0x40000 * q + 0x80⟩
def Quad.replayed (q : Nat) : Fld := ⟨0x01400000 + 0x40000 * q + 0x20, 1, 1, 0x01400000 + 0x40000 * q + 0x84⟩
def Quad.restarted (q : Nat) : Fld := ⟨0x01400000 + 0x40000 * q + 0x20, 2, 1, 0x01400000 + 0x40000 * q + 0x88⟩
def Quad.authFailed (q : Nat) : Fld := ⟨0x01400000 + 0x40000 * q + 0x20, 3, 1, 0x01400000 + 0x40000 * q + 0x8c⟩
def Quad.timeUnlock (q : Nat) : Fld := ⟨0x01400000 + 0x40000 * q + 0x20, 4, 1, 0x01400000 + 0x40000 * q + 0x90⟩
def Quad.joined (q : Nat) : Fld := ⟨0x01400000 + 0x40000 * q + 0x20, 5, 1, 0x01400000 + 0x40000 * q + 0x94⟩
def Quad.left (q : Nat) : Fld := ⟨0x01400000 + 0x40000 * q + 0x20, 6, 1, 0x01400000 + 0x40000 * q + 0x98⟩
def Quad.txPackets (q : Nat) : Fld := ⟨0x01400000 + 0x40000 * q + 0x40, 0, 32, 0⟩
def Quad.rxPackets (q : Nat) : Fld := ⟨0x01400000 + 0x40000 * q + 0x44, 0, 32, 0⟩
def Quad.crcErr (q : Nat) : Fld := ⟨0x01400000 + 0x40000 * q + 0x48, 0, 32, 0⟩
def Quad.seqErr (q : Nat) : Fld := ⟨0x01400000 + 0x40000 * q + 0x4c, 0, 32, 0⟩
def Quad.naksSent (q : Nat) : Fld := ⟨0x01400000 + 0x40000 * q + 0x50, 0, 32, 0⟩
def Quad.replays (q : Nat) : Fld := ⟨0x01400000 + 0x40000 * q + 0x54, 0, 32, 0⟩
def Quad.restarts (q : Nat) : Fld := ⟨0x01400000 + 0x40000 * q + 0x58, 0, 32, 0⟩
def Quad.trigSent (q : Nat) : Fld := ⟨0x01400000 + 0x40000 * q + 0x5c, 0, 32, 0⟩
def Quad.trigRetries (q : Nat) : Fld := ⟨0x01400000 + 0x40000 * q + 0x60, 0, 32, 0⟩
def Quad.trigLost (q : Nat) : Fld := ⟨0x01400000 + 0x40000 * q + 0x64, 0, 32, 0⟩
def Quad.authFail (q : Nat) : Fld := ⟨0x01400000 + 0x40000 * q + 0x68, 0, 32, 0⟩
def Quad.badBlock (q : Nat) : Fld := ⟨0x01400000 + 0x40000 * q + 0x6c, 0, 32, 0⟩
def Quad.counter (q i : Nat) : Fld := ⟨0x01400000 + 0x40000 * q + 0x40 + 4 * i, 0, 32, 0⟩
def Quad.flagCount (q i : Nat) : Fld := ⟨0x01400000 + 0x40000 * q + 0x80 + 4 * i, 0, 16, 0⟩

/-! Table 14-12. -/
def Lane.lock (q l : Nat) : Fld := ⟨0x01401000 + 0x40000 * q + 0x100 * l, 0, 1, 0⟩
def Lane.inUse (q l : Nat) : Fld := ⟨0x01401000 + 0x40000 * q + 0x100 * l, 1, 1, 0⟩
def Lane.logical (q l : Nat) : Fld := ⟨0x01401000 + 0x40000 * q + 0x100 * l, 2, 2, 0⟩
def Lane.skew (q l : Nat) : Fld := ⟨0x01401000 + 0x40000 * q + 0x100 * l, 4, 5, 0⟩
def Lane.badHdr (q l : Nat) : Fld := ⟨0x01401000 + 0x40000 * q + 0x100 * l + 0x4, 0, 16, 0⟩
def Lane.lockLosses (q l : Nat) : Fld := ⟨0x01401000 + 0x40000 * q + 0x100 * l + 0x4, 16, 16, 0⟩
def Lane.gen (q l : Nat) : Fld := ⟨0x01401000 + 0x40000 * q + 0x100 * l + 0x10, 0, 1, 0⟩
def Lane.chk (q l : Nat) : Fld := ⟨0x01401000 + 0x40000 * q + 0x100 * l + 0x10, 1, 1, 0⟩
def Lane.pattern (q l : Nat) : Fld := ⟨0x01401000 + 0x40000 * q + 0x100 * l + 0x10, 2, 2, 0⟩
def Lane.chkSync (q l : Nat) : Fld := ⟨0x01401000 + 0x40000 * q + 0x100 * l + 0x10, 4, 1, 0⟩
def Lane.prbsBitsLo (q l : Nat) : Fld := ⟨0x01401000 + 0x40000 * q + 0x100 * l + 0x14, 0, 32, 0⟩
def Lane.prbsBitsHi (q l : Nat) : Fld := ⟨0x01401000 + 0x40000 * q + 0x100 * l + 0x18, 0, 16, 0⟩
def Lane.prbsErr (q l : Nat) : Fld := ⟨0x01401000 + 0x40000 * q + 0x100 * l + 0x1c, 0, 32, 0⟩

/-! Table 15-8. -/
def TwT.base : Fld := ⟨0x01600000, 2, 5, 0⟩
def TwT.alertAddr : Fld := ⟨0x01600000, 8, 7, 0⟩
def TwT.alertEn : Fld := ⟨0x01600000, 15, 1, 0⟩
def TwT.alertMask : Fld := ⟨0x01600000, 16, 5, 0⟩
def TwT.twStatus : Fld := ⟨0x01600000 + 0x4, 0, 32, 0⟩
def TwT.outptr : Fld := ⟨0x01600000 + 0x8, 0, 8, 0⟩
def TwT.reads : Fld := ⟨0x01600000 + 0x40, 0, 32, 0⟩
def TwT.writes : Fld := ⟨0x01600000 + 0x44, 0, 32, 0⟩
def TwT.shortWrite : Fld := ⟨0x01600000 + 0x48, 0, 32, 0⟩
def TwT.protoErrors : Fld := ⟨0x01600000 + 0x4c, 0, 32, 0⟩
def TwT.alertsSent : Fld := ⟨0x01600000 + 0x50, 0, 32, 0⟩
def TwT.alertArbLost : Fld := ⟨0x01600000 + 0x54, 0, 32, 0⟩
def TwT.alertNack : Fld := ⟨0x01600000 + 0x58, 0, 32, 0⟩
def TwT.writeRo : Fld := ⟨0x01600000 + 0x5c, 0, 32, 0⟩
def TwT.counter (i : Nat) : Fld := ⟨0x01600000 + 0x40 + 4 * i, 0, 32, 0⟩
def TwT.flagCount (i : Nat) : Fld := ⟨0x01600000 + 0x80 + 4 * i, 0, 16, 0⟩

/-! Table 15-9. -/
def TwC.enable (x : Nat) : Fld := ⟨twcBase x, 0, 1, 0⟩
def TwC.multi (x : Nat) : Fld := ⟨twcBase x, 1, 1, 0⟩
def TwC.speed (x : Nat) : Fld := ⟨twcBase x, 2, 2, 0⟩
def TwC.busy (x : Nat) : Fld := ⟨twcBase x, 4, 1, 0⟩
def TwC.tlow (x : Nat) : Fld := ⟨twcBase x + 0x4, 0, 8, 0⟩
def TwC.thigh (x : Nat) : Fld := ⟨twcBase x + 0x4, 8, 8, 0⟩
def TwC.tsuSta (x : Nat) : Fld := ⟨twcBase x + 0x4, 16, 8, 0⟩
def TwC.thdSta (x : Nat) : Fld := ⟨twcBase x + 0x4, 24, 8, 0⟩
def TwC.tsuDat (x : Nat) : Fld := ⟨twcBase x + 0x8, 0, 8, 0⟩
def TwC.thdDat (x : Nat) : Fld := ⟨twcBase x + 0x8, 8, 8, 0⟩
def TwC.tsuSto (x : Nat) : Fld := ⟨twcBase x + 0x8, 16, 8, 0⟩
def TwC.tbuf (x : Nat) : Fld := ⟨twcBase x + 0x8, 24, 8, 0⟩
def TwC.outcome (x : Nat) : Fld := ⟨twcBase x + 0xc, 0, 3, 0⟩
def TwC.segment (x : Nat) : Fld := ⟨twcBase x + 0xc, 3, 3, 0⟩
def TwC.byte (x : Nat) : Fld := ⟨twcBase x + 0xc, 6, 9, 0⟩
def TwC.arbByte (x : Nat) : Fld := ⟨twcBase x + 0x10, 0, 9, 0⟩
def TwC.arbBit (x : Nat) : Fld := ⟨twcBase x + 0x10, 9, 3, 0⟩
def TwC.arbAttempt (x : Nat) : Fld := ⟨twcBase x + 0x10, 12, 4, 0⟩
def TwC.arbLost (x : Nat) : Fld := ⟨twcBase x + 0x14, 0, 1, twcBase x + 0x80⟩
def TwC.nacked (x : Nat) : Fld := ⟨twcBase x + 0x14, 1, 1, twcBase x + 0x84⟩
def TwC.busStuck (x : Nat) : Fld := ⟨twcBase x + 0x14, 2, 1, twcBase x + 0x88⟩
def TwC.arbFailed (x : Nat) : Fld := ⟨twcBase x + 0x14, 3, 1, twcBase x + 0x8c⟩
def TwC.tunLat (x : Nat) : Fld := ⟨twcBase x + 0x18, 0, 24, 0⟩
def TwC.transfers (x : Nat) : Fld := ⟨twcBase x + 0x40, 0, 32, 0⟩
def TwC.arbLosses (x : Nat) : Fld := ⟨twcBase x + 0x44, 0, 32, 0⟩
def TwC.nacks (x : Nat) : Fld := ⟨twcBase x + 0x48, 0, 32, 0⟩
def TwC.stuck (x : Nat) : Fld := ⟨twcBase x + 0x4c, 0, 32, 0⟩
def TwC.failed (x : Nat) : Fld := ⟨twcBase x + 0x50, 0, 32, 0⟩
def TwC.counter (x i : Nat) : Fld := ⟨twcBase x + 0x40 + 4 * i, 0, 32, 0⟩
def TwC.flagCount (x i : Nat) : Fld := ⟨twcBase x + 0x80 + 4 * i, 0, 16, 0⟩

/-! Table 16-5. -/
def Flt.ce : Fld := ⟨0x01701000, 0, 1, 0x01701000 + 0x80⟩
def Flt.ue : Fld := ⟨0x01701000, 1, 1, 0x01701000 + 0x84⟩
def Flt.parity : Fld := ⟨0x01701000, 2, 1, 0x01701000 + 0x88⟩
def Flt.lockstep : Fld := ⟨0x01701000, 3, 1, 0x01701000 + 0x8c⟩
def Flt.ueAddrLo : Fld := ⟨0x01701000 + 0x4, 0, 32, 0⟩
def Flt.ueAddrHi : Fld := ⟨0x01701000 + 0x8, 0, 8, 0⟩
def Flt.content : Fld := ⟨0x01701000 + 0x8, 8, 4, 0⟩
def Flt.syndrome : Fld := ⟨0x01701000 + 0x8, 12, 8, 0⟩
def Flt.patrol : Fld := ⟨0x01701000 + 0x8, 20, 1, 0⟩
def Flt.ueNid : Fld := ⟨0x01701000 + 0xc, 0, 16, 0⟩
def Flt.ceCount : Fld := ⟨0x01701000 + 0x10, 0, 32, 0⟩
def Flt.ueCount : Fld := ⟨0x01701000 + 0x14, 0, 32, 0⟩
def Flt.parityCount : Fld := ⟨0x01701000 + 0x18, 0, 32, 0⟩
def Flt.lockstepCount : Fld := ⟨0x01701000 + 0x1c, 0, 32, 0⟩
def Flt.patrolPasses : Fld := ⟨0x01701000 + 0x20, 0, 32, 0⟩
def Flt.injectKind : Fld := ⟨0x01701000 + 0x30, 0, 3, 0⟩
def Flt.flagCount (i : Nat) : Fld := ⟨0x01701000 + 0x80 + 4 * i, 0, 16, 0⟩

/-! Table 17-3. -/
def Wld.locked : Fld := ⟨0x02020000, 0, 1, 0⟩
def Wld.owned : Fld := ⟨0x02020000, 1, 1, 0⟩
def Wld.default : Fld := ⟨0x02020000, 2, 1, 0⟩
def Wld.twS : Fld := ⟨0x02020000, 3, 1, 0⟩
def Wld.ranges : Fld := ⟨0x02020000, 8, 8, 0⟩
def Wld.pipeSLo : Fld := ⟨0x02020000 + 0x8, 0, 32, 0⟩
def Wld.pipeSHi : Fld := ⟨0x02020000 + 0xc, 0, 32, 0⟩
def Wld.clusterS : Fld := ⟨0x02020000 + 0x10, 0, 8, 0⟩
def Wld.serviceS : Fld := ⟨0x02020000 + 0x10, 8, 8, 0⟩
def Wld.granuleS (i : Nat) : Fld := ⟨0x02020000 + 0x20 + 4 * i, 0, 32, 0⟩
def Wld.policyDigest (i : Nat) : Fld := ⟨0x02020000 + 0x80 + 4 * i, 0, 32, 0⟩
def Wld.rangeBase (r : Nat) : Fld := ⟨0x02020000 + 0x100 + 16 * r, 0, 32, 0⟩
def Wld.rangeCount (r : Nat) : Fld := ⟨0x02020000 + 0x104 + 16 * r, 0, 32, 0⟩

/-! Table 17-13. -/
def Dbg.state : Fld := ⟨0x01800000, 0, 2, 0⟩
def Dbg.fusedClosed : Fld := ⟨0x01800000, 2, 1, 0⟩
def Dbg.keyPresent : Fld := ⟨0x01800000, 3, 1, 0⟩
def Dbg.challengeLive : Fld := ⟨0x01800000, 4, 1, 0⟩
def Dbg.halted : Fld := ⟨0x01800000, 5, 1, 0⟩
def Dbg.everOpened : Fld := ⟨0x01800000, 6, 1, 0⟩
def Dbg.fails : Fld := ⟨0x01800000, 8, 8, 0⟩
def Dbg.lockoutMs : Fld := ⟨0x01800000 + 0x4, 0, 32, 0⟩
def Dbg.opened : Fld := ⟨0x01800000 + 0x8, 0, 1, 0x01800000 + 0x80⟩
def Dbg.unlockFailed : Fld := ⟨0x01800000 + 0x8, 1, 1, 0x01800000 + 0x84⟩
def Dbg.haltSeen : Fld := ⟨0x01800000 + 0x8, 2, 1, 0x01800000 + 0x88⟩
def Dbg.flagCount (i : Nat) : Fld := ⟨0x01800000 + 0x80 + 4 * i, 0, 16, 0⟩
def Dbg.haltReq : Fld := ⟨0x01800000 + 0x100, 0, 1, 0⟩
def Dbg.resume : Fld := ⟨0x01800000 + 0x100, 1, 1, 0⟩
def Dbg.step : Fld := ⟨0x01800000 + 0x100, 2, 1, 0⟩

/-! Table 18-2. -/
def Live.runSlot : Fld := ⟨0x01000300, 0, 1, 0⟩
def Live.swapping : Fld := ⟨0x01000300, 1, 1, 0⟩
def Live.otherRunnable : Fld := ⟨0x01000300, 2, 1, 0⟩
def Live.runIfLevel : Fld := ⟨0x01000300, 8, 8, 0⟩
def Live.runSvn : Fld := ⟨0x01000300, 16, 8, 0⟩
def Live.runBuild : Fld := ⟨0x01000300 + 0x4, 0, 31, 0⟩
def Live.autoSpare : Fld := ⟨0x01000300 + 0x8, 0, 8, 0⟩
def Live.swapPending : Fld := ⟨0x01000300 + 0x8, 8, 8, 0⟩
def Live.lastGapUs : Fld := ⟨0x01000300 + 0xc, 0, 32, 0⟩
def Live.fwSwapped : Fld := ⟨0x01000300 + 0x10, 0, 1, 0x01000300 + 0x80⟩
def Live.fwReverted : Fld := ⟨0x01000300 + 0x10, 1, 1, 0x01000300 + 0x84⟩
def Live.spareSwapped : Fld := ⟨0x01000300 + 0x10, 2, 1, 0x01000300 + 0x88⟩
def Live.autoSpareDone : Fld := ⟨0x01000300 + 0x10, 3, 1, 0x01000300 + 0x8c⟩
def Live.headParked : Fld := ⟨0x01000300 + 0x10, 4, 1, 0x01000300 + 0x90⟩
def Live.flagCount (i : Nat) : Fld := ⟨0x01000300 + 0x80 + 4 * i, 0, 16, 0⟩

/-! Table 18-3. -/
def Swap.swapIndexLo (c : Nat) : Fld := ⟨0x10000000 + 0x01000000 * c + 0x44, 0, 32, 0⟩
def Swap.swapIndexHi (c : Nat) : Fld := ⟨0x10000000 + 0x01000000 * c + 0x48, 0, 16, 0⟩
def Swap.swapFrom (c : Nat) : Fld := ⟨0x10000000 + 0x01000000 * c + 0x4c, 0, 3, 0⟩
def Swap.swapTo (c : Nat) : Fld := ⟨0x10000000 + 0x01000000 * c + 0x4c, 3, 3, 0⟩
def Swap.suspending (c : Nat) : Fld := ⟨0x10000000 + 0x01000000 * c + 0x4c, 6, 1, 0⟩

/-! Table 2-18. -/
def Therm.flagCount (i : Nat) : Fld := ⟨0x01700000 + 0xc0 + 4 * i, 0, 16, 0⟩

/-! Table 4-3. -/
def Mbx.flagCount (a i : Nat) : Fld := ⟨a + 0x808 + 4 * i, 0, 16, 0⟩

/-! Table 13-14. -/
def Car.owner (t : Nat) : Fld := ⟨0x012C0000 + 0x100 + 4 * (t / 4), 8 * (t % 4), 8, 0⟩

end Sys2Proof.Machine.Reg
end

