-- ==== Sys2Proof/Machine/RegMap.lean ====
section
/-! DEFINITION. The register map: for every block of registers of spec/ its base, how often it repeats, and for each of
its words the value at reset, the bits that exist, the W1C bits and the bits the host may write. -/

namespace Sys2Proof.Machine.RegMap

/-- Table 1-8. -/
def blockRole : Block := ⟨0x10000000, [(0x1000000, 8)], [
  ⟨0x40, 0, 1, 0xf, 0xffff0f, 0x0, 0x0⟩]⟩

/-- Table 1-10a. -/
def blockIdent : Block := ⟨0x1000000, [], [
  ⟨0x0, 0, 1, 0x56000000, 0xffffffff, 0x0, 0x0⟩,
  ⟨0x4, 0, 1, 0x0, 0x3ffff, 0x0, 0x0⟩,
  ⟨0x10, 4, 4, 0x0, 0xffffffff, 0x0, 0x0⟩]⟩

/-- Table 2-5. -/
def blockModeReg : Block := ⟨0x1000100, [], [
  ⟨0x0, 0, 1, 0x0, 0xfff7f, 0x0, 0x0⟩]⟩

/-- Table 2-10. -/
def blockDom : Block := ⟨0x0, [], [
  ⟨0x1000200, 0, 1, 0x1, 0xffffffff, 0x0, 0x0⟩,
  ⟨0x1000204, 4, 4, 0x0, 0xffffffff, 0x0, 0x0⟩,
  ⟨0x1000220, 4, 5, 0x0, 0xffffffff, 0x0, 0x0⟩]⟩

/-- Table 2-18. -/
def blockTherm : Block := ⟨0x1700000, [], [
  ⟨0x0, 4, 20, 0x0, 0x7ffff, 0x0, 0x0⟩,
  ⟨0x80, 0, 1, 0x0, 0x3f00ff, 0x3f0000, 0x0⟩,
  ⟨0x84, 0, 1, 0x0, 0x1fffff, 0x0, 0x0⟩,
  ⟨0x88, 0, 1, 0x6e6906, 0xffffff, 0x0, 0x0⟩,
  ⟨0x8c, 0, 1, 0x0, 0xfffff, 0x0, 0x0⟩,
  ⟨0xc0, 4, 6, 0x0, 0xffff, 0x0, 0x0⟩]⟩

/-- Table 3-5. -/
def blockBridge : Block := ⟨0x1300000, [(0x10000, 2)], [
  ⟨0x0, 0, 1, 0x0, 0xff7f, 0x0, 0x0⟩,
  ⟨0x4, 0, 1, 0x0, 0x3f, 0x3f, 0x0⟩,
  ⟨0x8, 0, 1, 0x6, 0x7, 0x0, 0x7⟩,
  ⟨0x10, 0, 1, 0x0, 0xffffffff, 0x0, 0x0⟩,
  ⟨0x14, 0, 1, 0x0, 0xffdfff, 0x0, 0x0⟩,
  ⟨0x20, 0, 1, 0x10000, 0xffffff, 0x0, 0xffffff⟩,
  ⟨0x28, 0, 1, 0x0, 0xfffff000, 0x0, 0xfffff000⟩,
  ⟨0x2c, 0, 1, 0x0, 0xffffffff, 0x0, 0xffffffff⟩,
  ⟨0x40, 0, 1, 0x0, 0xffffffff, 0x0, 0x0⟩,
  ⟨0x44, 0, 1, 0x0, 0xffffffff, 0x0, 0x0⟩,
  ⟨0x48, 0, 1, 0x0, 0xff3f3f, 0x0, 0x0⟩,
  ⟨0x80, 4, 6, 0x0, 0xffff, 0x0, 0x0⟩]⟩

/-- Table 5-5. -/
def blockBootReg : Block := ⟨0x10000001000, [], [
  ⟨0x0, 0, 1, 0x0, 0xfffff, 0x0, 0x0⟩,
  ⟨0x4, 0, 1, 0x0, 0x3f, 0x0, 0x0⟩,
  ⟨0x8, 0, 1, 0x0, 0xffffffff, 0x0, 0x0⟩,
  ⟨0xc, 0, 1, 0x0, 0xffffffff, 0x0, 0x0⟩,
  ⟨0x10, 0, 1, 0x0, 0x3fffff, 0x0, 0x3fffff⟩,
  ⟨0x14, 0, 1, 0x0, 0x1, 0x0, 0x1⟩,
  ⟨0x18, 0, 1, 0x0, 0x3, 0x3, 0x0⟩,
  ⟨0x1c, 0, 1, 0x0, 0x7, 0x0, 0x0⟩,
  ⟨0x20, 4, 2, 0x0, 0xffff, 0x0, 0x0⟩]⟩

/-- Table 6-10. -/
def blockPort : Block := ⟨0x10100000, [(0x1000000, 8), (0x10000, 7)], [
  ⟨0x0, 0, 1, 0x2d4, 0xfff, 0x0, 0x0⟩,
  ⟨0x4, 0, 1, 0x50, 0x1fff, 0x0, 0x0⟩,
  ⟨0x8, 0, 1, 0xe4, 0x1fffff, 0x0, 0x0⟩,
  ⟨0x10, 0, 1, 0x0, 0xff3f, 0x0, 0x0⟩,
  ⟨0x14, 0, 1, 0x0, 0x7f, 0x7f, 0x0⟩,
  ⟨0x18, 0, 1, 0x0, 0xfffff, 0x0, 0x0⟩,
  ⟨0x1c, 0, 1, 0x0, 0xffffff, 0x0, 0x0⟩,
  ⟨0x20, 0, 1, 0x0, 0xfff0fff, 0x0, 0x0⟩,
  ⟨0x40, 4, 11, 0x0, 0xffffffff, 0x0, 0x0⟩,
  ⟨0x80, 4, 7, 0x0, 0xffff, 0x0, 0x0⟩,
  ⟨0x100, 8, 32, 0x0, 0xffffffff, 0x0, 0x0⟩,
  ⟨0x104, 8, 32, 0x0, 0xffffffff, 0x0, 0x0⟩,
  ⟨0x200, 4, 9, 0x0, 0xfff, 0x0, 0x0⟩]⟩

/-- Table 6-11. -/
def blockFramer : Block := ⟨0x20000800, [(0x100000, 64)], [
  ⟨0x0, 0, 1, 0x0, 0x3, 0x0, 0x0⟩,
  ⟨0x4, 0, 1, 0x1, 0x7fff, 0x0, 0x0⟩,
  ⟨0x8, 0, 1, 0x1, 0xffff, 0x0, 0x0⟩,
  ⟨0xc, 0, 1, 0x1000, 0xfffff, 0x0, 0x0⟩,
  ⟨0x10, 0, 1, 0x989680, 0xffffff, 0x0, 0x0⟩,
  ⟨0x40, 4, 11, 0x0, 0xffffffff, 0x0, 0x0⟩]⟩

/-- Table 7-2. -/
def blockEnc : Block := ⟨0x1501000, [(0x100, 4)], [
  ⟨0x0, 0, 1, 0x110, 0xff1f, 0x0, 0x0⟩,
  ⟨0x4, 0, 1, 0xf4240, 0xffffff, 0x0, 0x0⟩,
  ⟨0x8, 0, 1, 0x0, 0xffffffff, 0x0, 0x0⟩,
  ⟨0xc, 0, 1, 0x0, 0xffff, 0x0, 0x0⟩,
  ⟨0x10, 0, 1, 0x0, 0xffffffff, 0x0, 0x0⟩,
  ⟨0x14, 0, 1, 0x0, 0xffffffff, 0x0, 0x0⟩,
  ⟨0x18, 0, 1, 0xffffffff, 0xffffffff, 0x0, 0x0⟩,
  ⟨0x20, 0, 1, 0x0, 0xffffffff, 0x0, 0x0⟩,
  ⟨0x24, 0, 1, 0x0, 0xffff, 0x0, 0x0⟩,
  ⟨0x28, 0, 1, 0x0, 0xffffffff, 0x0, 0x0⟩,
  ⟨0x2c, 0, 1, 0x0, 0xffffffff, 0x0, 0x0⟩,
  ⟨0x30, 0, 1, 0x0, 0xffffffff, 0x0, 0x0⟩,
  ⟨0x34, 0, 1, 0x8000, 0xffff, 0x0, 0x0⟩,
  ⟨0x38, 0, 1, 0xffffffff, 0xffffffff, 0x0, 0x0⟩,
  ⟨0x3c, 0, 1, 0x7fff, 0xffff, 0x0, 0x0⟩,
  ⟨0x40, 0, 1, 0x0, 0xf, 0xf, 0x0⟩,
  ⟨0x44, 0, 1, 0x0, 0xffffffff, 0x0, 0x0⟩,
  ⟨0x80, 4, 4, 0x0, 0xffff, 0x0, 0x0⟩]⟩

/-- Table 7-3. -/
def blockTrig : Block := ⟨0x1510000, [(0x4000, 16)], [
  ⟨0x0, 0, 1, 0x0, 0x3ff, 0x0, 0x0⟩,
  ⟨0x8, 0, 1, 0x0, 0xffffffff, 0x0, 0x0⟩,
  ⟨0xc, 0, 1, 0x1, 0xffffffff, 0x0, 0x0⟩,
  ⟨0x10, 0, 1, 0x0, 0xffffffff, 0x0, 0x0⟩,
  ⟨0x14, 0, 1, 0x0, 0xffffffff, 0x0, 0x0⟩,
  ⟨0x18, 0, 1, 0x3e8, 0xffff, 0x0, 0x0⟩,
  ⟨0x1c, 0, 1, 0x9c4, 0xffffff, 0x0, 0x0⟩,
  ⟨0x20, 0, 1, 0x0, 0xffffffff, 0x0, 0x0⟩,
  ⟨0x24, 0, 1, 0x0, 0xffff, 0x0, 0x0⟩,
  ⟨0x28, 0, 1, 0x0, 0xffffffff, 0x0, 0x0⟩,
  ⟨0x2c, 0, 1, 0x0, 0xffff, 0x0, 0x0⟩,
  ⟨0x30, 0, 1, 0x0, 0xffffffff, 0x0, 0x0⟩,
  ⟨0x38, 0, 1, 0x0, 0xffffffff, 0x0, 0x0⟩,
  ⟨0x3c, 0, 1, 0x0, 0xffffffff, 0x0, 0x0⟩,
  ⟨0x40, 0, 1, 0x0, 0xf, 0xf, 0x0⟩,
  ⟨0x80, 4, 4, 0x0, 0xffff, 0x0, 0x0⟩]⟩

/-- Table 7-5. -/
def blockHead : Block := ⟨0x1512000, [(0x4000, 16), (0x20, 256)], [
  ⟨0x0, 0, 1, 0xac00, 0x7fffff, 0x0, 0x0⟩,
  ⟨0x4, 0, 1, 0x0, 0xffffffff, 0x0, 0x0⟩,
  ⟨0x8, 0, 1, 0x0, 0xffffffff, 0x0, 0x0⟩,
  ⟨0xc, 0, 1, 0xc8, 0xffff, 0x0, 0x0⟩,
  ⟨0x10, 0, 1, 0x0, 0xffffff, 0x0, 0x0⟩,
  ⟨0x14, 0, 1, 0x0, 0xffffff, 0x0, 0x0⟩,
  ⟨0x18, 0, 1, 0x0, 0xffffffff, 0x0, 0x0⟩,
  ⟨0x1c, 0, 1, 0x0, 0xffffffff, 0x0, 0x0⟩]⟩

/-- Table 7-10. -/
def blockTimeReg : Block := ⟨0x1500000, [], [
  ⟨0x0, 0, 1, 0x0, 0xffffffff, 0x0, 0x0⟩,
  ⟨0x4, 0, 1, 0x0, 0xffff, 0x0, 0x0⟩,
  ⟨0x8, 0, 1, 0x0, 0x3fffffff, 0x0, 0x0⟩,
  ⟨0xc, 0, 1, 0x0, 0xffff, 0x0, 0x0⟩,
  ⟨0x10, 0, 1, 0x0, 0xffffffff, 0x0, 0x0⟩,
  ⟨0x14, 0, 1, 0x28, 0xffffffff, 0x0, 0x0⟩,
  ⟨0x18, 0, 1, 0x0, 0xffff001f, 0x0, 0x0⟩,
  ⟨0x20, 0, 1, 0xffffffff, 0xffffffff, 0x0, 0x0⟩,
  ⟨0x24, 0, 1, 0xffff, 0xffff, 0x0, 0x0⟩,
  ⟨0x28, 0, 1, 0x0, 0x3fffffff, 0x0, 0x0⟩,
  ⟨0x30, 0, 1, 0x0, 0xf, 0xf, 0x0⟩,
  ⟨0x40, 4, 4, 0x0, 0xffff, 0x0, 0x0⟩]⟩

/-- Table 7-12. -/
def blockTPort : Block := ⟨0x1560000, [], [
  ⟨0x0, 0, 1, 0x3, 0x7f, 0x0, 0x0⟩,
  ⟨0x4, 0, 1, 0x0, 0xffffffff, 0x0, 0x0⟩,
  ⟨0x8, 0, 1, 0x0, 0xffffffff, 0x0, 0x0⟩,
  ⟨0x10, 4, 5, 0x0, 0xffffffff, 0x0, 0x0⟩]⟩

/-- Table 7-13. -/
def blockPin : Block := ⟨0x1550000, [], [
  ⟨0x0, 4, 32, 0x10, 0xff0f7f, 0x0, 0x0⟩,
  ⟨0x80, 0, 1, 0x989680, 0x3fffffff, 0x0, 0x0⟩,
  ⟨0x100, 4, 33, 0x0, 0x1fffff, 0x0, 0x0⟩]⟩

/-- Table 7-14. -/
def blockPulse : Block := ⟨0x1551000, [(0x40, 16)], [
  ⟨0x0, 0, 1, 0x0, 0x3, 0x0, 0x0⟩,
  ⟨0x4, 0, 1, 0x0, 0xffff, 0x0, 0x0⟩,
  ⟨0x8, 0, 1, 0x0, 0xffffffff, 0x0, 0x0⟩,
  ⟨0xc, 0, 1, 0x0, 0x3fffffff, 0x0, 0x0⟩,
  ⟨0x10, 0, 1, 0x3b9aca00, 0xffffffff, 0x0, 0x0⟩,
  ⟨0x14, 0, 1, 0x0, 0xffffffff, 0x0, 0x0⟩,
  ⟨0x18, 0, 1, 0x64, 0x3fffffff, 0x0, 0x0⟩,
  ⟨0x1c, 0, 1, 0x0, 0xffffffff, 0x0, 0x0⟩]⟩

/-- Table 8-6. -/
def blockCorr : Block := ⟨0x20000000, [(0x100000, 64)], [
  ⟨0x0, 0, 1, 0x0, 0x7ff, 0x0, 0x0⟩,
  ⟨0x4, 0, 1, 0x0, 0xffff, 0x0, 0x0⟩,
  ⟨0x100, 4, 33, 0x0, 0xfffff, 0x0, 0x0⟩,
  ⟨0x200, 4, 33, 0x0, 0xffff, 0x0, 0x0⟩,
  ⟨0x300, 8, 32, 0x0, 0xffffffff, 0x0, 0x0⟩,
  ⟨0x304, 8, 32, 0x0, 0xff, 0x0, 0x0⟩,
  ⟨0x1000, 0, 1, 0x0, 0x1, 0x0, 0x0⟩,
  ⟨0x1004, 4, 2, 0x0, 0xffffffff, 0x0, 0x0⟩,
  ⟨0x1040, 0, 1, 0x0, 0xffffffff, 0x0, 0x0⟩,
  ⟨0x2000, 0, 1, 0x2, 0x7ff000f, 0x0, 0x0⟩,
  ⟨0x2004, 0, 1, 0x1000, 0xffff, 0x0, 0x0⟩,
  ⟨0x2040, 4, 4, 0x0, 0xffffffff, 0x0, 0x0⟩,
  ⟨0x3000, 0, 1, 0x0, 0xff, 0x0, 0x0⟩,
  ⟨0x3010, 0, 1, 0x8, 0x1ffff, 0x0, 0x0⟩,
  ⟨0x3018, 0, 1, 0x0, 0xffffffff, 0x0, 0x0⟩,
  ⟨0x301c, 0, 1, 0x0, 0xffff, 0x0, 0x0⟩,
  ⟨0x3020, 0, 1, 0x0, 0xffffffff, 0x0, 0x0⟩,
  ⟨0x3024, 0, 1, 0x0, 0xffff, 0x0, 0x0⟩,
  ⟨0x3028, 0, 1, 0x0, 0xffffffff, 0x0, 0x0⟩,
  ⟨0x302c, 0, 1, 0x0, 0xffffffff, 0x0, 0x0⟩,
  ⟨0x3030, 0, 1, 0x0, 0x1, 0x1, 0x0⟩,
  ⟨0x3040, 0, 1, 0x0, 0xffffffff, 0x0, 0x0⟩,
  ⟨0x3080, 0, 1, 0x0, 0xffff, 0x0, 0x0⟩,
  ⟨0xa000, 0, 1, 0x0, 0xf, 0x0, 0x0⟩,
  ⟨0xa004, 0, 1, 0x0, 0x1ffff, 0x0, 0x0⟩,
  ⟨0xa008, 0, 1, 0x0, 0x1ffff, 0x0, 0x0⟩,
  ⟨0xa00c, 0, 1, 0x0, 0xffffffff, 0x0, 0x0⟩]⟩

/-- Table 9-7. -/
def blockCol : Block := ⟨0x20000000, [(0x100000, 64)], [
  ⟨0x4000, 0, 1, 0x0, 0x1, 0x0, 0x0⟩,
  ⟨0x4004, 4, 2, 0x10001000, 0xffffffff, 0x0, 0x0⟩,
  ⟨0x4010, 0, 1, 0x0, 0x1, 0x0, 0x0⟩,
  ⟨0x4018, 0, 1, 0x0, 0xffffffff, 0x0, 0x0⟩,
  ⟨0x401c, 0, 1, 0x0, 0xffff, 0x0, 0x0⟩,
  ⟨0x4020, 0, 1, 0x0, 0x1, 0x1, 0x0⟩,
  ⟨0x4040, 0, 1, 0x0, 0xffffffff, 0x0, 0x0⟩,
  ⟨0x4080, 0, 1, 0x0, 0xffff, 0x0, 0x0⟩,
  ⟨0x5000, 0, 1, 0x0, 0x3, 0x0, 0x0⟩,
  ⟨0x5004, 0, 1, 0x100, 0xffff, 0x0, 0x0⟩,
  ⟨0x5008, 0, 1, 0x24, 0xff, 0x0, 0x0⟩,
  ⟨0x500c, 0, 1, 0x0, 0x3f3f3f3f, 0x0, 0x0⟩,
  ⟨0x5040, 0, 1, 0x0, 0xffffffff, 0x0, 0x0⟩,
  ⟨0x6000, 0, 1, 0x1, 0x1, 0x0, 0x0⟩,
  ⟨0x6010, 0, 1, 0x1000, 0xffff, 0x0, 0x0⟩,
  ⟨0x6014, 0, 1, 0x0, 0xffff, 0x0, 0x0⟩,
  ⟨0x6018, 0, 1, 0x0, 0xffff, 0x0, 0x0⟩,
  ⟨0x601c, 0, 1, 0x0, 0xffff, 0x0, 0x0⟩,
  ⟨0x6020, 0, 1, 0x1000, 0xffff, 0x0, 0x0⟩,
  ⟨0x6024, 0, 1, 0x0, 0xffff, 0x0, 0x0⟩,
  ⟨0x6028, 0, 1, 0x0, 0xffff, 0x0, 0x0⟩,
  ⟨0x602c, 0, 1, 0x0, 0xffff, 0x0, 0x0⟩,
  ⟨0x6030, 0, 1, 0x1000, 0xffff, 0x0, 0x0⟩,
  ⟨0x6040, 4, 3, 0x0, 0x1ffff, 0x0, 0x0⟩,
  ⟨0x6050, 0, 1, 0xb717366d, 0xffffffff, 0x0, 0x0⟩,
  ⟨0x6054, 0, 1, 0x127c, 0xffff, 0x0, 0x0⟩,
  ⟨0x6080, 0, 1, 0x0, 0xffffffff, 0x0, 0x0⟩,
  ⟨0x7000, 0, 1, 0x0, 0x1f, 0x0, 0x0⟩,
  ⟨0x7004, 0, 1, 0x0, 0xffff, 0x0, 0x0⟩,
  ⟨0x8000, 0, 1, 0x0, 0xff07, 0x0, 0x0⟩,
  ⟨0x8004, 0, 1, 0x0, 0x1f3f, 0x0, 0x0⟩,
  ⟨0x8008, 0, 1, 0x10040, 0xffff7fff, 0x0, 0x0⟩,
  ⟨0x800c, 0, 1, 0x0, 0xffff3fff, 0x0, 0x0⟩,
  ⟨0x8010, 0, 1, 0xffff, 0xffff, 0x0, 0x0⟩,
  ⟨0x8040, 0, 1, 0x0, 0xffffffff, 0x0, 0x0⟩,
  ⟨0x8044, 0, 1, 0x0, 0xffffffff, 0x0, 0x0⟩]⟩

/-- Table 10-5. -/
def blockScr : Block := ⟨0x20000000, [(0x100000, 64)], [
  ⟨0x9000, 0, 1, 0x2, 0x1f, 0x0, 0x0⟩,
  ⟨0x9004, 0, 1, 0x60101010, 0xffffffff, 0x0, 0x0⟩,
  ⟨0x9008, 0, 1, 0x400040, 0xffffffff, 0x0, 0x0⟩,
  ⟨0x900c, 0, 1, 0x40, 0xffff, 0x0, 0x0⟩,
  ⟨0x9010, 0, 1, 0x0, 0x1fff, 0x0, 0x0⟩,
  ⟨0x9014, 0, 1, 0x0, 0x1, 0x0, 0x0⟩,
  ⟨0x9018, 0, 1, 0x0, 0xffffffff, 0x0, 0x0⟩,
  ⟨0x901c, 0, 1, 0x0, 0xffff, 0x0, 0x0⟩,
  ⟨0x9020, 0, 1, 0x0, 0x3, 0x3, 0x0⟩,
  ⟨0x9040, 4, 7, 0x0, 0xffffffff, 0x0, 0x0⟩,
  ⟨0x9080, 4, 2, 0x0, 0xffff, 0x0, 0x0⟩]⟩

/-- Table 11-6. -/
def blockAsm : Block := ⟨0x1200000, [(0x8000, 16)], [
  ⟨0x0, 0, 1, 0x1000000, 0xffff0003, 0x0, 0x0⟩,
  ⟨0x4, 0, 1, 0x7530, 0xffffffff, 0x0, 0x0⟩,
  ⟨0x8, 0, 1, 0x0, 0xffffff, 0x0, 0x0⟩,
  ⟨0xc, 0, 1, 0x0, 0x3f1fffff, 0x0, 0x0⟩,
  ⟨0x10, 0, 1, 0x0, 0xffffffff, 0x0, 0x0⟩,
  ⟨0x14, 0, 1, 0x0, 0x3ff03ff, 0x0, 0x0⟩,
  ⟨0x18, 0, 1, 0x0, 0xffffffff, 0x0, 0x0⟩,
  ⟨0x20, 0, 1, 0x0, 0x7, 0x7, 0x0⟩,
  ⟨0x24, 0, 1, 0x0, 0x1, 0x0, 0x0⟩,
  ⟨0x28, 0, 1, 0x0, 0xffffffff, 0x0, 0x0⟩,
  ⟨0x2c, 0, 1, 0x0, 0xffff, 0x0, 0x0⟩,
  ⟨0x40, 8, 7, 0x0, 0xffffffff, 0x0, 0x0⟩,
  ⟨0x44, 8, 7, 0x0, 0xffffffff, 0x0, 0x0⟩,
  ⟨0x80, 4, 3, 0x0, 0xffff, 0x0, 0x0⟩]⟩

/-- Table 11-7. -/
def blockGeo : Block := ⟨0x1204000, [(0x8000, 16), (0x40, 256)], [
  ⟨0x0, 0, 1, 0x0, 0x1fffff, 0x0, 0x0⟩,
  ⟨0x4, 0, 1, 0x10000, 0x7fff3fff, 0x0, 0x0⟩,
  ⟨0x8, 0, 1, 0x1, 0x3ffffff, 0x0, 0x0⟩,
  ⟨0x10, 0, 1, 0x0, 0xffffffff, 0x0, 0x0⟩,
  ⟨0x14, 0, 1, 0x1000000, 0xffffffff, 0x0, 0x0⟩,
  ⟨0x18, 0, 1, 0x0, 0xffffffff, 0x0, 0x0⟩,
  ⟨0x1c, 0, 1, 0x0, 0xffffffff, 0x0, 0x0⟩,
  ⟨0x20, 0, 1, 0x10001000, 0xffffffff, 0x0, 0x0⟩,
  ⟨0x24, 0, 1, 0x1000, 0xffff, 0x0, 0x0⟩,
  ⟨0x28, 0, 1, 0x0, 0xffffffff, 0x0, 0x0⟩,
  ⟨0x2c, 0, 1, 0x0, 0xffffffff, 0x0, 0x0⟩,
  ⟨0x30, 0, 1, 0x0, 0xffffffff, 0x0, 0x0⟩]⟩

/-- Table 11-8. -/
def blockSeam : Block := ⟨0x10200000, [(0x1000000, 8)], [
  ⟨0x0, 0, 1, 0x0, 0x1f, 0x0, 0x0⟩,
  ⟨0x4, 0, 1, 0x0, 0xffffffff, 0x0, 0x0⟩,
  ⟨0x10, 0, 1, 0x0, 0x1, 0x1, 0x0⟩,
  ⟨0x40, 4, 4, 0x0, 0xffffffff, 0x0, 0x0⟩,
  ⟨0x80, 0, 1, 0x0, 0xffff, 0x0, 0x0⟩]⟩

/-- Table 12-10. -/
def blockCod : Block := ⟨0x1200100, [(0x8000, 16)], [
  ⟨0x0, 0, 1, 0x20, 0x1ff, 0x0, 0x0⟩,
  ⟨0x4, 0, 1, 0x0, 0xffffff, 0x0, 0x0⟩,
  ⟨0x8, 0, 1, 0x0, 0xffffffff, 0x0, 0x0⟩,
  ⟨0xc, 0, 1, 0x0, 0xffff, 0x0, 0x0⟩,
  ⟨0x10, 0, 1, 0x0, 0x7, 0x7, 0x0⟩,
  ⟨0x40, 8, 5, 0x0, 0xffffffff, 0x0, 0x0⟩,
  ⟨0x44, 8, 5, 0x0, 0xffffffff, 0x0, 0x0⟩,
  ⟨0x80, 4, 3, 0x0, 0xffff, 0x0, 0x0⟩]⟩

/-- Table 12-11. -/
def blockSlice : Block := ⟨0x10300000, [(0x1000000, 8)], [
  ⟨0x0, 0, 1, 0x0, 0x1f, 0x0, 0x0⟩,
  ⟨0x4, 0, 1, 0x0, 0xffffffff, 0x0, 0x0⟩,
  ⟨0x40, 4, 4, 0x0, 0xffffffff, 0x0, 0x0⟩]⟩

/-- Table 12-12. -/
def blockRootCod : Block := ⟨0x1280000, [], [
  ⟨0x0, 0, 1, 0x0, 0x7, 0x7, 0x0⟩,
  ⟨0x40, 8, 6, 0x0, 0xffffffff, 0x0, 0x0⟩,
  ⟨0x44, 8, 6, 0x0, 0xffffffff, 0x0, 0x0⟩,
  ⟨0x80, 4, 3, 0x0, 0xffff, 0x0, 0x0⟩,
  ⟨0x100, 16, 4, 0x0, 0x3, 0x0, 0x0⟩,
  ⟨0x104, 16, 4, 0x0, 0xffffffff, 0x0, 0x0⟩,
  ⟨0x108, 16, 4, 0x0, 0xffffffff, 0x0, 0x0⟩]⟩

/-- Table 13-13. -/
def blockDel : Block := ⟨0x1200200, [(0x8000, 16)], [
  ⟨0x0, 0, 1, 0x0, 0xf, 0x0, 0x0⟩,
  ⟨0x4, 0, 1, 0x0, 0xffffffff, 0x0, 0x0⟩,
  ⟨0x8, 0, 1, 0x0, 0xffffffff, 0x0, 0x0⟩,
  ⟨0xc, 0, 1, 0x0, 0x3ff00ff, 0x0, 0x0⟩,
  ⟨0x10, 0, 1, 0x0, 0xffffff, 0x0, 0x0⟩,
  ⟨0x14, 0, 1, 0x0, 0xffffffff, 0x0, 0x0⟩,
  ⟨0x18, 0, 1, 0x0, 0xf, 0xf, 0x0⟩,
  ⟨0x40, 8, 8, 0x0, 0xffffffff, 0x0, 0x0⟩,
  ⟨0x44, 8, 8, 0x0, 0xffffffff, 0x0, 0x0⟩,
  ⟨0x80, 4, 4, 0x0, 0xffff, 0x0, 0x0⟩]⟩

/-- Table 13-14. -/
def blockCar : Block := ⟨0x12c0000, [], [
  ⟨0x0, 0, 1, 0x0, 0x3ff, 0x0, 0x0⟩,
  ⟨0x4, 0, 1, 0x0, 0xfffff, 0x0, 0x0⟩,
  ⟨0x8, 0, 1, 0x0, 0xffff, 0x0, 0x0⟩,
  ⟨0x100, 8, 32, 0xffffffff, 0xffffffff, 0x0, 0x0⟩,
  ⟨0x104, 8, 32, 0xfeffffff, 0xffffffff, 0x0, 0x0⟩]⟩

/-- Table 14-11. -/
def blockQuad : Block := ⟨0x1400000, [(0x40000, 4)], [
  ⟨0x0, 0, 1, 0xe8, 0x3ff, 0x0, 0x0⟩,
  ⟨0x4, 0, 1, 0x0, 0x7ffff, 0x0, 0x0⟩,
  ⟨0x8, 0, 1, 0x0, 0xffffffff, 0x0, 0x0⟩,
  ⟨0xc, 0, 1, 0x0, 0xffffffff, 0x0, 0x0⟩,
  ⟨0x10, 0, 1, 0x0, 0xffff, 0x0, 0x0⟩,
  ⟨0x14, 0, 1, 0x0, 0xffffffff, 0x0, 0x0⟩,
  ⟨0x18, 0, 1, 0x0, 0xffffffff, 0x0, 0x0⟩,
  ⟨0x20, 0, 1, 0x0, 0x7f, 0x7f, 0x0⟩,
  ⟨0x40, 4, 13, 0x0, 0xffffffff, 0x0, 0x0⟩,
  ⟨0x80, 4, 7, 0x0, 0xffff, 0x0, 0x0⟩]⟩

/-- Table 14-12. -/
def blockLane : Block := ⟨0x1401000, [(0x40000, 4), (0x100, 4)], [
  ⟨0x0, 0, 1, 0x0, 0x1ff, 0x0, 0x0⟩,
  ⟨0x4, 0, 1, 0x0, 0xffffffff, 0x0, 0x0⟩,
  ⟨0x10, 0, 1, 0x0, 0x1f, 0x0, 0x0⟩,
  ⟨0x14, 0, 1, 0x0, 0xffffffff, 0x0, 0x0⟩,
  ⟨0x18, 0, 1, 0x0, 0xffff, 0x0, 0x0⟩,
  ⟨0x1c, 0, 1, 0x0, 0xffffffff, 0x0, 0x0⟩]⟩

/-- Table 15-8. -/
def blockTwT : Block := ⟨0x1600000, [], [
  ⟨0x0, 0, 1, 0x189000, 0x1fff7c, 0x0, 0x0⟩,
  ⟨0x4, 0, 1, 0x0, 0xffffffff, 0x0, 0x0⟩,
  ⟨0x8, 0, 1, 0x0, 0xff, 0x0, 0x0⟩,
  ⟨0x40, 4, 8, 0x0, 0xffffffff, 0x0, 0x0⟩,
  ⟨0x80, 4, 5, 0x0, 0xffff, 0x0, 0x0⟩]⟩

/-- Table 16-5. -/
def blockFlt : Block := ⟨0x1701000, [], [
  ⟨0x0, 0, 1, 0x0, 0xf, 0xf, 0x0⟩,
  ⟨0x4, 0, 1, 0x0, 0xffffffff, 0x0, 0x0⟩,
  ⟨0x8, 0, 1, 0x0, 0x1fffff, 0x0, 0x0⟩,
  ⟨0xc, 0, 1, 0xffff, 0xffff, 0x0, 0x0⟩,
  ⟨0x10, 0, 1, 0x0, 0xffffffff, 0x0, 0x0⟩,
  ⟨0x14, 0, 1, 0x0, 0xffffffff, 0x0, 0x0⟩,
  ⟨0x18, 0, 1, 0x0, 0xffffffff, 0x0, 0x0⟩,
  ⟨0x1c, 0, 1, 0x0, 0xffffffff, 0x0, 0x0⟩,
  ⟨0x20, 0, 1, 0x0, 0xffffffff, 0x0, 0x0⟩,
  ⟨0x30, 0, 1, 0x0, 0x7, 0x0, 0x0⟩,
  ⟨0x80, 4, 4, 0x0, 0xffff, 0x0, 0x0⟩]⟩

/-- Table 17-3. -/
def blockWld : Block := ⟨0x2020000, [], [
  ⟨0x0, 0, 1, 0x0, 0xff0f, 0x0, 0x0⟩,
  ⟨0x8, 0, 1, 0x0, 0xffffffff, 0x0, 0x0⟩,
  ⟨0xc, 0, 1, 0x0, 0xffffffff, 0x0, 0x0⟩,
  ⟨0x10, 0, 1, 0x0, 0xffff, 0x0, 0x0⟩,
  ⟨0x20, 4, 24, 0x0, 0xffffffff, 0x0, 0x0⟩,
  ⟨0x80, 4, 12, 0x0, 0xffffffff, 0x0, 0x0⟩,
  ⟨0x100, 16, 16, 0x0, 0xffffffff, 0x0, 0x0⟩,
  ⟨0x104, 16, 16, 0x0, 0xffffffff, 0x0, 0x0⟩]⟩

/-- Table 17-13. -/
def blockDbg : Block := ⟨0x1800000, [], [
  ⟨0x0, 0, 1, 0x0, 0xff7f, 0x0, 0x0⟩,
  ⟨0x4, 0, 1, 0x0, 0xffffffff, 0x0, 0x0⟩,
  ⟨0x8, 0, 1, 0x0, 0x7, 0x7, 0x0⟩,
  ⟨0x80, 4, 3, 0x0, 0xffff, 0x0, 0x0⟩,
  ⟨0x100, 0, 1, 0x0, 0x7, 0x0, 0x7⟩]⟩

/-- Table 18-2. -/
def blockLive : Block := ⟨0x1000300, [], [
  ⟨0x0, 0, 1, 0x0, 0xffff07, 0x0, 0x0⟩,
  ⟨0x4, 0, 1, 0x0, 0x7fffffff, 0x0, 0x0⟩,
  ⟨0x8, 0, 1, 0x0, 0xffff, 0x0, 0x0⟩,
  ⟨0xc, 0, 1, 0x0, 0xffffffff, 0x0, 0x0⟩,
  ⟨0x10, 0, 1, 0x0, 0x1f, 0x1f, 0x0⟩,
  ⟨0x80, 4, 5, 0x0, 0xffff, 0x0, 0x0⟩]⟩

/-- Table 18-3. -/
def blockSwap : Block := ⟨0x10000000, [(0x1000000, 8)], [
  ⟨0x44, 0, 1, 0x0, 0xffffffff, 0x0, 0x0⟩,
  ⟨0x48, 0, 1, 0x0, 0xffff, 0x0, 0x0⟩,
  ⟨0x4c, 0, 1, 0x0, 0x7f, 0x0, 0x0⟩]⟩

/-- Table 4-3. -/
def blockMbxN : Block := ⟨0x10000004000, [(0x1000, 4)], [
  ⟨0x800, 0, 1, 0x0, 0x0, 0x0, 0x1⟩,
  ⟨0x804, 0, 1, 0x0, 0xff0703, 0x300, 0x0⟩,
  ⟨0x808, 4, 2, 0x0, 0xffff, 0x0, 0x0⟩]⟩

/-- Table 4-3. -/
def blockMbxS : Block := ⟨0x10000014000, [(0x1000, 2)], [
  ⟨0x800, 0, 1, 0x0, 0x0, 0x0, 0x1⟩,
  ⟨0x804, 0, 1, 0x0, 0xff0703, 0x300, 0x0⟩,
  ⟨0x808, 4, 2, 0x0, 0xffff, 0x0, 0x0⟩]⟩

/-- Table 4-16. -/
def blockDPort : Block := ⟨0x10000008000, [(0x10000, 2), (0x40, 2)], [
  ⟨0x0, 0, 1, 0x0, 0xfffffffc, 0x0, 0xfffffffc⟩,
  ⟨0x4, 0, 1, 0x0, 0xff, 0x0, 0xff⟩,
  ⟨0x8, 0, 1, 0x0, 0x307, 0x0, 0x307⟩,
  ⟨0xc, 0, 1, 0x0, 0x7, 0x0, 0x0⟩]⟩

/-- Table 15-9. -/
def blockTwLocal : Block := ⟨0x1601000, [(0x100, 4)], [
  ⟨0x0, 0, 1, 0x2, 0x1f, 0x0, 0x0⟩,
  ⟨0x4, 0, 1, 0x6476697d, 0xffffffff, 0x0, 0x0⟩,
  ⟨0x8, 0, 1, 0x76640807, 0xffffffff, 0x0, 0x0⟩,
  ⟨0xc, 0, 1, 0x0, 0x7fff, 0x0, 0x0⟩,
  ⟨0x10, 0, 1, 0x0, 0xffff, 0x0, 0x0⟩,
  ⟨0x14, 0, 1, 0x0, 0xf, 0xf, 0x0⟩,
  ⟨0x18, 0, 1, 0x0, 0xffffff, 0x0, 0x0⟩,
  ⟨0x40, 4, 5, 0x0, 0xffffffff, 0x0, 0x0⟩,
  ⟨0x80, 4, 4, 0x0, 0xffff, 0x0, 0x0⟩]⟩

/-- Table 15-9. -/
def blockTwTunnel : Block := ⟨0x1604000, [(0x100, 48)], [
  ⟨0x0, 0, 1, 0x2, 0x1f, 0x0, 0x0⟩,
  ⟨0x4, 0, 1, 0x6476697d, 0xffffffff, 0x0, 0x0⟩,
  ⟨0x8, 0, 1, 0x76640807, 0xffffffff, 0x0, 0x0⟩,
  ⟨0xc, 0, 1, 0x0, 0x7fff, 0x0, 0x0⟩,
  ⟨0x10, 0, 1, 0x0, 0xffff, 0x0, 0x0⟩,
  ⟨0x14, 0, 1, 0x0, 0xf, 0xf, 0x0⟩,
  ⟨0x18, 0, 1, 0x0, 0xffffff, 0x0, 0x0⟩,
  ⟨0x40, 4, 5, 0x0, 0xffffffff, 0x0, 0x0⟩,
  ⟨0x80, 4, 4, 0x0, 0xffff, 0x0, 0x0⟩]⟩

/-- Table 13-5. -/
def blockRingData : Block := ⟨0x1320000, [(0x40, 16)], [
  ⟨0x0, 0, 1, 0x4, 0x1f, 0x0, 0x0⟩,
  ⟨0x4, 0, 1, 0x0, 0xffffff, 0x0, 0x0⟩,
  ⟨0x8, 0, 1, 0x0, 0xffffffc0, 0x0, 0x0⟩,
  ⟨0xc, 0, 1, 0x0, 0xffffffff, 0x0, 0x0⟩,
  ⟨0x10, 0, 1, 0x0, 0x1fffff, 0x0, 0x0⟩,
  ⟨0x14, 0, 1, 0x0, 0xffffff, 0x0, 0x0⟩,
  ⟨0x18, 0, 1, 0x0, 0xfffffffc, 0x0, 0x0⟩,
  ⟨0x1c, 0, 1, 0x0, 0xffffffff, 0x0, 0x0⟩,
  ⟨0x20, 0, 1, 0x0, 0xffffffff, 0x0, 0xffffffff⟩,
  ⟨0x24, 0, 1, 0x0, 0xffffffff, 0x0, 0x0⟩,
  ⟨0x28, 0, 1, 0x0, 0x7, 0x7, 0x0⟩,
  ⟨0x2c, 0, 1, 0x0, 0xffffffff, 0x0, 0x0⟩,
  ⟨0x30, 4, 3, 0x0, 0xffff, 0x0, 0x0⟩]⟩

/-- Table 13-5. -/
def blockRingSide : Block := ⟨0x1320400, [(0x40, 16)], [
  ⟨0x0, 0, 1, 0x8, 0x1f, 0x0, 0x0⟩,
  ⟨0x4, 0, 1, 0x40, 0xffffff, 0x0, 0x0⟩,
  ⟨0x8, 0, 1, 0x0, 0xffffffc0, 0x0, 0x0⟩,
  ⟨0xc, 0, 1, 0x0, 0xffffffff, 0x0, 0x0⟩,
  ⟨0x10, 0, 1, 0x0, 0x1fffff, 0x0, 0x0⟩,
  ⟨0x14, 0, 1, 0x0, 0xffffff, 0x0, 0x0⟩,
  ⟨0x18, 0, 1, 0x0, 0xfffffffc, 0x0, 0x0⟩,
  ⟨0x1c, 0, 1, 0x0, 0xffffffff, 0x0, 0x0⟩,
  ⟨0x20, 0, 1, 0x0, 0xffffffff, 0x0, 0xffffffff⟩,
  ⟨0x24, 0, 1, 0x0, 0xffffffff, 0x0, 0x0⟩,
  ⟨0x28, 0, 1, 0x0, 0x7, 0x7, 0x0⟩,
  ⟨0x2c, 0, 1, 0x0, 0xffffffff, 0x0, 0x0⟩,
  ⟨0x30, 4, 3, 0x0, 0xffff, 0x0, 0x0⟩]⟩

/-- Table 13-5. -/
def blockRingEvN : Block := ⟨0x1320800, [(0x40, 1)], [
  ⟨0x0, 0, 1, 0xc, 0x1f, 0x0, 0x0⟩,
  ⟨0x4, 0, 1, 0x20, 0xffffff, 0x0, 0x0⟩,
  ⟨0x8, 0, 1, 0x0, 0xffffffc0, 0x0, 0x0⟩,
  ⟨0xc, 0, 1, 0x0, 0xffffffff, 0x0, 0x0⟩,
  ⟨0x10, 0, 1, 0x0, 0x1fffff, 0x0, 0x0⟩,
  ⟨0x14, 0, 1, 0x0, 0xffffff, 0x0, 0x0⟩,
  ⟨0x18, 0, 1, 0x0, 0xfffffffc, 0x0, 0x0⟩,
  ⟨0x1c, 0, 1, 0x0, 0xffffffff, 0x0, 0x0⟩,
  ⟨0x20, 0, 1, 0x0, 0xffffffff, 0x0, 0xffffffff⟩,
  ⟨0x24, 0, 1, 0x0, 0xffffffff, 0x0, 0x0⟩,
  ⟨0x28, 0, 1, 0x0, 0x7, 0x7, 0x0⟩,
  ⟨0x2c, 0, 1, 0x0, 0xffffffff, 0x0, 0x0⟩,
  ⟨0x30, 4, 3, 0x0, 0xffff, 0x0, 0x0⟩]⟩

/-- Table 13-5. -/
def blockRingEvS : Block := ⟨0x1320840, [(0x40, 1)], [
  ⟨0x0, 0, 1, 0xe, 0x1f, 0x0, 0x0⟩,
  ⟨0x4, 0, 1, 0x20, 0xffffff, 0x0, 0x0⟩,
  ⟨0x8, 0, 1, 0x0, 0xffffffc0, 0x0, 0x0⟩,
  ⟨0xc, 0, 1, 0x0, 0xffffffff, 0x0, 0x0⟩,
  ⟨0x10, 0, 1, 0x0, 0x1fffff, 0x0, 0x0⟩,
  ⟨0x14, 0, 1, 0x0, 0xffffff, 0x0, 0x0⟩,
  ⟨0x18, 0, 1, 0x0, 0xfffffffc, 0x0, 0x0⟩,
  ⟨0x1c, 0, 1, 0x0, 0xffffffff, 0x0, 0x0⟩,
  ⟨0x20, 0, 1, 0x0, 0xffffffff, 0x0, 0xffffffff⟩,
  ⟨0x24, 0, 1, 0x0, 0xffffffff, 0x0, 0x0⟩,
  ⟨0x28, 0, 1, 0x0, 0x7, 0x7, 0x0⟩,
  ⟨0x2c, 0, 1, 0x0, 0xffffffff, 0x0, 0x0⟩,
  ⟨0x30, 4, 3, 0x0, 0xffff, 0x0, 0x0⟩]⟩

/-- Table 13-5. -/
def blockRingSub : Block := ⟨0x1320880, [(0x40, 4)], [
  ⟨0x0, 0, 1, 0x10, 0x1f, 0x0, 0x0⟩,
  ⟨0x4, 0, 1, 0x80, 0xffffff, 0x0, 0x0⟩,
  ⟨0x8, 0, 1, 0x0, 0xffffffc0, 0x0, 0x0⟩,
  ⟨0xc, 0, 1, 0x0, 0xffffffff, 0x0, 0x0⟩,
  ⟨0x10, 0, 1, 0x0, 0x1fffff, 0x0, 0x0⟩,
  ⟨0x14, 0, 1, 0x0, 0xffffff, 0x0, 0x0⟩,
  ⟨0x18, 0, 1, 0x0, 0xfffffffc, 0x0, 0x0⟩,
  ⟨0x1c, 0, 1, 0x0, 0xffffffff, 0x0, 0x0⟩,
  ⟨0x20, 0, 1, 0x0, 0xffffffff, 0x0, 0xffffffff⟩,
  ⟨0x24, 0, 1, 0x0, 0xffffffff, 0x0, 0x0⟩,
  ⟨0x28, 0, 1, 0x0, 0x7, 0x7, 0x0⟩,
  ⟨0x2c, 0, 1, 0x0, 0xffffffff, 0x0, 0x0⟩,
  ⟨0x30, 4, 3, 0x0, 0xffff, 0x0, 0x0⟩]⟩

/-- Table 13-5. -/
def blockRingComp : Block := ⟨0x1320980, [(0x40, 4)], [
  ⟨0x0, 0, 1, 0x14, 0x1f, 0x0, 0x0⟩,
  ⟨0x4, 0, 1, 0x40, 0xffffff, 0x0, 0x0⟩,
  ⟨0x8, 0, 1, 0x0, 0xffffffc0, 0x0, 0x0⟩,
  ⟨0xc, 0, 1, 0x0, 0xffffffff, 0x0, 0x0⟩,
  ⟨0x10, 0, 1, 0x0, 0x1fffff, 0x0, 0x0⟩,
  ⟨0x14, 0, 1, 0x0, 0xffffff, 0x0, 0x0⟩,
  ⟨0x18, 0, 1, 0x0, 0xfffffffc, 0x0, 0x0⟩,
  ⟨0x1c, 0, 1, 0x0, 0xffffffff, 0x0, 0x0⟩,
  ⟨0x20, 0, 1, 0x0, 0xffffffff, 0x0, 0xffffffff⟩,
  ⟨0x24, 0, 1, 0x0, 0xffffffff, 0x0, 0x0⟩,
  ⟨0x28, 0, 1, 0x0, 0x7, 0x7, 0x0⟩,
  ⟨0x2c, 0, 1, 0x0, 0xffffffff, 0x0, 0x0⟩,
  ⟨0x30, 4, 3, 0x0, 0xffff, 0x0, 0x0⟩]⟩

end Sys2Proof.Machine.RegMap
end

