-- ==== Sys2Proof/Machine/Regs.lean ====
section
/-! DEFINITION. Every register word of the block: what it holds at reset, which bits exist, which are W1C and which the host
may write. -/

namespace Sys2Proof.Machine

/-- The key under which the model holds a host-visible word of function fn that has no internal address: mailboxes, data-port
registers, the MSI-X table and the boot status block (which both functions share, fn 0). -/
def hostKey (fn off : Nat) : Nat := 0x10000000000 + 0x10000 * fn + off

/-- The model's place of function fn's status page (16 KiB). -/
def statusPageBase (fn : Nat) : Nat := 0x10001000000 + 0x4000 * fn

/-- The model's place of the prefetch buffer of data port n of function fn (4 KiB). -/
def prefetchBase (fn n : Nat) : Nat := 0x10002000000 + 0x1000 * (2 * fn + n)

/-- The words of a node header that hold state: STATE, WORLD, LATENCY and STATE_TIME (Table 1-5). A stage keeps only its
LATENCY: the rest follows its pipeline (R595). -/
def headerInfo (o : Nat) : Option WordInfo :=
  if o = 4 then some ⟨0, 0x000300FF, 0, 0⟩
  else if o = 16 ∨ o = 32 ∨ o = 36 then some ⟨0, 0xFFFFFFFF, 0, 0⟩
  else if o < 64 then some ⟨0, 0, 0, 0⟩ else none

/-- The blocks of the register tables. -/
def RegMap.all : List Block := [
  RegMap.blockRole, RegMap.blockIdent, RegMap.blockModeReg, RegMap.blockDom, RegMap.blockTherm, RegMap.blockBridge,
  RegMap.blockBootReg, RegMap.blockPort, RegMap.blockFramer, RegMap.blockEnc, RegMap.blockTrig, RegMap.blockHead,
  RegMap.blockTimeReg, RegMap.blockTPort, RegMap.blockPin, RegMap.blockPulse, RegMap.blockCorr, RegMap.blockCol,
  RegMap.blockScr, RegMap.blockAsm, RegMap.blockGeo, RegMap.blockSeam, RegMap.blockCod, RegMap.blockSlice,
  RegMap.blockRootCod, RegMap.blockDel, RegMap.blockCar, RegMap.blockQuad, RegMap.blockLane, RegMap.blockTwT,
  RegMap.blockFlt, RegMap.blockWld, RegMap.blockDbg, RegMap.blockLive, RegMap.blockSwap, RegMap.blockMbxN,
  RegMap.blockMbxS, RegMap.blockDPort, RegMap.blockTwLocal, RegMap.blockTwTunnel, RegMap.blockRingData,
  RegMap.blockRingSide, RegMap.blockRingEvN, RegMap.blockRingEvS, RegMap.blockRingSub, RegMap.blockRingComp]

/-- MSI-X tables (PCIe): address, data, and vector control, whose mask bit is 1 at reset (log entry 5); and the pending bits. -/
def RegMap.msix : List Block := [
  ⟨0x10000003000, [(0x10000, 2)], [⟨0x0, 16, 128, 0, 0xFFFFFFFC, 0, 0xFFFFFFFC⟩, ⟨0x4, 16, 128, 0, 0xFFFFFFFF, 0, 0xFFFFFFFF⟩,
    ⟨0x8, 16, 128, 0, 0xFFFFFFFF, 0, 0xFFFFFFFF⟩, ⟨0xC, 16, 128, 1, 1, 0, 1⟩, ⟨0x800, 4, 4, 0, 0xFFFFFFFF, 0, 0⟩]⟩]

/-- A NID of a local node that is not a stage (Table 1-3). -/
def localNid (n : Nat) : Bool := n < 2 || (0x10 ≤ n && n < 0x18) || (0x100 ≤ n && n < 0x140)

/-- What the register word at an internal or model address is; none where there is no register. -/
def Reg.info (a : Nat) : Option WordInfo :=
  if 0x01100000 ≤ a ∧ a < 0x01110000 then
    if localNid ((a - 0x01100000) / 0x40) then headerInfo ((a - 0x01100000) % 0x40) else none
  else if 0x01110000 ≤ a ∧ a < 0x01120000 then headerInfo ((a - 0x01110000) % 0x40)
  else if 0x01120000 ≤ a ∧ a < 0x01130000 then
    if localNid ((a - 0x01120000) / 0x40) ∧ a % 4 = 0 then some ⟨0, 0xFFFFFFFF, 0, 0⟩ else none
  else if 0x01130000 ≤ a ∧ a < 0x01140000 then
    if a % 4 = 0 then some ⟨0, 0xFFFFFFFF, 0, 0⟩ else none
  else if a = 0x01000000 then some ⟨0x56000000 + Config.vendorId.toNat, 0, 0, 0⟩
  else if 0x01000000 ≤ a ∧ a < 0x01001000 ∧ a % 4 = 0 then
    match Block.findIn RegMap.all a with
    | some i => some i
    | none => some ⟨0, 0, 0, 0⟩
  else if 0x10000003000 ≤ a ∧ a % 0x10000 < 0x4000 ∧ 0x3000 ≤ a % 0x10000 then Block.findIn RegMap.msix a
  else Block.findIn RegMap.all a

/-- The value of a register word at reset. -/
def Reg.rst (a : Nat) : Word := match Reg.info a with | some i => BitVec.ofNat 32 i.rst | none => 0

/-- The bits of a register word that can hold anything other than their reset value. -/
def Reg.mask (a : Nat) : Word := match Reg.info a with | some i => BitVec.ofNat 32 i.mask | none => 0

/-- What a word becomes when v is written to it: bits that do not exist keep their reset value (R11). -/
def Reg.fit (a : Nat) (v : Word) : Word := (v &&& Reg.mask a) ||| (Reg.rst a &&& ~~~ Reg.mask a)

end Sys2Proof.Machine
end

