-- ==== Sys2Proof/Machine/Coder.lean ====
section
/-! DEFINITION. The fixed-ratio row coder: budgets, blocks, encoder, trailer and decoder (R362, R374 to R389). -/

namespace Sys2Proof.Machine

/-- Bits per component and components of a format code of Table 9-2; (0, 0) for a reserved code. -/
def formatOf (code : Nat) : Nat × Nat :=
  match code with
  | 0 => (8, 1) | 1 => (10, 1) | 2 => (12, 1) | 3 => (16, 1)
  | 4 => (8, 3) | 5 => (10, 3) | 6 => (12, 3)
  | 7 => (8, 1) | 8 => (12, 1) | 9 => (16, 1)
  | _ => (0, 0)

/-- num and den of a ratio code (Table 12-1). -/
def ratioOf (code : Nat) : Nat × Nat :=
  match code with | 1 => (4, 3) | 2 => (3, 2) | 3 => (2, 1) | 4 => (3, 1) | _ => (1, 1)

/-- The budget B in bytes (R374). -/
def budgetOf (w n c ratio : Nat) : Nat := 32 * ceilDiv (w * n * c * (ratioOf ratio).2) (256 * (ratioOf ratio).1)

/-- Blocks of a segment. -/
def blocksOf (w c : Nat) : Nat := c * ceilDiv w 32

/-- Does a segment's budget reach the minimum of R375? -/
def segmentOk (w c b : Nat) : Bool := 8 + ceilDiv (5 * blocksOf w c) 8 ≤ b

/-! Bit streams (R377). -/

/-- n bits of a value, least significant first. -/
def putN : Nat → Nat → List Bool
  | 0, _ => []
  | n + 1, v => (v % 2 == 1) :: putN n (v / 2)

def bitsVal : List Bool → Nat
  | [] => 0
  | b :: bs => boolNat b + 2 * bitsVal bs

/-- A bit stream as bytes, the last one padded with zero bits. -/
def bitBytes (bs : List Bool) : List Byte := (chunks 8 bs.length bs).map fun c => BitVec.ofNat 8 (bitsVal c)

def byteBits (bs : List Byte) : List Bool := bs.flatMap fun b => putN 8 b.toNat

/-- Samples of n bits packed (R362). -/
def packBits (n : Nat) (xs : List Nat) : List Byte := bitBytes (xs.flatMap fun x => putN n x)

/-- Columns of components packed: components ascending within a column. -/
def interleave : List (List Nat) → Nat → List Nat
  | comps, w => (List.range w).flatMap fun i => comps.map fun c => c.getD i 0

/-- Samples of n bits unpacked. -/
def unpackBits (n cnt : Nat) (bs : List Byte) : List Nat :=
  (List.range cnt).map fun i => bitsVal (((byteBits bs).drop (i * n)).take n)

/-! Arithmetic (R379 to R381). -/

/-- Reconstruction of a quantized code. -/
def recon (s q : Nat) : Nat := if s = 0 then q else q * 2 ^ s + 2 ^ (s - 1)

/-- The residual code u of a sample against its predictor, in n' bits. -/
def residual (n' q pq : Nat) : Nat :=
  let e := (q + 2 ^ n' - pq % 2 ^ n') % 2 ^ n'
  if e < 2 ^ (n' - 1) then 2 * e else 2 * (2 ^ n' - e) - 1

/-- The length and the bits of a residual code with parameter k. -/
def resLen (n' k u : Nat) : Nat := if u / 2 ^ k < 16 then 1 + u / 2 ^ k + k else 16 + n'
def resBits (n' k u : Nat) : List Bool :=
  if u / 2 ^ k < 16 then List.replicate (u / 2 ^ k) true ++ [false] ++ putN k u else List.replicate 16 true ++ putN n' u

/-- The sample that a residual code gives back. -/
def unresidual (n' u pq : Nat) : Nat :=
  if u % 2 = 0 then (pq + u / 2) % 2 ^ n' else (pq + 2 ^ n' - (u + 1) / 2 % 2 ^ n') % 2 ^ n'

/-! Encoder (R382 to R385). -/

/-- The lowest k of least total length, with that length. -/
def bestK (n' kmax : Nat) (us : List Nat) : Nat × Nat :=
  (List.range (kmax + 1)).foldl (fun best k =>
    let c := (us.map (resLen n' k)).foldl (· + ·) 0
    if c < best.2 then (k, c) else best) (0, (us.map (resLen n' 0)).foldl (· + ·) 0)

/-- One way of coding a block: mode, offset, k, its size in bits and its residuals (or samples for mode 0). -/
structure Choice where
  mode : Nat
  off : Int
  k : Nat
  cost : Nat
  us : List Nat

/-- The reference sample at a clamped column. -/
def refAt (ref : List Nat) (w : Nat) (i : Int) : Nat := ref.getD (sat i 0 (w - 1 : Nat)).toNat 0

/-- Offsets of MODE 3 in order of preference: smallest magnitude first, negative before positive. -/
def offsets (effort : Nat) : List Int :=
  (List.range (match effort with | 1 => 8 | 2 => 32 | 3 => 128 | _ => 0)).flatMap fun d => [-(d + 1 : Nat), (d + 1 : Nat)]

/-- Residuals of a block against predictors. -/
def residuals (n' s : Nat) (xs preds : List Nat) : List Nat :=
  (xs.zip preds).map fun p => residual n' (p.1 / 2 ^ s) (p.2 / 2 ^ s)

/-- The predictors of a block under left prediction: the value before it, then its own reconstructions. -/
def leftPreds (s p0 : Nat) (xs : List Nat) : List Nat := p0 :: xs.map fun x => recon s (x / 2 ^ s)

/-- The cheapest choice for a block at shift s, modes in the order 1, 2, 3, 0. -/
def chooseAt (n s w i0 : Nat) (intra : Bool) (effort p0 : Nat) (xs ref : List Nat) : Choice :=
  let n' := n - s
  let kmax := if n' < 15 then n' else 15
  let mk := fun (mode : Nat) (off : Int) (extra : Nat) (preds : List Nat) =>
    let us := residuals n' s xs preds
    let b := bestK n' kmax us
    (⟨mode, off, b.1, 9 + extra + b.2, us⟩ : Choice)
  let m1 := mk 1 0 0 (leftPreds s p0 xs)
  let at' := fun (d : Int) => (List.range xs.length).map fun j => refAt ref w ((i0 + j : Nat) + d)
  let m2 := if intra then [] else [mk 2 0 0 (at' 0)]
  let m3 := if intra then [] else (offsets effort).map fun d => mk 3 d 9 (at' d)
  let m0 : Choice := ⟨0, 0, 0, 5 + xs.length * n', xs.map fun x => x / 2 ^ s⟩
  (m2 ++ m3 ++ [m0]).foldl (fun best c => if c.cost < best.cost then c else best) m1

/-- What an encoder has after some blocks: bits in reverse order of blocks, bits used, samples so far, the reconstruction of
each component (newest first), quantized blocks, held blocks, the largest shift, and the column blocks that lost precision. -/
structure Enc where
  out : List (List Bool)
  used : Nat
  seen : Nat
  y : List (List Nat)
  lossy : Nat
  held : Nat
  maxShift : Nat
  bad : List Nat

/-- What coding a segment needs to know (R376, R382). -/
structure SegSpec where
  n : Nat
  c : Nat
  w : Nat
  b : Nat
  intra : Bool
  effort : Nat

def SegSpec.bbits (g : SegSpec) : Nat := 8 * (g.b - 8)

/-- The allowance up to block t of cs samples (R383). -/
def SegSpec.share (g : SegSpec) (t cs : Nat) : Nat :=
  5 * (t + 1) + ((g.bbits - 5 * blocksOf g.w g.c) * cs) / (g.w * g.c)

/-- Two's complement of 9 bits. -/
def nine (d : Int) : Nat := unsigned 9 d

def absDiff (a b : Nat) : Nat := if a < b then b - a else a - b

/-- Coding one block: the first shift whose cheapest choice fits, else held (R384, R385). -/
def encodeBlock (g : SegSpec) (t j k : Nat) (xs ref : List Nat) (e : Enc) : Enc :=
  let i0 := 32 * j
  let cs := e.seen + xs.length
  let allow := g.share t cs - e.used
  let ys := e.y.getD k []
  let p0 := match ys with | y :: _ => y | [] => 2 ^ (g.n - 1)
  let put := fun (bs : List Bool) (y : List Nat) (shift heldN : Nat) =>
    { e with
      out := bs :: e.out, used := e.used + bs.length, seen := cs
      y := e.y.set k (y.reverse ++ ys), lossy := e.lossy + (if shift = 0 then 0 else 1), held := e.held + heldN
      maxShift := max e.maxShift shift, bad := if shift = 0 then e.bad else j :: e.bad }
  let tries := (List.range 5).map fun s => (s, chooseAt g.n s g.w i0 g.intra g.effort p0 xs ref)
  match tries.find? fun c => c.2.cost ≤ allow with
  | some (s, c) =>
    let head := putN 2 c.mode ++ putN 3 s
    let body := if c.mode = 0 then c.us.flatMap fun q => putN (g.n - s) q
      else (if c.mode = 3 then putN 9 (nine c.off) else []) ++ putN 4 c.k ++ c.us.flatMap fun u => resBits (g.n - s) c.k u
    put (head ++ body) (xs.map fun x => recon s (x / 2 ^ s)) s 0
  | none =>
    let left := xs.map fun _ => p0
    let up := (List.range xs.length).map fun i => refAt ref g.w (i0 + i : Nat)
    let sum : List Nat → Nat := fun ys => ((xs.zip ys).map fun p => absDiff p.1 p.2).foldl (· + ·) 0
    if g.intra ∨ sum left ≤ sum up then put (putN 2 1 ++ putN 3 7) left 4 1 else put (putN 2 2 ++ putN 3 7) up 4 1

/-- The blocks of a segment in coding order: (t, j, k). -/
def blockOrder (w c : Nat) : List (Nat × Nat × Nat) :=
  (List.range (ceilDiv w 32)).flatMap fun j => (List.range c).map fun k => (j * c + k, j, k)

/-- A coded segment: its bytes, quantized and held blocks, largest shift, the column blocks that lost precision, and the
reconstruction by component. -/
structure Coded where
  bytes : List Byte
  lossy : Nat
  held : Nat
  maxShift : Nat
  bad : List Nat
  y : List (List Nat)
  deriving DecidableEq, Repr

/-- The trailer (Table 12-3, R387). -/
def trailer (rcrc lossy maxShift : Nat) (intra held : Bool) : List Byte :=
  let b := leBytes 4 rcrc ++ leBytes 2 (satNat lossy 0xFFFF) ++ leBytes 1 (maxShift + 8 * boolNat intra + 16 * boolNat held)
  b ++ leBytes 1 (crc linkProfile [] b)

/-- RCRC over a reconstruction. -/
def rcrcOf (n w : Nat) (pre : List Byte) (y : List (List Nat)) : Nat := houseCrc pre (packBits n (interleave y w))

/-- Encoding a segment of component lists against the reference of the previous row. -/
def encodeSegment (g : SegSpec) (pre : List Byte) (xs ref : List (List Nat)) : Coded :=
  let e := (blockOrder g.w g.c).foldl (fun e tjk =>
    encodeBlock g tjk.1 tjk.2.1 tjk.2.2 (((xs.getD tjk.2.2 []).drop (32 * tjk.2.1)).take 32) (ref.getD tjk.2.2 []) e)
    ⟨[], 0, 0, List.replicate g.c [], 0, 0, 0, []⟩
  let y := e.y.map List.reverse
  ⟨slice (bitBytes (e.out.reverse.flatten)) 0 (g.b - 8) ++ trailer (rcrcOf g.n g.w pre y) e.lossy e.maxShift g.intra (e.held ≠ 0),
    e.lossy, e.held, e.maxShift, e.bad, y⟩

/-! Decoder (R389). -/

/-- Outcomes of Table 12-4, worst first. -/
inductive SegOutcome where
  | corrupt
  | unreferenced
  | unverified
  | verified
  deriving DecidableEq, Repr

/-- A decoder: the bits left, the reconstruction by component (newest first), the column blocks that lost precision, and why it
stopped. -/
structure Dec where
  rest : List Bool
  y : List (List Nat)
  bad : List Nat
  stop : Option SegOutcome

/-- Reading n bits; none where they would reach the trailer. -/
def getBits (n : Nat) (bs : List Bool) : Option (Nat × List Bool) :=
  if bs.length < n then none else some (bitsVal (bs.take n), bs.drop n)

/-- A unary count of at most 16. -/
def getUnary : Nat → List Bool → Option (Nat × List Bool)
  | 0, bs => some (0, bs)
  | _ + 1, [] => none
  | _ + 1, false :: bs => some (0, bs)
  | f + 1, true :: bs => match getUnary f bs with | some (n, r) => some (n + 1, r) | none => none

/-- One residual code. -/
def getRes (n' k : Nat) (bs : List Bool) : Option (Nat × List Bool) :=
  match getUnary 16 bs with
  | none => none
  | some (16, r) => getBits n' r
  | some (h, r) => match getBits k r with | some (v, r') => some (h * 2 ^ k + v, r') | none => none

/-- The samples of a block, each from its predictor: `up` gives the reference predictor of a sample, none for left prediction. -/
def getSamples (n s k : Nat) (up : Nat → Option Nat) : Nat → Nat → Nat → List Bool → List Nat → Option (List Nat × List Bool)
  | 0, _, _, bs, acc => some (acc, bs)
  | f + 1, i, prev, bs, acc =>
    match getRes (n - s) k bs with
    | none => none
    | some (u, r) =>
      let p := match up i with | some v => v | none => prev
      let y := recon s (unresidual (n - s) u (p / 2 ^ s))
      getSamples n s k up f (i + 1) y r (y :: acc)

/-- Fixed-width samples of a raw block. -/
def getRaw (m s : Nat) : Nat → List Bool → List Nat → Option (List Nat × List Bool)
  | 0, bs, acc => some (acc, bs)
  | f + 1, bs, acc => match getBits m bs with | some (q, r) => getRaw m s f r (recon s q :: acc) | none => none

/-- Decoding one block of cnt samples. -/
def decodeBlock (g : SegSpec) (ref : Option (List (List Nat))) (j k cnt : Nat) (d : Dec) : Dec :=
  let i0 := 32 * j
  let ys := d.y.getD k []
  let p0 := match ys with | y :: _ => y | [] => 2 ^ (g.n - 1)
  let fail := fun (o : SegOutcome) => { d with stop := some o }
  let rk := (ref.getD []).getD k []
  let put := fun (y : List Nat) (r : List Bool) (s : Nat) =>
    { d with rest := r, y := d.y.set k (y ++ ys), bad := if s = 0 then d.bad else j :: d.bad }
  match d.stop with
  | some _ => d
  | none =>
  match getBits 5 d.rest with
  | none => fail .corrupt
  | some (h, r) =>
    let mode := h % 4
    let s := h / 4
    if s = 5 ∨ s = 6 then fail .corrupt
    else if s = 7 ∧ mode ≠ 1 ∧ mode ≠ 2 then fail .corrupt
    else if 2 ≤ mode ∧ ref.isNone then fail .unreferenced
    else match (if mode = 3 then getBits 9 r else some (0, r)) with
    | none => fail .corrupt
    | some (off, r) =>
      if s = 7 then
        put ((List.range cnt).map fun i => if mode = 1 then p0 else refAt rk g.w (i0 + (cnt - 1 - i) : Nat)) r 4
      else if mode = 0 then
        match getRaw (g.n - s) s cnt r [] with | some (y, r') => put y r' s | none => fail .corrupt
      else match getBits 4 r with
        | none => fail .corrupt
        | some (kk, r) =>
          if (if g.n - s < 15 then g.n - s else 15) < kk then fail .corrupt
          else
            let up := fun i => if mode = 1 then none else some (refAt rk g.w ((i0 + i : Nat) + signed 9 off))
            match getSamples g.n s kk up cnt 0 p0 r [] with | some (y, r') => put y r' s | none => fail .corrupt

/-- Decoding a segment: the outcome, the reconstruction so far, and the column blocks that lost precision. -/
def decodeSegment (g : SegSpec) (pre : List Byte) (ref : Option (List (List Nat))) (bs : List Byte) :
    SegOutcome × List (List Nat) × List Nat :=
  let d := (blockOrder g.w g.c).foldl (fun d tjk =>
    decodeBlock g ref tjk.2.1 tjk.2.2 (if g.w < 32 * tjk.2.1 + 32 then g.w - 32 * tjk.2.1 else 32) d)
    ⟨(byteBits bs).take g.bbits, List.replicate g.c [], [], none⟩
  let y := d.y.map List.reverse
  let tr := slice bs (g.b - 8) 8
  let o := match d.stop with
    | some .unreferenced => SegOutcome.unreferenced
    | some _ => .corrupt
    | none =>
      if crc linkProfile [] (tr.take 7) ≠ leAt tr 7 1 then .unverified
      else if leAt tr 0 4 = rcrcOf g.n g.w pre y then .verified else .corrupt
  (o, y, d.bad)

/-- The worst outcome of a row's segments. -/
def worstOutcome (os : List SegOutcome) : SegOutcome :=
  if os.contains .corrupt then .corrupt else if os.contains .unreferenced then .unreferenced
  else if os.contains .unverified then .unverified else .verified

end Sys2Proof.Machine
end

