-- ==== Sys2Proof/Machine/Seam.lean ====
section
/-! DEFINITION. Pixels of a row: head operations, seams, spans and segments, and the row record's header (R343 to R352, R359 to
R363). -/

namespace Sys2Proof.Machine

/-- A column of a line or row: its fill tag and its components in N-bit codes. -/
structure Col where
  fill : Bool
  v : List Nat
  deriving DecidableEq, Repr

/-- A fill-tagged column of c components. -/
def fillCol (c fill : Nat) : Col := ⟨true, List.replicate c fill⟩

/-! Head operations (R345 to R349). -/

/-- The numerator of a kernel weight for a distance u in 1/256 pixel. -/
def kernelNum (u : Int) : Int :=
  if u < 256 then 16 * u ^ 3 - 7168 * u ^ 2 + 201326592
  else if u < 512 then -7 * u ^ 3 + 9216 * u ^ 2 - 3866624 * u + 503316480
  else if u < 768 then u ^ 3 - 2048 * u ^ 2 + 1376256 * u - 301989888
  else 0

/-- Weight of tap t at phase f, before the middle tap takes the remainder. -/
def kernelRaw (f : Nat) (t : Int) : Int := roundHalfUp (kernelNum (Int.natAbs (256 * t - f))) 12288

/-- w[f][t] of R347. -/
def kernel (f : Nat) (t : Int) : Int :=
  if t = 0 then 16384 - (kernelRaw f (-2) + kernelRaw f (-1) + kernelRaw f 1 + kernelRaw f 2 + kernelRaw f 3) else kernelRaw f t

/-- The coefficients of a head's resampling. -/
structure Warp where
  a0 : Int
  a1 : Int
  a2 : Int
  a3 : Int
  deriving DecidableEq, Repr

/-- p(j) of R346, in 1/256 pixel. -/
def Warp.pos (a : Warp) (j : Nat) : Int :=
  let acc : Int := a.a0 * 2 ^ 48 + a.a1 * 2 ^ 32 * j + a.a2 * 2 ^ 16 * j * j + a.a3 * j * j * j
  (acc + 2 ^ 47) / 2 ^ 48

/-- The cropped line's column at a clamped position. -/
def colAt (src : List Col) (i : Int) : Col := src.getD (sat i 0 ((src.length : Int) - 1)).toNat ⟨true, []⟩

/-- One resampled column of c components of N bits (R348). -/
def resampleCol (src : List Col) (n c : Nat) (p : Int) : Col :=
  let i := p / 256
  let f := (p % 256).toNat
  let taps : List (Int × Col) := [-2, -1, 0, 1, 2, 3].map fun t => (kernel f t, colAt src (i + t))
  ⟨taps.any fun x => x.1 ≠ 0 && x.2.fill,
   (List.range c).map fun k =>
    (sat (((taps.map fun x => x.1 * (x.2.v.getD k 0 : Int)).foldl (· + ·) 0 + 0x2000) / 2 ^ 14) 0 (2 ^ n - 1)).toNat⟩

/-- Match gain of a column (R349). -/
def matchGain (n : Nat) (mg : List Nat) (x : Col) : Col :=
  if x.fill then x
  else ⟨false, (x.v.zip mg).map fun p => satNat ((p.1 * p.2 + 0x800) / 2 ^ 12) (2 ^ n - 1)⟩

/-- The geometry of a head (Table 11-7). -/
structure HeadGeo where
  col0 : Nat
  cropStart : Nat
  cropWidth : Nat
  outWidth : Nat
  resample : Bool
  seam : Bool
  cut : Nat
  warp : Warp
  mg : List Nat
  deriving DecidableEq, Repr

/-- Crop, resampling and match gain, in this order. -/
def headOps (g : HeadGeo) (n c fill : Nat) (line : List Col) : List Col :=
  let src := (List.range g.cropWidth).map fun i => line.getD (g.cropStart + i) (fillCol c fill)
  let out := if g.resample then (List.range g.outWidth).map fun j => resampleCol src n c (g.warp.pos j) else src.take g.outWidth
  out.map (matchGain n g.mg)

/-! Seams (R350 to R352). -/

/-- The cross-fade weight of band column k of L. -/
def fadeWeight (k l : Nat) : Nat := (roundHalfUp ((2 * k + 1) * 256 : Nat) (2 * l)).toNat

/-- One band column from head a and head b; and whether it was rescued from one of them (1 from a, 2 from b, 0 not). -/
def bandCol (fade : Bool) (cut k l : Nat) (a b : Col) : Col × Nat :=
  if a.fill && b.fill then (a, 0)
  else if a.fill then (b, 2)
  else if b.fill then (a, 1)
  else if fade then
    (⟨false, (a.v.zip b.v).map fun p => (p.1 * (256 - fadeWeight k l) + p.2 * fadeWeight k l + 128) / 256⟩, 0)
  else (if k < cut then a else b, 0)

/-- Where a row column lies: in one head's interior, or in the band of a head and the next one (by position among the valid
heads). -/
inductive Place where
  | one (h : Nat)
  | band (a k l : Nat)
  deriving DecidableEq, Repr

/-- The place of every column, from the geometries of the valid heads in order. -/
def placesFrom : Nat → List HeadGeo → List Place
  | _, [] => []
  | i, [g] => (List.replicate g.outWidth (Place.one i))
  | i, g :: h :: rest =>
    let l := g.col0 + g.outWidth - h.col0
    let body := List.replicate (g.outWidth - l) (Place.one i)
    let band := (List.range l).map fun k => Place.band i k l
    -- the next head's left band is already placed
    body ++ band ++ (placesFrom (i + 1) (h :: rest)).drop l

def places (gs : List HeadGeo) : List Place := placesFrom 0 gs

/-- Row width W. -/
def rowWidth (gs : List HeadGeo) : Nat := match gs.getLast? with | some g => g.col0 + g.outWidth | none => 0

/-- The producer of a place (R350): a cluster's NID, or 1 for the root. prod gives a head's cluster NID, 0 for a remote head. -/
def producer (prod : Nat → Nat) : Place → Nat
  | .one h => if prod h = 0 then 1 else prod h
  | .band a _ _ =>
    let x := prod a
    let y := prod (a + 1)
    if x = 0 ∨ y = 0 then 1
    else if x = y then x
    else if (x + 1 - 0x10) % 8 = y - 0x10 ∨ (y + 1 - 0x10) % 8 = x - 0x10 then x
    else 1

/-- Runs of equal producers: (producer, first column, width). -/
def spansOf : List Nat → Nat → List (Nat × Nat × Nat)
  | [], _ => []
  | p :: ps, i =>
    match spansOf ps (i + 1) with
    | (q, f, w) :: rest => if q = p then (p, i, w + 1) :: rest else (p, i, 1) :: (q, f, w) :: rest
    | [] => [(p, i, 1)]

/-- The columns of a row from the slots' lines in head order, and the rescued columns by head. -/
def joinRow (gs : List HeadGeo) (lines : List (List Col)) (c fill : Nat) : List (Col × Nat × Nat) :=
  ((places gs).zip (List.range (places gs).length)).map fun pi =>
    let at' := fun (h : Nat) => ((lines.getD h []).getD (pi.2 - (gs.getD h ⟨0, 0, 0, 0, false, false, 0, ⟨0, 0, 0, 0⟩, []⟩).col0) (fillCol c fill))
    match pi.1 with
    | .one h => (at' h, 0, h)
    | .band a k l =>
      let g := gs.getD a ⟨0, 0, 0, 0, false, false, 0, ⟨0, 0, 0, 0⟩, []⟩
      let r := bandCol g.seam g.cut k l (at' a) (at' (a + 1))
      (r.1, r.2, if r.2 = 2 then a + 1 else a)

/-! Segments and record size (R363). -/

/-- The byte budgets of spans of given widths in a row of W columns and budget B: the bytes left over go to the leftmost. -/
def segmentBudgets (b w : Nat) (widths : List Nat) : List Nat :=
  let base := widths.map fun x => b * x / w
  let left := b - base.foldl (· + ·) 0
  (base.zip (List.range base.length)).map fun p => if p.2 < left then p.1 + 1 else p.1

/-- The padded length of a bypass segment. -/
def bypassBytes (w n c : Nat) : Nat := 32 * ceilDiv (w * n * c) 256

/-- B for a ratio code, bypass included. -/
def rowBudget (w n c ratio : Nat) : Nat := if ratio = 0 then bypassBytes w n c else budgetOf w n c ratio

/-! The header (Table 11-4). -/

structure RowHeader where
  seq : Nat
  stream : Nat
  area : Bool
  flags : Nat
  index : Nat
  format : Nat
  ratio : Nat
  effort : Nat
  position : Int
  time : Nat
  exposureDelta : Nat
  width : Nat
  line : Nat
  marked : Nat
  status : Nat
  segments : Nat
  length : Nat
  lossy : Nat
  maxShift : Nat
  closeDelta : Nat
  deriving DecidableEq, Repr

/-- Bytes 0 to 59, then CHECK (R361). -/
def RowHeader.bytes (h : RowHeader) : List Byte :=
  let b := leBytes 6 h.seq ++ leBytes 1 (h.stream + 16 * boolNat h.area) ++ leBytes 1 h.flags ++ leBytes 6 h.index
    ++ leBytes 1 (h.format + 16 * h.ratio) ++ leBytes 1 h.effort ++ leBytes 8 (unsigned 64 h.position)
    ++ leBytes 6 (h.time / 1000000000) ++ leBytes 4 (h.time % 1000000000) ++ leBytes 4 h.exposureDelta
    ++ leBytes 3 h.width ++ [0] ++ leBytes 2 h.line ++ leBytes 2 h.marked ++ leBytes 1 h.status ++ leBytes 1 h.segments
    ++ leBytes 4 h.length ++ leBytes 3 (satNat h.lossy 0xFFFFFF) ++ leBytes 1 h.maxShift ++ leBytes 4 (satNat h.closeDelta 0xFFFFFFFF)
  b ++ leBytes 4 (houseCrc (leBytes 2 h.stream ++ leBytes 6 h.seq) b)

/-- The payload of a head-status record (Table 11-5). -/
def headStatusPayload (seq index line : Nat) (st : List Nat) : List Byte :=
  leBytes 8 seq ++ leBytes 8 index ++ leBytes 2 line ++ leBytes 2 st.length ++ zeros 4
    ++ padTo 4 (st.map fun x => BitVec.ofNat 8 x)

end Sys2Proof.Machine
end

