-- ==== Sys2Proof/Machine/Pixel.lean ====
section
/-! DEFINITION. The pixel stages 0 to 7 of a pipeline as functions of a line (R270 to R281, R298 to R311). A sample is a
column of one component; fill-tagged samples pass every stage unchanged. -/

namespace Sys2Proof.Machine

/-! Unpacking of CSI-2 payloads (PRESUMED, log entry 9: the byte order inside RAW, RGB and YUV packets is MIPI's). -/

/-- What a data type carries: bits per component, bytes and pixels of a packing group, and the components of a pixel. -/
structure InFmt where
  w : Nat
  bytes : Nat
  pixels : Nat
  comps : Nat
  deriving DecidableEq, Repr

/-- The input format of an image data type (Table 6-4). -/
def inFmt (dt : Nat) : Option InFmt :=
  if dt = 0x2A then some ⟨8, 1, 1, 1⟩ else if dt = 0x2B then some ⟨10, 5, 4, 1⟩ else if dt = 0x2C then some ⟨12, 3, 2, 1⟩
  else if dt = 0x2D then some ⟨14, 7, 4, 1⟩ else if dt = 0x2E then some ⟨16, 2, 1, 1⟩ else if dt = 0x2F then some ⟨20, 5, 2, 1⟩
  else if dt = 0x24 then some ⟨8, 3, 1, 3⟩ else if dt = 0x1E then some ⟨8, 4, 2, 3⟩ else if dt = 0x1F then some ⟨10, 5, 2, 3⟩
  else none

/-- The data type that a user-defined packet is unpacked as (R203). -/
def packDt (pack : Nat) : Nat := 0x2A + (if 4 < pack then 4 else pack)

/-- One packing group as pixels. -/
def unpackGroup (dt : Nat) (g : List Byte) : List (List Nat) :=
  let b := fun i => (g.getD i 0).toNat
  if dt = 0x2A then [[b 0]]
  else if dt = 0x2B then (List.range 4).map fun i => [4 * b i + bits (b 4) (2 * i) 2]
  else if dt = 0x2C then (List.range 2).map fun i => [16 * b i + bits (b 2) (4 * i) 4]
  else if dt = 0x2D then (List.range 4).map fun i => [64 * b i + bits (leVal (g.drop 4)) (6 * i) 6]
  else if dt = 0x2E then [[256 * b 0 + b 1]]
  else if dt = 0x2F then (List.range 2).map fun i =>
    [4096 * b (2 * i) + 1024 * bits (b 4) (4 * i) 2 + 4 * b (2 * i + 1) + bits (b 4) (4 * i + 2) 2]
  else if dt = 0x24 then [[b 2, b 1, b 0]]
  else if dt = 0x1E then [[b 1, b 0, b 2], [b 3, b 0, b 2]]
  else
    let c := fun i => 4 * b i + bits (b 4) (2 * i) 2
    [[c 1, c 0, c 2], [c 3, c 0, c 2]]

/-- The whole pixels of a payload; a group cut short gives none. An odd last YUV pixel takes U and V of its pair (R300). -/
def unpackLine (dt : Nat) (bs : List Byte) : List Col :=
  match inFmt dt with
  | none => []
  | some f =>
    (chunks f.bytes bs.length bs).flatMap fun g =>
      let px := (unpackGroup dt g).map fun v => (⟨false, v⟩ : Col)
      if g.length = f.bytes then px
      else if f.comps = 1 ∧ f.pixels = 1 then []
      else if dt = 0x1E ∧ g.length = 3 then px.take 1
      else []

/-! Configuration of one line's processing. -/

structure PixCfg where
  area : Bool
  pixels : Nat
  lines : Nat
  dt : Nat
  linEn : Bool
  knots : List (Nat × Nat)
  slopes : List Int
  xp : Nat
  yp : Nat
  numCh : Nat
  chMap : Nat
  bl : List Nat
  bypass1 : Bool
  bypass2 : Bool
  staticEn : Bool
  hot : Bool
  cold : Bool
  thresh : Nat
  map : List (Nat × Nat)
  bypass3 : Bool
  sx : Nat
  sy : Nat
  dark : Nat → Int
  gain : Nat → Nat
  grid : Nat → Nat → Nat → Nat
  bypass4 : Bool
  wb : List Nat
  mode : Nat
  edgeT : Nat
  colour : Nat
  delays : List Nat
  bypass6 : Bool
  m : List Int
  off : List Int
  kr : Nat
  kg : Nat
  kb : Nat

def PixCfg.threeIn (c : PixCfg) : Bool := match inFmt c.dt with | some f => f.comps == 3 | none => false

/-- The phase of a position, and its channel (R271). -/
def PixCfg.phase (c : PixCfg) (x y : Nat) : Nat := (y % c.yp) * c.xp + x % c.xp
def PixCfg.ch (c : PixCfg) (x y : Nat) : Nat := bits c.chMap (2 * c.phase x y) 2
/-- 0 R, 1 G, 2 B (R299). -/
def PixCfg.col (c : PixCfg) (x y : Nat) : Nat := bits c.colour (2 * c.ch x y) 2

/-- A line with its column numbers. -/
def numbered {α : Type} (l : List α) : List (α × Nat) := l.zip (List.range l.length)

def sat16 (z : Int) : Nat := (sat z 0 65535).toNat

/-- Column x of a line; fill-tagged outside it. -/
def at1 (l : List Col) (x : Int) : Col := if x < 0 then ⟨true, []⟩ else l.getD x.toNat ⟨true, []⟩

def Col.one (c : Col) : Nat := c.v.headD 0

/-! Stage 0 (R272 to R274). -/

def leftAlign (w x : Nat) : Nat := if w ≤ 16 then x * 2 ^ (16 - w) else if 65535 < (x + 8) / 16 then 65535 else (x + 8) / 16

/-- Segment slope of the linearization table (R274). -/
def knotSlope (a b : Nat × Nat) : Int := roundHalfUp (((b.2 : Int) - a.2) * 65536) (b.1 - a.1)

def linearize (knots : List (Nat × Nat)) (slopes : List Int) (x : Nat) : Nat :=
  let last := knots.getD 32 (0, 0)
  if last.1 ≤ x then last.2
  else
    let i := ((List.range 32).filter fun i => (knots.getD i (0, 0)).1 ≤ x).length - 1
    let k := knots.getD i (0, 0)
    sat16 ((k.2 : Int) + (slopes.getD i 0 * ((x : Int) - k.1) + 0x8000) / 65536)

def PixCfg.stage0 (c : PixCfg) (l : List Col) : List Col :=
  let w := match inFmt c.dt with | some f => f.w | none => 8
  l.map fun p => if p.fill then p
    else ⟨false, p.v.map fun x => if c.linEn && !c.threeIn then linearize c.knots c.slopes x else leftAlign w x⟩

/-! Stage 1 (R275): the line and how many samples clipped. -/

def PixCfg.stage1 (c : PixCfg) (y : Nat) (l : List Col) : List Col × Nat :=
  if c.bypass1 || c.threeIn then (l, 0)
  else
    let t := fun (p : Col × Nat) => (p.1.one : Int) - (c.bl.getD (c.ch p.2 y) 0 : Nat) - c.dark p.2
    ((numbered l).map fun p => if p.1.fill then p.1 else ⟨false, [sat16 (t p)]⟩,
     ((numbered l).filter fun p => !p.1.fill && decide (t p < 0)).length)

/-! Stage 2 (R276 to R278). -/

def insertNat (x : Nat) : List Nat → List Nat
  | [] => [x]
  | y :: ys => if x ≤ y then x :: y :: ys else y :: insertNat x ys
def sortNat (l : List Nat) : List Nat := l.foldr insertNat []

/-- The median of R277 and R325: the middle value, or the rounded mean of the two in the middle. -/
def medianOf (l : List Nat) : Nat :=
  let a := sortNat l
  let n := a.length
  if n % 2 = 1 then a.getD (n / 2) 0 else (a.getD (n / 2 - 1) 0 + a.getD (n / 2) 0 + 1) / 2

/-- Counts of stage 2: STATIC_REPLACED, DYN_HOT, DYN_COLD, and the positions that could not be corrected. -/
structure DefectCount where
  static : Nat
  hot : Nat
  cold : Nat
  bad : List Nat

/-- Valid neighbours of a sample (R276); `rows y` is stage 2's input line y. -/
def PixCfg.neighbours (c : PixCfg) (rows : Nat → List Col) (x y : Nat) : List Nat :=
  let offs : List (Int × Int) := if c.area
    then [(-1, -1), (0, -1), (1, -1), (-1, 0), (1, 0), (-1, 1), (0, 1), (1, 1)]
    else [(-2, 0), (-1, 0), (1, 0), (2, 0)]
  offs.filterMap fun d =>
    let nx := (x : Int) + d.1 * (c.xp : Nat)
    let ny := (y : Int) + d.2 * (c.yp : Nat)
    if nx < 0 ∨ ny < 0 ∨ (c.pixels : Int) ≤ nx ∨ (c.area = true ∧ (c.lines : Int) ≤ ny) then none
    else
      let p := at1 (rows ny.toNat) nx
      if p.fill ∨ (nx.toNat, ny.toNat) ∈ c.map then none else some p.one

/-- One sample: its new value and what it counts as (1 static, 2 hot, 3 cold, 4 uncorrectable). -/
def PixCfg.defect (c : PixCfg) (rows : Nat → List Col) (x y : Nat) (p : Col) : Col × Nat :=
  if p.fill then (p, 0)
  else
    let ns := c.neighbours rows x y
    let n := ns.length
    let a := sortNat ns
    if (x, y) ∈ c.map then
      if !c.staticEn then (p, 0) else if n = 0 then (p, 4) else (⟨false, [medianOf ns]⟩, 1)
    else if n < 2 then (p, 0)
    else if c.hot ∧ (a.getD (if n = 2 then 1 else n - 2) 0) + c.thresh < p.one then (⟨false, [medianOf ns]⟩, 2)
    else if c.cold ∧ p.one + c.thresh < a.getD (if n = 2 then 0 else 1) 0 then (⟨false, [medianOf ns]⟩, 3)
    else (p, 0)

def PixCfg.stage2 (c : PixCfg) (rows : Nat → List Col) (y : Nat) : List Col × DefectCount :=
  if c.bypass2 || c.threeIn then (rows y, ⟨0, 0, 0, []⟩)
  else
    let r := (numbered (rows y)).map fun p => (c.defect rows p.2 y p.1, p.2)
    let cnt := fun k => (r.filter fun q => q.1.2 = k).length
    (r.map fun q => q.1.1, ⟨cnt 1, cnt 2, cnt 3, (r.filter fun q => q.1.2 = 4).map Prod.snd⟩)

/-! Stage 3 (R280, R281). -/

def PixCfg.gainAt (c : PixCfg) (x y : Nat) : Nat :=
  if !c.area then c.gain x
  else
    let ch := c.ch x y
    let i := x / 2 ^ c.sx
    let j := y / 2 ^ c.sy
    let fx := x % 2 ^ c.sx
    let fy := y % 2 ^ c.sy
    let mixX := fun jj => c.grid ch jj i * (2 ^ c.sx - fx) + c.grid ch jj (i + 1) * fx
    let mix := mixX j * (2 ^ c.sy - fy) + mixX (j + 1) * fy
    if c.sx + c.sy = 0 then mix else (mix + 2 ^ (c.sx + c.sy - 1)) / 2 ^ (c.sx + c.sy)

/-- A gain of a fixed-point format applied, and whether the result saturated. -/
def scale (v g sh : Nat) : Nat × Bool :=
  let r := (v * g + 2 ^ (sh - 1)) / 2 ^ sh
  (satNat r 65535, decide (65535 < r))

def PixCfg.stage3 (c : PixCfg) (y : Nat) (l : List Col) : List Col × Nat :=
  if c.bypass3 || c.threeIn then (l, 0)
  else
    ((numbered l).map fun p => if p.1.fill then p.1 else ⟨false, [(scale p.1.one (c.gainAt p.2 y) 14).1]⟩,
     ((numbered l).filter fun p => !p.1.fill && (scale p.1.one (c.gainAt p.2 y) 14).2).length)

/-! Stage 4 (R301). -/

def PixCfg.stage4 (c : PixCfg) (y : Nat) (l : List Col) : List Col × Nat :=
  if c.bypass4 || c.threeIn then (l, 0)
  else
    let g := fun (p : Col × Nat) => scale p.1.one (c.wb.getD (c.ch p.2 y) 0) 12
    ((numbered l).map fun p => if p.1.fill then p.1 else ⟨false, [(g p).1]⟩,
     ((numbered l).filter fun p => !p.1.fill && (g p).2).length)

/-! Stage 5 (R302 to R306). -/

/-- The position of the same phase nearest inside [0, n) (R303). -/
def inside (n per : Nat) (z : Int) : Int :=
  if per = 0 ∨ n = 0 then z
  else if z < 0 then z + (per : Int) * (ceilDiv z.natAbs per : Nat)
  else if (n : Int) ≤ z then z - (per : Int) * (ceilDiv (z.natAbs - (n - 1)) per : Nat)
  else z

/-- Mode 1 at (x, y): rows y gives stage 4's line y. -/
def PixCfg.bayer (c : PixCfg) (rows : Nat → List Col) (x y : Nat) : Col :=
  let p := fun (dx dy : Int) =>
    at1 (rows (inside c.lines c.yp ((y : Int) + dy)).toNat) (inside c.pixels c.xp ((x : Int) + dx))
  let v := fun (dx dy : Int) => ((p dx dy).one : Int)
  let bad := fun (ds : List (Int × Int)) => ds.any fun d => (p d.1 d.2).fill
  let cc := v 0 0
  let lap := fun (a b : Int) => 2 * cc - a - b
  let ab := fun (z : Int) => (z.natAbs : Int)
  let t := (c.edgeT : Int)
  let colOf := c.col x y
  if colOf = 1 then
    let h := c.col (x + 1) y
    if bad [(0, 0), (-1, 0), (1, 0), (-2, 0), (2, 0), (0, -1), (0, 1), (0, -2), (0, 2)] then ⟨true, [0, 0, 0]⟩
    else
      let oh := sat16 (roundHalfUp (2 * (v (-1) 0 + v 1 0) + lap (v (-2) 0) (v 2 0)) 4)
      let ov := sat16 (roundHalfUp (2 * (v 0 (-1) + v 0 1) + lap (v 0 (-2)) (v 0 2)) 4)
      ⟨false, if h = 0 then [oh, cc.toNat, ov] else [ov, cc.toNat, oh]⟩
  else
    if bad [(0, 0), (-1, 0), (1, 0), (-2, 0), (2, 0), (0, -1), (0, 1), (0, -2), (0, 2), (-1, -1), (1, 1), (-2, -2), (2, 2),
        (1, -1), (-1, 1), (2, -2), (-2, 2)] then ⟨true, [0, 0, 0]⟩
    else
      let dh := ab (v (-1) 0 - v 1 0) + ab (lap (v (-2) 0) (v 2 0))
      let dv := ab (v 0 (-1) - v 0 1) + ab (lap (v 0 (-2)) (v 0 2))
      let gh := 2 * (v (-1) 0 + v 1 0) + lap (v (-2) 0) (v 2 0)
      let gv := 2 * (v 0 (-1) + v 0 1) + lap (v 0 (-2)) (v 0 2)
      let g4 := if dh + t < dv then gh else if dv + t < dh then gv else roundHalfUp (gh + gv) 2
      let d1 := ab (v (-1) (-1) - v 1 1) + ab (lap (v (-2) (-2)) (v 2 2))
      let d2 := ab (v 1 (-1) - v (-1) 1) + ab (lap (v 2 (-2)) (v (-2) 2))
      let o1 := 2 * (v (-1) (-1) + v 1 1) + lap (v (-2) (-2)) (v 2 2)
      let o2 := 2 * (v 1 (-1) + v (-1) 1) + lap (v 2 (-2)) (v (-2) 2)
      let o4 := if d1 + t < d2 then o1 else if d2 + t < d1 then o2 else roundHalfUp (o1 + o2) 2
      let g := sat16 (roundHalfUp g4 4)
      let o := sat16 (roundHalfUp o4 4)
      ⟨false, if colOf = 0 then [cc.toNat, g, o] else [o, g, cc.toNat]⟩

/-- Mode 2: the green of pass 1 at a column, none where it reads fill. -/
def PixCfg.green (c : PixCfg) (l : List Col) (x : Int) : Option Int :=
  let n := l.length
  let s := fun (z : Int) => at1 l (inside c.pixels 4 z)
  let v := fun (z : Int) => ((s z).one : Int)
  let ab := fun (z : Int) => (z.natAbs : Int)
  let x' := inside c.pixels 4 x
  if n ≤ x'.toNat then none
  else if c.col x'.toNat 0 = 1 then (if (s x).fill then none else some (v x))
  else if [-4, -3, -1, 0, 1, 3, 4].any fun d => (s (x + d)).fill then none
  else
    let el := ab (v (x - 1) - v (x - 3)) + ab (v x - v (x - 4))
    let er := ab (v (x + 1) - v (x + 3)) + ab (v x - v (x + 4))
    some (if el + c.edgeT < er then v (x - 1) else if er + c.edgeT < el then v (x + 1)
      else roundHalfUp (v (x - 1) + v (x + 1)) 2)

/-- Mode 2 at a column: pass 2. -/
def PixCfg.mosaic (c : PixCfg) (l : List Col) (x : Nat) : Col :=
  let bad : Col := ⟨true, [0, 0, 0]⟩
  let ab := fun (z : Int) => (z.natAbs : Int)
  let colAt := fun (z : Int) => c.col (inside c.pixels 4 z).toNat 0
  let sv := fun (z : Int) => at1 l (inside c.pixels 4 z)
  -- out of one colour C: none where fill is read
  let one := fun (k : Nat) =>
    if colAt x = k then (if (sv x).fill then none else some ((sv x).one : Int))
    else
      let a : Int := match [1, 2, 3].find? (fun a => colAt ((x : Int) - a) = k) with | some a => a | none => 2
      let lx := (x : Int) - a
      let rx := (x : Int) + 4 - a
      match c.green l x, c.green l lx, c.green l rx with
      | some g, some gl, some gr =>
        if (sv lx).fill ∨ (sv rx).fill then none
        else
          let dl := ((sv lx).one : Int) - gl
          let dr := ((sv rx).one : Int) - gr
          let el := ab (g - gl)
          let er := ab (g - gr)
          let d := if el + c.edgeT < er then dl else if er + c.edgeT < el then dr
            else roundHalfUp ((4 - a) * dl + a * dr) 4
          some (sat16 (g + d) : Int)
      | _, _, _ => none
  match one 0, c.green l x, one 2 with
  | some r, some g, some b => ⟨false, [r.toNat, g.toNat, b.toNat]⟩
  | _, _, _ => bad

/-- Mode 3: output line of index n from the stored lines, and whether a component missed its line. -/
def PixCfg.align (c : PixCfg) (stored : Nat → Option (List Col)) (n : Nat) : List Col × Bool :=
  let l := c.xp
  let src := (List.range l).map fun k => let d := c.delays.getD k 0; if n < d then none else stored (n - d)
  let cols := (List.range (c.pixels / (if l = 0 then 1 else l))).map fun j =>
    let s := (List.range l).map fun k => match src.getD k none with | some ln => at1 ln (j * l + k : Nat) | none => ⟨true, []⟩
    let pick := fun (q : Nat) => ((List.range l).filter fun k => c.col k 0 = q).map fun k => s.getD k ⟨true, []⟩
    if s.any Col.fill then (⟨true, [0, 0, 0]⟩ : Col)
    else
      let g := (pick 1).map Col.one
      let gv := match g with | [a] => a | a :: b :: _ => (a + b + 1) / 2 | [] => 0
      ⟨false, [((pick 0).headD ⟨true, []⟩).one, gv, ((pick 2).headD ⟨true, []⟩).one]⟩
  (cols, src.any Option.isNone)

/-! Stage 6 and luma (R308, R309). -/

def PixCfg.stage6 (c : PixCfg) (l : List Col) : List Col × Nat :=
  if c.bypass6 then (l, 0)
  else
    let one := fun (v : List Nat) (i : Nat) =>
      let acc := (List.range 3).foldl (fun a j => a + c.m.getD (3 * i + j) 0 * (v.getD j 0 : Nat)) (0 : Int)
      (acc + 0x800) / 4096 + c.off.getD i 0
    let clip := fun (z : Int) => decide (z < 0) || decide (65535 < z)
    (l.map fun p => if p.fill ∨ p.v.length ≠ 3 then p else ⟨false, (List.range 3).map fun i => sat16 (one p.v i)⟩,
     (l.map fun p => if p.fill ∨ p.v.length ≠ 3 then 0 else ((List.range 3).filter fun i => clip (one p.v i)).length).foldl (· + ·) 0)

def PixCfg.luma (c : PixCfg) (p : Col) : Nat :=
  match p.v with
  | [r, g, b] => sat16 ((c.kr * r + c.kg * g + c.kb * b + 0x8000 : Nat) / 65536 : Int)
  | _ => p.one

/-! Stage 7 (R311). -/

def reduceTo (n v : Nat) : Nat := if n = 16 then v else satNat ((v + 2 ^ (15 - n)) / 2 ^ (16 - n)) (2 ^ n - 1)

/-- The formatter: N-bit components; a fill-tagged pixel takes the fill value. -/
def PixCfg.format (c : PixCfg) (fmt fill : Nat) (l : List Col) : List Col :=
  let nc := formatOf fmt
  l.map fun p =>
    if p.fill then fillCol nc.2 fill
    else if 7 ≤ fmt then ⟨false, [reduceTo nc.1 (c.luma p)]⟩
    else ⟨false, p.v.map (reduceTo nc.1)⟩

/-! A whole line. -/

/-- What processing one line counts: CLIP_LOW, STATIC_REPLACED, DYN_HOT, DYN_COLD, uncorrectable positions, CLIP_HIGH, WB_CLIP,
ALIGN_MISS, MATRIX_CLIP. -/
structure LineCount where
  clipLow : Nat
  defects : DefectCount
  clipHigh : Nat
  wbClip : Nat
  alignMiss : Nat
  matrixClip : Nat

/-- The stages of a line y given the framed lines of its unit: taps 0 and 1, stage 4's line, and the counts so far. -/
def PixCfg.mosaicLine (c : PixCfg) (raw : Nat → List Col) (y : Nat) : List Col × List Col × List Col × LineCount :=
  let s0 := fun y => c.stage0 (raw y)
  let s1 := fun y => (c.stage1 y (s0 y)).1
  let t1 := c.stage2 s1 y
  let t2 := c.stage3 y t1.1
  let t3 := c.stage4 y t2.1
  (s0 y, t1.1, t3.1, ⟨(c.stage1 y (s0 y)).2, t1.2, t2.2, t3.2, 0, 0⟩)

/-- Stage 4's line y alone. -/
def PixCfg.v4 (c : PixCfg) (raw : Nat → List Col) (y : Nat) : List Col :=
  (c.stage4 y (c.stage3 y (c.stage2 (fun y => (c.stage1 y (c.stage0 (raw y))).1) y).1).1).1

/-- Stage 5 of a line, from stage 4's lines and, in mode 3, the stored lines by index. -/
def PixCfg.stage5 (c : PixCfg) (v4 : Nat → List Col) (stored : Nat → Option (List Col)) (n y : Nat) : List Col × Bool :=
  if c.threeIn ∨ c.mode = 0 then (v4 y, false)
  else if c.mode = 1 then ((List.range (v4 y).length).map fun x => c.bayer v4 x y, false)
  else if c.mode = 2 then ((List.range (v4 y).length).map fun x => c.mosaic (v4 y) x, false)
  else c.align stored n

end Sys2Proof.Machine
end

