-- ==== Sys2Proof/Machine/Tiles.lean ====
section
/-! DEFINITION. The deviation screen's tiles and the statistics of a period as functions of lines (R314 to R317, R321 to R334). -/

namespace Sys2Proof.Machine

/-- A line of an open tile row: its luma (none where fill-tagged), its pixels in the stream format, its line mark, and whether it
was measured. -/
structure TileLine where
  luma : List (Option Nat)
  pix : List Col
  mark : Nat
  measured : Bool
  deriving DecidableEq, Repr

/-- The history of a tile column: up to 8 triples, oldest first, and how many valid tiles in a row were flagged and held. -/
structure TileHist where
  past : List (Nat × Nat × Nat)
  held : Nat
  deriving DecidableEq, Repr

def TileHist.reset : TileHist := ⟨[], 0⟩

/-- The floor of a square root of a 32-bit number. -/
def isqrt (v : Nat) : Nat :=
  [15, 14, 13, 12, 11, 10, 9, 8, 7, 6, 5, 4, 3, 2, 1, 0].foldl
    (fun r b => if (r + 2 ^ b) * (r + 2 ^ b) ≤ v then r + 2 ^ b else r) 0

def sumNat (l : List Nat) : Nat := l.foldl (· + ·) 0

/-- The valid pixels of tile column i in each line: (position within the tile, luma). -/
def tileCols (pixels i : Nat) (ls : List (Option TileLine)) : List (List (Option Nat)) :=
  ls.map fun l => match l with
    | some t => if t.measured then ((List.range (if pixels < 64 * i + 64 then pixels - 64 * i else 64)).map fun k => (t.luma.getD (64 * i + k) none)) else []
    | none => []

def pairGap (a b : Option Nat) : Option Nat :=
  match a, b with | some x, some y => some (absDiff x y) | _, _ => none

/-- The features of a tile (R324); none where it is invalid. `span` is how many lines the tile row has. -/
def tileFeatures (pixels i span : Nat) (ls : List (Option TileLine)) : Option (Nat × Nat × Nat) :=
  let rows := tileCols pixels i ls
  let ys := (rows.flatMap fun r => r).filterMap id
  let n := ys.length
  let s := sumNat ys
  let q := sumNat (ys.map fun y => y * y)
  let hor := rows.flatMap fun r => (r.zip (r.drop 1)).filterMap fun p => pairGap p.1 p.2
  let ver := (rows.zip (rows.drop 1)).flatMap fun rr => (rr.1.zip rr.2).filterMap fun p => pairGap p.1 p.2
  let g := sumNat (hor ++ ver)
  let mg := (hor ++ ver).length
  let w := if pixels < 64 * i + 64 then pixels - 64 * i else 64
  if n < (w * span + 1) / 2 ∨ mg = 0 ∨ n = 0 then none
  else
    let var := (roundHalfUp ((n * q - s * s : Nat) : Int) (n * n)).toNat
    some ((roundHalfUp (s : Nat) n).toNat, isqrt var, (roundHalfUp (g : Nat) mg).toNat)

/-- The screen's parameters in use. -/
structure ScreenCfg where
  w : Nat × Nat × Nat
  thresh : Nat
  floors : Nat × Nat × Nat
  hold : Bool
  margin : Nat
  quota : Nat
  cutout : Bool
  suspended : Bool

/-- A scored tile: score, flags of Table 10-2, its features and the medians used. -/
structure Tile where
  score : Nat
  flags : Nat
  f : Nat × Nat × Nat
  med : Nat × Nat × Nat
  deriving DecidableEq, Repr

def devOf (x med mad w floor : Nat) : Nat :=
  satNat (roundHalfUp ((absDiff x med * w : Nat)) (if floor < mad then mad else (if floor = 0 then 1 else floor))).toNat 255

/-- Scoring a tile against its column's history, and the history after it (R325 to R327, R336). -/
def scoreTile (c : ScreenCfg) (f : Option (Nat × Nat × Nat)) (h : TileHist) : Tile × TileHist :=
  if c.suspended then (⟨0, 0, (0, 0, 0), (0, 0, 0)⟩, h)
  else match f with
  | none => (⟨0, 4, (0, 0, 0), (0, 0, 0)⟩, h)
  | some f =>
    let push := fun (l : List (Nat × Nat × Nat)) => (if 8 ≤ l.length then l.drop 1 else l) ++ [f]
    if h.past.length < 8 then (⟨0, 8, f, (0, 0, 0)⟩, ⟨push h.past, 0⟩)
    else
      let sel := fun (g : Nat × Nat × Nat → Nat) => h.past.map g
      let med := fun (g : Nat × Nat × Nat → Nat) => medianOf (sel g)
      let mad := fun (g : Nat × Nat × Nat → Nat) => medianOf ((sel g).map fun v => absDiff v (med g))
      let d0 := devOf f.1 (med (·.1)) (mad (·.1)) c.w.1 c.floors.1
      let d1 := devOf f.2.1 (med (·.2.1)) (mad (·.2.1)) c.w.2.1 c.floors.2.1
      let d2 := devOf f.2.2 (med (·.2.2)) (mad (·.2.2)) c.w.2.2 c.floors.2.2
      let score := max d0 (max d1 d2)
      let flag := decide (c.thresh < score)
      let keep := flag && c.hold && decide (h.held < 8)
      (⟨score, boolNat flag + 16 * boolNat keep, f, (med (·.1), med (·.2.1), med (·.2.2))⟩,
       if keep then ⟨h.past, h.held + 1⟩ else ⟨push h.past, 0⟩)

/-- Selecting tiles for cutouts (R333): flagged tiles by score, then column; each brings its margin. -/
def selectTiles (c : ScreenCfg) (ts : List Tile) : List Nat :=
  let flagged := (numbered ts).filter fun p => p.1.flags % 2 = 1
  let order := (List.range 256).reverse.flatMap fun sc => (flagged.filter fun p => p.1.score = sc).map Prod.snd
  let want := fun (i : Nat) =>
    [(i : Int)] ++ ((List.range c.margin).map fun k => (i : Int) - (k + 1 : Nat)) ++ (List.range c.margin).map fun k => (i : Int) + (k + 1 : Nat)
  order.foldl (fun acc i => (want i).foldl (fun acc z =>
    if z < 0 ∨ (ts.length : Int) ≤ z ∨ acc.contains z.toNat ∨ c.quota ≤ acc.length then acc else acc ++ [z.toNat]) acc) []

/-- Tiles with NOT_CUT and MARGIN marked: a tile chosen first for its own flag is no margin tile. -/
def markTiles (c : ScreenCfg) (ts : List Tile) : List Tile × List Nat :=
  if !c.cutout ∨ c.suspended then (ts, [])
  else
    let sel := selectTiles c ts
    let flagged := (numbered ts).filter fun p => p.1.flags % 2 = 1
    let order := (List.range 256).reverse.flatMap fun sc => (flagged.filter fun p => p.1.score = sc).map Prod.snd
    -- a selected tile is a margin tile unless it was reached as itself before any neighbour reached it
    let own := (order.foldl (fun (acc : List Nat × List Nat) i =>
      let acc' := if acc.1.contains i then acc else (i :: acc.1, i :: acc.2)
      ((List.range c.margin).foldl (fun (l : List Nat) k => (i + k + 1) :: (if k + 1 ≤ i then (i - (k + 1)) :: l else l)) acc'.1, acc'.2))
      ([], [])).2
    ((numbered ts).map fun p =>
      let s := sel.contains p.2
      { p.1 with flags := p.1.flags + (if p.1.flags % 2 = 1 ∧ !s then 2 else 0) + (if s ∧ !own.contains p.2 then 32 else 0) }, sel)

/-- The tile map's payload (Table 10-1). -/
def tileMap (nid port vc cols flags thresh row areaRow lines : Nat) (ts : List Tile) (cut : List Nat) : List Byte :=
  leBytes 2 nid ++ leBytes 1 port ++ leBytes 1 vc ++ leBytes 2 cols ++ leBytes 1 flags ++ leBytes 1 thresh ++ leBytes 8 row
    ++ leBytes 2 areaRow ++ leBytes 2 (ts.filter fun t => t.flags % 2 = 1).length ++ leBytes 2 cut.length ++ leBytes 2 lines ++ zeros 8
    ++ padTo 4 (ts.flatMap fun t => leBytes 1 t.score ++ leBytes 1 t.flags)

/-- A cutout's payload (Table 10-3, R334): header, then 16 lines of 64 pixels. -/
def cutoutPayload (nid port vc col fmt fill row areaRow : Nat) (t : Tile) (ls : List (Option TileLine)) : List Byte :=
  let nc := formatOf fmt
  let mark := fun (l : Option TileLine) => match l with | some x => BitVec.ofNat 8 x.mark | none => (0x40 : Byte)
  let line := fun (l : Option TileLine) => (List.range 64).flatMap fun k =>
    match l with
    | some x => (x.pix.getD (64 * col + k) (fillCol nc.2 fill)).v
    | none => List.replicate nc.2 fill
  leBytes 2 nid ++ leBytes 1 port ++ leBytes 1 vc ++ leBytes 2 col ++ leBytes 1 t.score ++ leBytes 1 t.flags ++ leBytes 8 row
    ++ leBytes 2 areaRow ++ leBytes 1 fmt ++ [0] ++ leBytes 2 t.f.1 ++ leBytes 2 t.f.2.1 ++ leBytes 2 t.f.2.2
    ++ leBytes 2 t.med.1 ++ leBytes 2 t.med.2.1 ++ leBytes 2 t.med.2.2
    ++ (List.range 16).map (fun i => mark (ls.getD i none)) ++ zeros 16
    ++ (List.range 16).flatMap fun i => packBits nc.1 (line (ls.getD i none))

/-! Statistics (R314 to R317). -/

/-- A zone's numbers: COUNT, CLIP, and the sums by component. -/
structure Zone where
  count : Nat
  clip : Nat
  sums : List Nat
  deriving DecidableEq, Repr

/-- The accumulators of a head's open period. -/
structure StatAcc where
  first : Nat
  last : Nat
  lines : Nat
  missed : Nat
  pixels : Nat
  holes : Bool
  hist : List (List Nat)
  zones : List Zone
  deriving DecidableEq, Repr

def StatAcc.empty : StatAcc := ⟨0, 0, 0, 0, 0, false, [], []⟩

/-- The settings of stage 8. -/
structure StatCfg where
  three : Bool
  yEn : Bool
  y1024 : Bool
  numCh : Nat
  zx : Nat
  zy : Nat
  zw : Nat
  zh : Nat
  ox : Nat
  oy : Nat
  clip : Nat
  area : Bool

/-- The components present, by number. -/
def StatCfg.comps (c : StatCfg) : List Nat :=
  if c.three then (if c.yEn then [0, 1, 2, 3] else [0, 1, 2]) else List.range c.numCh

/-- The component whose histogram has 1,024 bins. -/
def StatCfg.wide (c : StatCfg) (k : Nat) : Bool := c.y1024 && (if c.three then k == 3 else c.numCh == 1 && k == 0)

/-- The values a pixel has in each component: on a one-component path only its channel's. -/
def StatCfg.vals (c : StatCfg) (pc : PixCfg) (x y : Nat) (p : Col) : List (Nat × Nat) :=
  if c.three then
    (numbered p.v).map (fun q => (q.2, q.1)) ++ (if c.yEn then [(3, pc.luma p)] else [])
  else [(pc.ch x y, p.one)]

/-- One line into the accumulators. -/
def StatCfg.add (c : StatCfg) (pc : PixCfg) (index y : Nat) (l : List Col) (a : StatAcc) : StatAcc :=
  let px := (numbered l).filter fun p => !p.1.fill
  let vs := px.flatMap fun p => c.vals pc p.2 y p.1
  let hist := (numbered c.comps).map fun k =>
    let sh := if c.wide k.1 then 64 else 256
    let n := if c.wide k.1 then 1024 else 256
    (List.range n).map fun b => (a.hist.getD k.2 []).getD b 0 + (vs.filter fun v => v.1 = k.1 ∧ v.2 / sh = b).length
  let zones := (List.range (c.zx * c.zy)).map fun z =>
    let i := z % c.zx
    let j := z / c.zx
    let inRow := !c.area || (c.oy + j * c.zh ≤ y && y < c.oy + (j + 1) * c.zh)
    let zp := px.filter fun p => inRow && c.ox + i * c.zw ≤ p.2 && p.2 < c.ox + (i + 1) * c.zw
    let old := a.zones.getD z ⟨0, 0, []⟩
    let zv := zp.flatMap fun p => c.vals pc p.2 y p.1
    (⟨old.count + zp.length, old.clip + (zp.filter fun p => p.1.v.any fun v => c.clip ≤ v).length,
      (List.range 4).map fun k => old.sums.getD k 0 + sumNat ((zv.filter fun v => v.1 = k).map Prod.snd)⟩ : Zone)
  { a with
    first := if a.lines = 0 then index else a.first, last := index, lines := a.lines + 1, pixels := a.pixels + px.length,
    hist := hist, zones := zones }

/-- The record's payload (Table 9-5). -/
def StatCfg.payload (c : StatCfg) (nid port vc : Nat) (isPartial : Bool) (a : StatAcc) : List Byte :=
  leBytes 2 nid ++ leBytes 1 port ++ leBytes 1 vc ++ leBytes 1 (boolNat c.area) ++ leBytes 1 (sumNat (c.comps.map fun k => 2 ^ k))
    ++ leBytes 1 c.zx ++ leBytes 1 c.zy ++ leBytes 1 (boolNat (c.comps.any c.wide) + 2 * boolNat isPartial + 4 * boolNat a.holes) ++ zeros 7
    ++ leBytes 8 a.first ++ leBytes 8 a.last ++ leBytes 4 a.lines ++ leBytes 4 a.missed ++ leBytes 8 a.pixels ++ zeros 16
    ++ ((numbered c.comps).flatMap fun k => (List.range (if c.wide k.1 then 1024 else 256)).flatMap fun b => leBytes 4 ((a.hist.getD k.2 []).getD b 0))
    ++ (List.range (c.zx * c.zy)).flatMap fun z =>
        let zn := a.zones.getD z ⟨0, 0, []⟩
        leBytes 4 zn.count ++ leBytes 4 zn.clip
          ++ ((List.range 4).flatMap fun k => leBytes 8 (if c.comps.contains k then zn.sums.getD k 0 else 0)) ++ zeros 8

end Sys2Proof.Machine
end

