-- ==== Sys2Proof/Machine/State.lean ====
section
/-! DEFINITION. The state of the block: plain data. Registers are one canonical sparse table (State.regs) whose unlisted
words hold their reset value; addressed memory is one canonical list of cells; what the manual names without an address
stands in typed fields. -/

namespace Sys2Proof.Machine

/-- The block raises no fault: every access the manual calls wrong has an outcome of its own (R28, R118, R123). -/
inductive Fault where
  deriving DecidableEq, Repr

/-- Why a command has no meaning. -/
inductive Refusal where
  /-- Raised by the dispatch of a command that has no meaning yet; safe: the run stops. -/
  | notModelled (mnemonic : String)
  deriving DecidableEq, Repr

/-- The status of a PCIe completion (Table 3-7, R511). -/
inductive Cpl where
  | success
  | unsupportedRequest
  | completerAbort
  | poisoned
  deriving DecidableEq, Repr

/-- A posted write of the device to host memory (R108, R131): the function it is issued for, the PCIe address, the bytes,
the Relaxed Ordering attribute and the class of Table 1-11. -/
structure HostWrite where
  fn : Nat
  addr : Nat
  data : List Byte
  ro : Bool
  cls : Nat
  deriving DecidableEq, Repr

/-- A packet of a cascade link (Tables 14-4, 14-4a). -/
structure Packet where
  type : Nat
  cls : Nat
  flags : Nat
  src : Nat
  dst : Nat
  aux : Nat
  payload : List Byte
  deriving DecidableEq, Repr

/-- A trigger message (Table 14-6) without its check value. -/
structure TrigMsg where
  tseq : Nat
  stream : Nat
  head : Nat
  dst : Nat
  index : Nat
  seq : Nat
  emitNs : Nat
  deriving DecidableEq, Repr

/-- What leaves the device, newest first in State.out. -/
inductive Out where
  | hostWrite (w : HostWrite)
  | msix (fn vec : Nat)
  | completion (fn : Nat) (status : Cpl) (data : List Byte)
  | hostRead (fn addr len tag : Nat)
  | packet (quad seq : Nat) (p : Packet)
  | initPacket (quad : Nat) (payload : List Byte)
  | link (quad subtype value arg : Nat)
  | timeBlock (quad dir number : Nat)
  | trig (quad : Nat) (t : TrigMsg)
  | idle (quad : Nat)
  | tunnelTrigger (port line : Nat) (polarity : Bool) (stream head index sec ns : Nat)
  | pinTrigger (pin : Nat) (polarity : Bool) (stream head index sec ns : Nat)
  | pin (n level : Nat)
  | ppsOut (level : Bool)
  | timeFrame (bytes : List Byte)
  | twoWireMessage (addr : Nat) (bytes : List Byte)
  | twoWireStart (bus : Nat) (attempt : Nat) (segments : List (List Byte))
  | twoWireRecover (bus pulses : Nat)
  | portReset (port : Nat)
  | latencyEcho (port : Nat)
  | vid (code : Nat)
  | tripN (low : Bool)
  | highZ (pins : Nat)
  | scan (bits : List Bool)
  | uncoreLink (module : Nat) (rate : Nat)
  deriving DecidableEq, Repr

/-- Where a journalled command stands (R134, R154): held under ORDERED, being checked by the members of a group,
waiting for remote answers, pending after 0x01,
or armed at an index of a stream after 0x00. -/
inductive Phase where
  | held
  | probe
  | remote
  | pending
  | armed (stream index : Nat)
  deriving DecidableEq, Repr

/-- A journalled command: mailbox, class and command code, request, phase, order of its take, the node it acts on, the bytes
already written to its result region, how many remote answers it waits for, the worst status among them, whether its response is
written (or no longer due), the time in ns by which it completes, and the answers of members. -/
structure Cmd where
  mb : MbId
  cls : Nat
  code : Nat
  req : Req
  phase : Phase
  seq : Nat
  node : Nat
  result : Nat
  waits : Nat
  status : Nat
  answered : Bool
  due : Nat
  parts : List (List Byte)
  deriving DecidableEq, Repr

/-- The event records of one world (R166 to R168): records held before they are written (without their SEQ), how many were
dropped since the last 'events lost', the next SEQ, and whether the next record carries LOST_BEFORE. -/
structure EvQ where
  held : List (List Byte)
  lost : Nat
  total : Nat
  seq : Nat
  lostBefore : Bool
  deriving DecidableEq, Repr

def EvQ.reset : EvQ := ⟨[], 0, 0, 0, false⟩

/-- A limited event code of a node (R225): when it was last raised, in ms of the time base, and the occurrences since. -/
structure LimitRec where
  cls : Nat
  code : Nat
  nid : Nat
  sub : Nat
  ms : Nat
  count : Nat
  deriving DecidableEq, Repr

/-- The configuration space of a function as far as the manual gives it an effect (R104 to R110). -/
structure PciFn where
  busMaster : Bool
  msixEnable : Bool
  msixMask : Bool
  d3 : Bool
  maxRead : Nat
  other : List (Nat × BitVec 32)
  deriving DecidableEq, Repr

def PciFn.reset : PciFn := ⟨false, false, false, false, 512, []⟩

/-- Why a read of host memory was issued (R128): len bytes of a memory job's descriptor or row, or of a host read through the outbound
window. -/
inductive ReadFor where
  | job (ring len : Nat)
  | window (id off len : Nat)
  deriving DecidableEq, Repr

/-- The host side of the bridge: credits for posted writes, writes that wait for them, outstanding reads by tag, training
attempts that failed in a row and whether a module ever trained, by module. -/
structure HostIf where
  pf0 : PciFn
  pf1 : PciFn
  credit : Nat
  waiting : List HostWrite
  reads : List (Nat × ReadFor)
  fails0 : Nat
  fails1 : Nat
  trained0 : Bool
  trained1 : Bool
  flr0 : Bool
  flr1 : Bool
  discards0 : Nat
  discards1 : Nat
  replayed : List (Nat × Nat × Nat)
  deriving DecidableEq, Repr

def HostIf.reset : HostIf :=
  ⟨PciFn.reset, PciFn.reset, 0, [], [], 0, 0, false, false, false, false, 0, 0, []⟩

/-- The two-wire mailbox's buffers and the target's state on the bus (R488 to R494). -/
structure TwMail where
  state : Nat
  want : Nat
  words : List (BitVec 32)
  resp : List Byte
  lastStatus : Nat
  respReady : Bool
  dbLost : Bool
  alertFail : Bool
  protoErr : Bool
  inTimeout : Bool
  alerts : List Nat
  attempt : Nat
  alertSeq : Nat
  newBase : Option Nat
  deriving DecidableEq, Repr

def TwMail.reset : TwMail := ⟨0, 0, [], [], 0, false, false, false, false, false, [], 0, 0, none⟩

/-- A transfer of a two-wire controller in progress (R497): its segments as given, the attempt, and the mailbox command. -/
structure TwCtl where
  segs : List Byte
  attempt : Nat
  waiting : Bool
  lastRead : List Byte
  deriving DecidableEq, Repr

def TwCtl.reset : TwCtl := ⟨[], 0, false, []⟩

/-- A slot of the firmware store (R532, R551): whether it holds an image, whether that image may run, its header fields, its
length and the digests of its code and policy. -/
structure Slot where
  valid : Bool
  runnable : Bool
  svn : Nat
  ifLevel : Nat
  build : Nat
  len : Nat
  codeDigest : List Byte
  deriving DecidableEq, Repr

def Slot.reset : Slot := ⟨false, false, 0, 0, 0, 0, []⟩

/-- The boot ROM and the control complex: a GO waiting, the image length fetched, restart in progress and its cause, the times
of watchdog expiries in microseconds, the two slots, and when FW_READY fell for the last swap, in microseconds. -/
structure BootSt where
  go : Bool
  imageLen : Nat
  restarting : Bool
  swapStep : Bool
  swapCause : Nat
  expiries : List Nat
  slotA : Slot
  slotB : Slot
  resetUs : Nat
  poweredOn : Bool
  qspiSlot : Nat
  upstream : Option Nat
  logged : List (List Byte)
  downAt : Nat
  deriving DecidableEq, Repr

def BootSt.reset : BootSt := ⟨false, 0, false, false, 0, [], Slot.reset, Slot.reset, 0, false, 0, none, [], 0⟩

/-- The fuses (Table 17-5, R571). -/
structure Fuses where
  form : Bool
  formLevel : Nat
  uid : List Byte
  mac : List Byte
  vendorKeyHash : List Byte
  ownerKeyHash : List Byte
  rollback : Nat
  debugClosed : Bool
  cert : List Byte
  vid : Nat
  deriving DecidableEq, Repr

/-- The die as the reset state takes it: a KD at form level 1, unowned, every other fuse blank (log entry 4). -/
def Fuses.blank : Fuses := ⟨false, 1, [], [], [], [], 0, false, [], 15⟩

/-- A stream tag key slot (R535): the key and the admissions under it since it was loaded. -/
structure KeySlot where
  key : List Byte
  use : Nat
  deriving DecidableEq, Repr

/-- Security and debug: the policy in force, the key slots that hold a key, the live challenge and its number, a signature being
verified, the aclk cycles left of a lockout, domains powered for debug with the node state to return to, breakpoints and trace, the TAP's
instruction, its boundary-scan register, whether that drives the outputs or they are high-impedance, the DAP register, FW_READY before a
halt, and an injected fabric or lockstep error. -/
structure SecSt where
  policy : List Byte
  keys : List (Nat × KeySlot)
  challenge : List Byte
  chalNo : Nat
  verifying : Option (List Byte)
  lockout : Nat
  debugPowered : List (Nat × Nat)
  breakpoints : List Nat
  trace : List Byte
  tapInstr : Nat
  boundary : List Bool
  outputsHeld : Bool
  outputsHighZ : Bool
  dap : Nat
  haltedFwReady : Bool
  injected : Option Nat
  deriving DecidableEq, Repr

def SecSt.reset : SecSt :=
  ⟨[], [], [], 0, none, 0, [], [], [], 2, [], false, false, 0, false, none⟩

/-- The pins and supplies as they stand: supplies outside their limits by index (12 is REFCLK), TRIP_N, the code on VID. -/
structure Elec where
  bad : List Nat
  restored : List (Nat × Nat)
  tripLow : Bool
  vid : Nat
  deriving DecidableEq, Repr

def Elec.reset : Elec := ⟨[], [], false, 15⟩

/-- A member of the group below this device (R17, R18, R468, R478): its device index, parent index, the parent's quad, its depth,
what enumeration learned of it, whether its join is complete, when it left (0 while it is present; its index is held in reserve
otherwise), whether its time is locked, whether it is in Safe-hold, the rate and width its streams were admitted with, and the index
J from which its heads serve each stream. -/
structure Member where
  index : Nat
  parent : Nat
  quad : Nat
  depth : Nat
  uid : List Byte
  form : Bool
  formLevel : Nat
  ifLevel : Nat
  joined : Bool
  leftSeq : Nat
  locked : Bool
  hold : Bool
  need : Nat × Nat
  joinAt : List (Nat × Nat)
  deriving DecidableEq, Repr

/-- A packet sent and not acknowledged: its SEQ, the packet, its retries (R459). -/
structure TxPacket where
  seq : Nat
  pkt : Packet
  retries : Nat
  deriving DecidableEq, Repr

/-- A cascade quad beside its registers: packets waiting for credit, packets sent and not acknowledged, the next SEQ each way, the time
in ns of an outstanding NAK, the packet resent last and when, credit in 64-byte units for classes 1 to 3 and the last cumulative
CREDIT of each, the units this end has freed, trigger messages likewise, both ends' INIT, the link key, the time exchange, echoes,
packets being joined (source, type, bytes so far) and the stream of the side record being sent, whether the link was ever UP, whether a restart is under way, at a satellite's upstream quad
whether it has joined, a running PRBS test, and the devices whose join was refused. -/
structure QuadSt where
  sendQ : List Packet
  unacked : List TxPacket
  txSeq : Nat
  rxSeq : Nat
  nakAt : Option Nat
  resent : Option (Nat × Nat)
  credit1 : Nat
  credit2 : Nat
  credit3 : Nat
  seen1 : Nat
  seen2 : Nat
  seen3 : Nat
  freed1 : Nat
  freed2 : Nat
  freed3 : Nat
  trigUnacked : List (TrigMsg × Nat)
  tseq : Nat
  rxTseq : Nat
  trigNakAt : Option Nat
  trigResent : Option (Nat × Nat)
  peer : InitInfo
  nonce : List Byte
  key : List Byte
  exchange : Nat
  t1 : Int
  t2 : Int
  t3 : Int
  t4 : Int
  goodTimes : Nat
  badTimes : Nat
  echoes : Nat
  parts : List (Nat × Nat × List Byte)
  sideOf : Nat
  everUp : Bool
  restart : Bool
  joined : Bool
  prbsMask : Nat
  refused : List Found
  deriving DecidableEq, Repr

/-- Receive pools of R460 in 64-byte units: 256 KiB, 32 KiB, 32 KiB. -/
def QuadSt.reset : QuadSt where
  sendQ := []
  unacked := []
  txSeq := 0
  rxSeq := 0
  nakAt := none
  resent := none
  credit1 := 4096
  credit2 := 512
  credit3 := 512
  seen1 := 0
  seen2 := 0
  seen3 := 0
  freed1 := 0
  freed2 := 0
  freed3 := 0
  trigUnacked := []
  tseq := 0
  rxTseq := 0
  trigNakAt := none
  trigResent := none
  peer := InitInfo.none
  nonce := []
  key := []
  exchange := 0
  t1 := 0
  t2 := 0
  t3 := 0
  t4 := 0
  goodTimes := 0
  badTimes := 0
  echoes := 0
  parts := []
  sideOf := 0
  everUp := false
  restart := false
  joined := false
  prbsMask := 0
  refused := []

/-- What a control request is for (R470): a mailbox command by its take number, four bytes of a host read by its number and
offset, a host write, the completion of a command that a member answered with 0x01, or something that the root's firmware tells a
member. -/
inductive CtlFor where
  | command (take : Nat)
  | read (id off : Nat)
  | write (fn : Nat) (bar : Nat) (off : Nat)
  | completion (take : Nat)
  | note
  deriving DecidableEq, Repr

/-- A control request of this device that waits for its answer: its tag, the member it went to, and what it is for. -/
structure CtlWait where
  tag : Nat
  member : Nat
  use : CtlFor
  deriving DecidableEq, Repr

/-- A host read that waits for words of remote devices: its number, function, the bytes so far and the answers missing. -/
structure RemoteRead where
  id : Nat
  fn : Nat
  data : List Byte
  waits : Nat
  deriving DecidableEq, Repr

/-- A record in an egress FIFO or on its way to host memory: a row or fast record, or a side record whose sequence and check are
filled in as it leaves (R411, R425); its record sequence, its trigger time in ns, whether it carries a mark, and how many of its
bytes the Carousel has moved. -/
structure EgRec where
  side : Bool
  seq : Nat
  data : List Byte
  trigger : Nat
  marked : Bool
  moved : Nat
  deriving DecidableEq, Repr

/-- What delivery holds of a stream beside its registers (R401 to R443): its world, kind, FORMAT and FILL, declared readout of each
head, the granules of its row store and egress buffer, the egress buffer's size in bytes, σ and AVG, its bound terms, the next
record and side-record sequence, whether side records were discarded just before, the FIFO, records on their way, rows dropped,
delivered and marked, the last sequence delivered, why its guarantee is suspended, the suspensions to lift at the next rotation
boundary, records whose bound was judged, the start time, the cause of a close under way and whether a record waits for ring
space or credits, the declared row rate, and the lead of each satellite in fclk cycles. -/
structure StreamSt where
  worldS : Bool
  fast : Bool
  format : Nat
  fill : Nat
  readouts : List (Nat × Nat)
  rowGranules : List Nat
  egressGranules : List Nat
  egressSize : Nat
  sigma : Nat
  avg : Nat
  terms : List Nat
  seq : Nat
  sideSeq : Nat
  sideLost : Bool
  fifo : List EgRec
  flight : List EgRec
  dropped : Nat
  rows : Nat
  marked : Nat
  lastSeq : Nat
  suspendedBy : List Nat
  lifting : List Nat
  judged : List Nat
  startAt : Option Nat
  closing : Option Nat
  stalled : Bool
  rate : Nat
  leads : List (Nat × Nat)
  deriving DecidableEq, Repr

def StreamSt.reset : StreamSt :=
  ⟨false, false, 0, 0, [], [], [], 0, 0, 0, [], 0, 0, false, [], [], 0, 0, 0, 0, [], [], [], none, none, false, 0, []⟩

/-- Announcing a ring (R421): the index last written to host memory, when the last message went, and whether one is owed at the
end of the holdoff. -/
structure RingSt where
  announced : Nat
  lastMsg : Option Nat
  owed : Bool
  deriving DecidableEq, Repr

def RingSt.reset : RingSt := ⟨0, none, false⟩

/-- Power and modes beside their registers: the wake-source mask and RETAIN of the last SET_MODE (Standby), a wake source that
fired during entry, wake policies that are not 0xFF by pipeline, policies firmware resolved at admission, the cluster idle times in
µs that are not 1,000, the sleep or wake under way of a pipeline, an orderly stop
under way, whether a fault of a block still stands, whether REFCLK is lost,
whether both UCIe modules are, the nodes whose BIST firmware runs by itself, the throttle steps in effect (the
step itself for jobs and idle cycles; step + 16 × (stream + 1) for a step on a stream), and the clusters whose PLL runs. A sleep under way: 1 powering down, 3 the same with a wake waiting, 4 waking. -/
structure PwrSt where
  wakeMask : Nat
  retain : Bool
  wakeNext : Option Nat
  policies : List (Nat × Nat)
  resolved : List (Nat × Nat)
  idleUs : List (Nat × Nat)
  sleeping : List (Nat × Nat)
  stopping : Bool
  faultLive : Bool
  refclkLost : Bool
  linkLost : Bool
  bist : List Nat
  inEffect : List Nat
  plls : List Nat
  deriving DecidableEq, Repr

def PwrSt.reset : PwrSt := ⟨0, true, none, [], [], [], [], false, false, false, false, [], [], []⟩

/-- A sensor beside its registers: samples in a row out of and within 10 °C of its neighbours' median, the trip count, its readings
of the last 250 ms (newest first), and samples since its rise was last at the limit. -/
structure SensorSt where
  off : Nat
  within : Nat
  trip : Nat
  history : List Int
  quiet : Nat
  deriving DecidableEq, Repr

def SensorSt.reset : SensorSt := ⟨0, 0, 0, [], 0⟩

/-- The time base beside its registers: the lower 16 bits of its fraction, whether the alarm is armed, a slew's saved ADDEND, the
time of the last PPS_IN edge, and the settings of PTP_CONFIG with what announce messages gave. -/
structure TimeSt where
  low : Nat
  alarmArmed : Bool
  slew : Option (Nat × Nat)
  ppsIn : Option Nat
  captures : List (Nat × List (List Byte))
  pulses : List (Nat × Nat)
  pulseHigh : List Nat
  wakePins : List Nat
  deriving DecidableEq, Repr

def TimeSt.reset : TimeSt := ⟨0, false, none, none, [], [], [], []⟩

/-- PTP (Table 7-11): the settings of PTP_CONFIG, the parent port, the grandmaster and the parent's data set, the next sequence numbers,
and the times of the exchange in progress. -/
structure PtpSt where
  role : Nat
  rate : Nat
  transport : Nat
  peer : Bool
  domain : Nat
  intervals : Nat
  clock : Nat
  asym : Int
  oneStep : Bool
  ipv4 : Nat
  mac : List Byte
  vlan : Nat
  threshold : Nat
  parent : List Byte
  grandmaster : List Byte
  best : List Byte
  syncSeq : Nat
  annSeq : Nat
  delaySeq : Nat
  t1 : Option Int
  t2 : Option Int
  t3 : Option Int
  correction : Int
  twoStepSeq : Option Nat
  deriving DecidableEq, Repr

def PtpSt.reset : PtpSt :=
  ⟨0, 1, 0, false, 0, 0, 0, 0, false, 0, [], 0, 1000000, zeros10, zeros8, [], 0, 0, 0, none, none, none, 0, none⟩
where
  zeros10 : List Byte := List.replicate 10 0
  zeros8 : List Byte := List.replicate 8 0

/-- An encoder channel beside its registers: the accepted levels of A, B and I, and the time of the last forward count while an
unbroken run of them lasts. -/
structure EncSt where
  ab : Nat
  idx : Bool
  lastFwd : Option Nat
  deriving DecidableEq, Repr

def EncSt.reset : EncSt := ⟨0, false, none⟩

/-! The data path (chapters 6 to 12). -/

/-- An item of a port queue: a long packet or a short packet. kind: 0 long, 1 line start, 2 line end, 3 frame start, 4 frame end.
vc, dt and time are its virtual channel, data type and capture time in ns; data is what is left of its payload; bad marks a header
taken from the reference packet, crcOk the long-packet CRC, cut a unit cut short by overflow, taken that its header has been
taken. -/
structure QItem where
  kind : Nat
  vc : Nat
  dt : Nat
  time : Nat
  data : List Byte
  bad : Bool
  crcOk : Bool
  cut : Bool
  taken : Bool
  deriving DecidableEq, Repr

/-- A port beside its registers: its nine queues, what is being discarded (queue q until a frame start, 0x100 + 32q + VC to a frame end), the reference packet (VC, DT),
start-up attempts that failed, embedded data collected by VC (pipeline, truncated, bytes),
the index of the last line or frame start bound by VC, and whether its link has been lost since it last locked. -/
structure PortSt where
  queues : List (Nat × List QItem)
  dropping : List Nat
  ref : Option (Nat × Nat)
  attempts : Nat
  emb : List (Nat × Nat × Bool × List Byte)
  bound : List (Nat × Nat)
  lost : Bool
  deriving DecidableEq, Repr

def PortSt.reset : PortSt := ⟨[], [], none, 0, [], [], false⟩

/-- The line a framer has open: port, VC, capture time, the stream and head entry it belongs to, its index, whether a line start
opened it, its data type (0 until its long packet comes), the bytes taken, its mark, what becomes of it (0 kept, 1 discarded, 2 late), its
line number and the exposure time of its index. -/
structure OpenLine where
  port : Nat
  vc : Nat
  time : Nat
  head : Option (Nat × Nat)
  index : Nat
  byStart : Bool
  dt : Nat
  bytes : List Byte
  mark : Nat
  fate : Nat
  y : Nat
  trig : Nat
  deriving DecidableEq, Repr

/-- The frame an area framer has open: port, VC, stream and head, index, fate, lines so far with their marks, the data type, how many
lines have left the stages, whether a line of it carried a mark or fill, and whether it has had lines too many. -/
structure FrameSt where
  port : Nat
  vc : Nat
  head : Option (Nat × Nat)
  index : Nat
  fate : Nat
  lines : List (List Col × Nat)
  dt : Nat
  sent : Nat
  marked : Bool
  extra : Bool
  deriving DecidableEq, Repr

/-- A finished line on its way to the seam engine: stream, head, index, line number, pixels in the stream format, mark, and whether
its pipeline was Calibrating. -/
structure OutLine where
  stream : Nat
  head : Nat
  index : Nat
  y : Nat
  cols : List Col
  mark : Nat
  missing : Bool
  deriving DecidableEq, Repr

/-- Values armed at an index (R286, R312): the stage (3 gauge, 4 white balance, 6 matrix, 9 screen), the index N, the register words
they set, and the journal entry's take number. -/
structure Armed where
  stage : Nat
  n : Nat
  words : List (Nat × Nat)
  deriving DecidableEq, Repr

/-- An open tile row of a head: its number (frame index for area), the row within the frame, its lines by position, the positions done
as bits, and whether scoring was suspended while it was open. -/
structure TileRow where
  row : Nat
  areaRow : Nat
  lines : List (Option TileLine)
  done : Nat
  suspended : Bool
  deriving DecidableEq, Repr

/-- A head's screen and statistics in its pipeline: open tile rows, column histories, the open period, periods since the stream
started, the last record, and one more than the last index processed or absent. -/
structure HeadSt where
  tiles : List TileRow
  hist : List TileHist
  acc : StatAcc
  periods : Nat
  lastStat : List Byte
  seen : Nat
  deriving DecidableEq, Repr

def HeadSt.reset : HeadSt := ⟨[], [], StatAcc.empty, 0, [], 0⟩

/-- A pipeline beside its registers: the framer's open line and frame, resync (1 to the next line header, 2 to the next frame start),
finished lines, the lines of the alignment store by index, armed and superseded values, its heads by 32 × port + VC, a pending history
reset, the swatch capture's pending move (1 start, 2 end), lines of the frame under capture, its damaged gauge words, and whether its
capture was the last of its cluster. -/
structure PipeSt where
  line : Option OpenLine
  frame : Option FrameSt
  resync : Nat
  out : List OutLine
  store : List (Nat × List Col)
  armed : List Armed
  old : List Armed
  heads : List (Nat × HeadSt)
  histReset : Bool
  swatch : Nat
  capture : List (List Col)
  damaged : List Nat
  owns : Bool
  deriving DecidableEq, Repr

def PipeSt.reset : PipeSt := ⟨none, none, 0, [], [], [], [], [], false, 0, [], [], false⟩

/-- A threshold that has not fired: head entry, index, integer part and 32-bit fraction. -/
structure Thr where
  head : Nat
  index : Nat
  int : Nat
  frac : Nat
  deriving DecidableEq, Repr

/-- A trigger to emit: head, index, emission time and exposure time in ns, and whether its emission time had passed when it was
ready. -/
structure Emit where
  head : Nat
  index : Nat
  time : Nat
  exposure : Nat
  late : Bool
  deriving DecidableEq, Repr

/-- A binding window: head, index, its bounds in ns, whether it has opened, whether a line is bound, and whether it has closed while a
line that arrived in it still waits in its queue. -/
structure Win where
  head : Nat
  index : Nat
  lo : Nat
  hi : Nat
  opened : Bool
  bound : Bool
  shut : Bool
  deriving DecidableEq, Repr

/-- A trigger generator beside its registers: n0, travel, the high-water mark and the time of the count that reached it, the interval
of that count, whether the last count was forward, whether indices are still issued, thresholds of issued indices, the trigger time of
the last issued index, each head's last exposure, emissions and windows, the start time, and the first skipped index that no event
has named yet. -/
structure GenSt where
  n0 : Nat
  travel : Int
  mark : Nat
  tMark : Nat
  delta : Option Nat
  chain : Bool
  forward : Bool
  issuing : Bool
  thrs : List Thr
  lastTrig : Option Nat
  exps : List (Nat × Nat)
  emits : List Emit
  wins : List Win
  start : Nat
  skipped : Option Nat
  deriving DecidableEq, Repr

def GenSt.reset : GenSt := ⟨0, 0, 0, 0, none, false, false, false, [], none, [], [], [], 0, none⟩

/-- The slot of a head in a row: 0 pending, 1 bound, 2 complete, 3 absent, 4 late, 5 missing; its columns, line mark, and lossy bit. -/
structure SlotSt where
  head : Nat
  st : Nat
  cols : List Col
  mark : Nat
  lossy : Bool
  status : Nat
  deriving DecidableEq, Repr

/-- A segment of a row in the close phase: producer, first column, width, budget, its columns, and what coding gave. -/
structure SegJob where
  producer : Nat
  first : Nat
  width : Nat
  budget : Nat
  cols : List Col
  done : Option (List Byte)
  lossy : Nat
  held : Nat
  shift : Nat
  bad : List Nat
  deriving DecidableEq, Repr

/-- A row from its opening to its record: index, line, position in 1/65536 counts, row time, exposures by head, FIRST and LAST, slots,
when and how it closed, whether the guarantee was suspended then, its sequence and its segments once in the close phase, its
per-head status, and the effort it is coded with before throttling. -/
structure RowSt where
  index : Nat
  line : Nat
  position : Int
  time : Nat
  exps : List (Nat × Nat)
  first : Bool
  last : Bool
  slots : List SlotSt
  closed : Option Nat
  deadline : Bool
  suspended : Bool
  seq : Nat
  coding : Bool
  segs : List SegJob
  status : List Nat
  effort : Nat
  deriving DecidableEq, Repr

/-- What the records of a band tag cover so far (R536): SEQ of the first and last row record, how many, SIDE_SEQ of the first side
record, how many, and the bytes. -/
structure TagSt where
  firstSeq : Nat
  lastSeq : Nat
  rows : Nat
  firstSide : Nat
  sides : Nat
  rowData : List Byte
  sideData : List Byte
  deriving DecidableEq, Repr

def TagSt.reset : TagSt := ⟨0, 0, 0, 0, 0, [], []⟩

/-- A parked head (R560, R561): from which index, until which one, and its new TIME_OFFSET. -/
structure Parked where
  head : Nat
  from_ : Nat
  until_ : Option Nat
  offset : Option Nat
  deriving DecidableEq, Repr

/-- Row assembly of a stream beside its registers: rows open or on their way, end indices of bands whose own end was skipped, the last
issued index, whether the next coded row is intra, the reconstruction of each segment of the row before, match gains armed and
superseded (index, head and gains), the effort in force before throttling, the one armed and its index, tag settings and what the open tag covers, cutout mode, cap, margin and audit
period, parked heads. -/
structure AsmSt where
  rows : List RowSt
  ends : List Nat
  lastIssued : Option Nat
  fresh : Bool
  firstBand : Option Nat
  refs : List (List (List Nat))
  armedMatch : Option (Nat × List (Nat × Nat × Nat × Nat))
  oldMatch : List (Nat × Nat × Nat × Nat × Nat)
  effort : Nat
  effortNext : Nat
  effortAt : Nat
  tagEn : Bool
  keySlot : Nat
  use : Nat
  tag : TagSt
  cutout : Bool
  cap : Nat
  margin : Nat
  audit : Nat
  parked : List Parked
  deriving DecidableEq, Repr

def AsmSt.reset : AsmSt :=
  ⟨[], [], none, true, none, [], none, [], 0, 0, 0, false, 0, 0, TagSt.reset, false, 0, 0, 1, []⟩

/-- A spare-pipeline swap armed in a cluster (R555 to R558): its stream, index, the pipeline it replaces and the spare, whether firmware
started it, and what it does to the stream's guarantee at N: 1 suspends it, 2 restores it. -/
structure SwapSt where
  stream : Nat
  n : Nat
  old : Nat
  spare : Nat
  auto : Bool
  guard : Nat
  deriving DecidableEq, Repr

/-- The running job of a ring (R394 to R397): its descriptor (empty until it has arrived), the row it started from and that row's source
offset, rows done by this submission, destination bytes written, counts A and B, what has arrived of a fetch from host memory, how much
it still needs and from which PCIe address, how it ends (a completion status), whether JOB_ABORT named it, and the address of an access
fault. -/
structure JobSt where
  desc : List Byte
  row0 : Nat
  off0 : Nat
  rows : Nat
  made : Nat
  countA : Nat
  countB : Nat
  data : List Byte
  need : Nat
  src : Nat
  ended : Option Nat
  abort : Bool
  fault : Nat
  deriving DecidableEq, Repr

def JobSt.reset : JobSt := ⟨[], 0, 0, 0, 0, 0, 0, [], 0, 0, none, false, 0⟩

/-- Everything of the device that has no internal address; `shadow` holds the configuration commands in force on members' nodes (R475); `qcounts` holds FLUSHES and STRANDED of a node's queues by NID (R432, R433); `lateAnswers` holds answers of members (tag, member, payload)
that came while FW_READY was 0. -/
structure Dev where
  host : HostIf
  doorbells : List MbId
  journal : List Cmd
  takes : Nat
  evN : EvQ
  evS : EvQ
  limits : List LimitRec
  tw : TwMail
  twc : List (Nat × TwCtl)
  boot : BootSt
  fuses : Fuses
  sec : SecSt
  elec : Elec
  group : List Member
  ownIndex : Nat
  ownDepth : Nat
  shadow : List (Nat × List Byte)
  quads : List (Nat × QuadSt)
  ctlTag : Nat
  ctlWaits : List CtlWait
  remoteReads : List RemoteRead
  answered : List (Nat × List Byte)
  lateAnswers : List (Nat × Nat × List Byte)
  ecc : List (Nat × Nat)
  streams : List (Nat × StreamSt)
  rings : List (Nat × RingSt)
  slotPlan : List (Nat × Nat)
  pwr : PwrSt
  sensors : List (Nat × SensorSt)
  time : TimeSt
  ptp : PtpSt
  encs : List (Nat × EncSt)
  ports : List (Nat × PortSt)
  pipes : List (Nat × PipeSt)
  gens : List (Nat × GenSt)
  asms : List (Nat × AsmSt)
  swaps : List (Nat × SwapSt)
  qcounts : List (Nat × Nat × Nat)
  jobs : List (Nat × JobSt)
  deriving DecidableEq, Repr

def Dev.reset : Dev where
  host := HostIf.reset
  doorbells := []
  journal := []
  takes := 0
  evN := EvQ.reset
  evS := EvQ.reset
  limits := []
  tw := TwMail.reset
  twc := []
  boot := BootSt.reset
  fuses := Fuses.blank
  sec := SecSt.reset
  elec := Elec.reset
  group := []
  ownIndex := 0
  ownDepth := 0
  shadow := []
  quads := []
  ctlTag := 0
  ctlWaits := []
  remoteReads := []
  answered := []
  lateAnswers := []
  ecc := []
  streams := []
  rings := []
  slotPlan := []
  pwr := PwrSt.reset
  sensors := []
  time := TimeSt.reset
  ptp := PtpSt.reset
  encs := []
  ports := []
  pipes := []
  gens := []
  asms := []
  swaps := []
  qcounts := []
  jobs := []

/-- The state: commands waiting, the registers that differ from their reset value, the bytes of memory that differ from what
unlisted addresses read as, everything without an address, what the device has sent (newest first), and the model's own
counter of free values (log entry 1). -/
structure State where
  pending : List Instr
  regs : List (Nat × Word)
  mem : List Host.Cell
  dev : Dev
  out : List Out
  free : Nat
  deriving DecidableEq, Repr

/-- Right after reset: MODE Boot, every register at the value the manual gives for reset, no memory cell listed, no command
waiting. -/
def State.reset : State where
  pending := []
  regs := []
  mem := []
  dev := Dev.reset
  out := []
  free := 0

end Sys2Proof.Machine
end

