-- ==== Sys2Proof/Machine/Ops.lean ====
section
/-! DEFINITION. What a meaning is made of: programs over five primitive actions, how they run, and the named operations on
registers, memory, nodes, events and the host's side of the bridge. -/

namespace Sys2Proof.Machine

/-- One primitive action on the state. -/
inductive Act where
  | setReg (a : Nat) (v : Word)
  | setByte (a : Nat) (b : Byte)
  | emit (o : Out)
  | dev (f : Dev → Dev)
  | fresh

/-- A meaning: actions in order, each free to look at the state left by the ones before it. -/
inductive Prog where
  | skip
  | act (a : Act) (k : Prog)
  | look (f : State → Prog)

/-- The gauge banks' reset contents (R284), by word offset within a bank: dark offset 0, gain 0x4000. -/
def Mem.default (a : Nat) : Byte :=
  if 0x20000000 ≤ a ∧ a < 0x24000000 ∧ 0x80000 ≤ a % 0x100000 ∧ a % 0x100000 < 0xA0000 ∧ a % 4 = 3 then 0x40 else 0

/-- The effect of a primitive action. A register word is fitted to the bits that exist; both tables stay canonical. -/
def Act.apply : Act → State → State
  | .setReg a v, s => { s with regs := Tbl.set (Reg.rst a) s.regs a (Reg.fit a v) }
  | .setByte a b, s => { s with mem := Tbl.set (Mem.default a) s.mem a b }
  | .emit o, s => { s with out := o :: s.out }
  | .dev f, s => { s with dev := f s.dev }
  | .fresh, s => { s with free := s.free + 1 }

/-- Running a meaning. -/
def run : Prog → State → State
  | .skip, s => s
  | .act a k, s => run k (a.apply s)
  | .look f, s => run (f s) s

/-- One meaning after another. -/
def Prog.seq : Prog → Prog → Prog
  | .skip, q => q
  | .act a k, q => .act a (k.seq q)
  | .look f, q => .look fun s => (f s).seq q

/-- Several meanings in order. -/
def block : List Prog → Prog
  | [] => .skip
  | p :: ps => p.seq (block ps)

/-- The same meaning for every element of a list, in order. -/
def forEach {α : Type} : List α → (α → Prog) → Prog
  | [], _ => .skip
  | x :: xs, f => (f x).seq (forEach xs f)

def when (c : Bool) (p : Prog) : Prog := if c then p else .skip

/-- A meaning chosen by a condition on the state it meets. -/
def ifS (c : State → Bool) (p q : Prog) : Prog := .look fun s => if c s then p else q

def look (f : State → Prog) : Prog := .look f

def emit (o : Out) : Prog := .act (.emit o) .skip

def dev (f : Dev → Dev) : Prog := .act (.dev f) .skip

/-- A fresh free value (log entry 1). -/
def fresh (k : Nat → Prog) : Prog := .look fun s => .act .fresh (k (Config.freeValue s.free))

/-! Registers. -/

/-- The value of a register word. -/
def State.reg (s : State) (a : Nat) : Word := Tbl.get (Reg.rst a) s.regs a

/-- The value of a field; a field wider than 32 bits takes the following word as its upper half. -/
def State.get (s : State) (f : Fld) : Nat :=
  if f.width ≤ 32 then bits (s.reg f.addr).toNat f.lo f.width
  else (s.reg f.addr).toNat + 0x100000000 * (s.reg (f.addr + 4)).toNat

/-- Is a one-bit field 1? -/
def State.on (s : State) (f : Fld) : Bool := s.get f == 1

/-- The signed reading of a field. -/
def State.sget (s : State) (f : Fld) : Int := signed f.width (s.get f)

def setReg (a : Nat) (v : Word) : Prog := .act (.setReg a v) .skip

/-- Writing a field; the rest of its word stays. -/
def set (f : Fld) (v : Nat) : Prog := .look fun s =>
  if f.width ≤ 32 then setReg f.addr (BitVec.ofNat 32 (putBits (s.reg f.addr).toNat f.lo f.width v))
  else .act (.setReg f.addr (BitVec.ofNat 32 v)) (setReg (f.addr + 4) (BitVec.ofNat 32 (v / 0x100000000)))

/-- Writing a signed value into a field. -/
def setS (f : Fld) (z : Int) : Prog := set f (unsigned f.width z)

/-- Adding to a counter that saturates at its width (R29, R169). -/
def bumpBy (f : Fld) (n : Nat) : Prog := .look fun s => set f (satNat (s.get f + n) (2 ^ f.width - 1))

def bump (f : Fld) : Prog := bumpBy f 1

/-! Memory. -/

/-- One byte of memory. -/
def State.byte (s : State) (a : Nat) : Byte := Tbl.get (Mem.default a) s.mem a

/-- n bytes of memory from an address. -/
def State.bytes (s : State) : Nat → Nat → List Byte
  | _, 0 => []
  | a, n + 1 => s.byte a :: s.bytes (a + 1) n

def setByte (a : Nat) (b : Byte) : Prog := .act (.setByte a b) .skip

/-- Writing consecutive bytes. -/
def setBytes : Nat → List Byte → Prog
  | _, [] => .skip
  | a, b :: bs => .act (.setByte a b) (setBytes (a + 1) bs)

/-- Writing the bytes that are enabled. -/
def setEnabled : Nat → List (Option Byte) → Prog
  | _, [] => .skip
  | a, none :: bs => setEnabled (a + 1) bs
  | a, some b :: bs => .act (.setByte a b) (setEnabled (a + 1) bs)

/-- Returning a range of memory to what unlisted addresses read as. -/
def clearMem (lo len : Nat) : Prog := .look fun s =>
  forEach ((s.mem.filter fun c => lo ≤ c.1 && c.1 < lo + len).map Prod.fst) fun a => setByte a (Mem.default a)

/-- Returning the listed words of a range of registers to their reset values. -/
def resetRegs (lo len : Nat) : Prog := .look fun s =>
  forEach ((s.regs.filter fun c => lo ≤ c.1 && c.1 < lo + len).map Prod.fst) fun a => setReg a (Reg.rst a)

/-! Nodes. -/

def nidCluster (c : Nat) : Nat := 0x10 + c
def nidPipe (p : Nat) : Nat := 0x100 + p

/-- Where the header (0x0110) or counters (0x0112) of a node start; a stage of pipeline p has its own tables. -/
def nodeBase (tbl nid : Nat) (stage : Option Nat) : Nat :=
  match stage with
  | none => tbl + 0x40 * nid
  | some k => tbl + 0x10000 + 0x40 * ((nid - 0x100) * 16 + k)

namespace Node
/-- STATE of Table 1-5; a stage reads its pipeline's (R595). -/
def state (nid : Nat) : Fld := ⟨0x01100000 + 0x40 * nid + 4, 0, 8, 0⟩
def world (nid : Nat) : Fld := ⟨0x01100000 + 0x40 * nid + 4, 16, 8, 0⟩
def latency (nid : Nat) : Fld := ⟨0x01100000 + 0x40 * nid + 16, 0, 32, 0⟩
def stageLatency (p k : Nat) : Fld := ⟨0x01110000 + 0x40 * (p * 16 + k) + 16, 0, 32, 0⟩
def timeSec (nid : Nat) : Fld := ⟨0x01100000 + 0x40 * nid + 32, 0, 32, 0⟩
def timeNs (nid : Nat) : Fld := ⟨0x01100000 + 0x40 * nid + 36, 0, 32, 0⟩
/-- Common counter i of Table 1-7. -/
def counter (nid : Nat) (stage : Option Nat) (i : Nat) : Fld := ⟨nodeBase 0x01120000 nid stage + 8 * i, 0, 64, 0⟩
end Node

/-- Node states of Table 1-6. -/
abbrev stOff : Nat := 0
abbrev stRetained : Nat := 1
abbrev stGated : Nat := 2
abbrev stRunning : Nat := 3
abbrev stCalibrating : Nat := 4
abbrev stRetired : Nat := 5
abbrev stFaulted : Nat := 6

/-- Device modes of Table 2-1. -/
abbrev mBoot : Nat := 0
abbrev mStandby : Nat := 1
abbrev mArmed : Nat := 2
abbrev mAcquire : Nat := 3
abbrev mMaintenance : Nat := 4
abbrev mSafeHold : Nat := 5

def State.mode (s : State) : Nat := s.get Reg.ModeReg.modeF

/-- Time base: seconds [31:0] and nanoseconds. -/
def State.sec (s : State) : Nat := s.get Reg.TimeReg.secLo
def State.ns (s : State) : Nat := s.get Reg.TimeReg.ns
/-- Time base in nanoseconds since its epoch. -/
def State.now (s : State) : Nat :=
  (s.get Reg.TimeReg.secLo + 0x100000000 * s.get Reg.TimeReg.secHi) * 1000000000 + s.get Reg.TimeReg.ns
def State.timeBytes (s : State) : List Byte := leBytes 4 s.sec ++ leBytes 4 s.ns

/-- A node's STATE changes: STATE_TIME takes the time base (Table 1-5). Naming the current state changes nothing. -/
def setState (nid st : Nat) : Prog := .look fun s =>
  if s.get (Node.state nid) = st then .skip
  else block [set (Node.state nid) st, set (Node.timeSec nid) s.sec, set (Node.timeNs nid) s.ns]

/-- Common counters of Table 1-7 by name. -/
def countIn (nid : Nat) : Prog := bump (Node.counter nid none 0)
def countOut (nid : Nat) : Prog := bump (Node.counter nid none 1)
def countMarked (nid : Nat) : Prog := bump (Node.counter nid none 2)
def countDropped (nid : Nat) : Prog := bump (Node.counter nid none 3)
def countCorrected (nid : Nat) : Prog := bump (Node.counter nid none 4)
def countContained (nid : Nat) : Prog := bump (Node.counter nid none 5)
def countViolation (nid : Nat) : Prog := bump (Node.counter nid none 7)

/-! Power domains (Table 2-9, Table 2-10). -/

def State.domainOn (s : State) (d : Nat) : Bool := bit (s.get (Reg.Dom.domainOn (d / 32))) (d % 32)
def State.domainRet (s : State) (d : Nat) : Bool := bit (s.get (Reg.Dom.domainRet (d / 32))) (d % 32)

def setDomain (d : Nat) (on ret : Bool) : Prog := .look fun s =>
  block [set (Reg.Dom.domainOn (d / 32)) (putBits (s.get (Reg.Dom.domainOn (d / 32))) (d % 32) 1 (boolNat on)),
         set (Reg.Dom.domainRet (d / 32)) (putBits (s.get (Reg.Dom.domainRet (d / 32))) (d % 32) 1 (boolNat ret))]

end Sys2Proof.Machine
end

