-- ==== Sys2Proof/Machine/Flags.lean ====
section
/-! DEFINITION. Status flags and their occurrence counters (R169, R170). -/

namespace Sys2Proof.Machine

/-- Hardware sets a flag: the flag is 1 and its occurrence counter rises, saturating, whether or not it was set (R169). -/
def setFlag (f : Fld) : Prog := block [set f 1, bump ⟨f.cnt, 0, 16, 0⟩]

/-- A W1C write to a register word: the named flags clear; their counters keep their value (R169). -/
def w1c (a : Nat) (v : Nat) : Prog := .look fun s =>
  match Reg.info a with
  | some i => setReg a (s.reg a &&& ~~~ (BitVec.ofNat 32 (v &&& i.w1c)))
  | none => .skip

/-- The occurrence counters of a flag register: the addresses of those of its flags. -/
def flagCounters (a : Nat) : List Nat :=
  let run (base n : Nat) : List Nat := (List.range n).map fun i => base + 4 * i
  if a = 0x01700080 then run 0x017000C0 6
  else if a = 0x01000310 then run 0x01000380 5
  else if a % 0x10000 = 0x4 ∧ (a = 0x01300004 ∨ a = 0x01310004) then run (a + 0x7C) 6
  else if a = 0x10000001018 then run 0x10000001020 2
  else if 0x10000004000 ≤ a ∧ a < 0x10000020000 ∧ 0x4000 ≤ a % 0x10000 ∧ a % 0x10000 < 0x8000 ∧ a % 0x1000 = 0x804 then run (a + 4) 2
  else if 0x01320000 ≤ a ∧ a < 0x01321000 ∧ a % 0x40 = 0x28 then run (a + 8) 3
  else if 0x10100000 ≤ a ∧ a < 0x18000000 ∧ a % 0x10000 = 0x14 then run (a + 0x6C) 7
  else if 0x01501000 ≤ a ∧ a < 0x01501400 ∧ a % 0x100 = 0x40 then run (a + 0x40) 4
  else if 0x01510000 ≤ a ∧ a < 0x01550000 ∧ a % 0x4000 = 0x40 then run (a + 0x40) 4
  else if a = 0x01500030 then run 0x01500040 4
  else if 0x20000000 ≤ a ∧ a < 0x24000000 ∧ a % 0x100000 = 0x3030 then run (a + 0x50) 1
  else if 0x20000000 ≤ a ∧ a < 0x24000000 ∧ a % 0x100000 = 0x4020 then run (a + 0x60) 1
  else if 0x20000000 ≤ a ∧ a < 0x24000000 ∧ a % 0x100000 = 0x9020 then run (a + 0x60) 2
  else if 0x01200000 ≤ a ∧ a < 0x01280000 ∧ a % 0x8000 = 0x20 then run (a + 0x60) 3
  else if 0x10000000 ≤ a ∧ a < 0x18000000 ∧ a % 0x01000000 = 0x200010 then run (a + 0x70) 1
  else if 0x01200000 ≤ a ∧ a < 0x01280000 ∧ a % 0x8000 = 0x110 then run (a + 0x70) 3
  else if a = 0x01280000 then run 0x01280080 3
  else if 0x01200000 ≤ a ∧ a < 0x01280000 ∧ a % 0x8000 = 0x218 then run (a + 0x68) 4
  else if 0x01400000 ≤ a ∧ a < 0x01500000 ∧ a % 0x40000 = 0x20 then run (a + 0x60) 7
  else if a = 0x01600004 then run 0x01600080 5
  else if 0x01601000 ≤ a ∧ a < 0x01608000 ∧ a % 0x100 = 0x14 then run (a + 0x6C) 4
  else if a = 0x01701000 then run 0x01701080 4
  else if a = 0x01800008 then run 0x01800080 3
  else []

/-- Clearing every occurrence counter of a flag register (R596). -/
def clearFlagCounters (a : Nat) : Prog := forEach (flagCounters a) fun c => set ⟨c, 0, 16, 0⟩ 0

end Sys2Proof.Machine
end

