-- ==== Sys2Proof/Machine/World.lean ====
section
/-! DEFINITION. Worlds and ownership: which world, node and domain an address or a node belongs to (R521, R522, R40). -/

namespace Sys2Proof.Machine

/-- The world of a node: 1 for S (Table 17-1). -/
def State.nodeS (s : State) (nid : Nat) : Bool :=
  if 0x10 ≤ nid ∧ nid < 0x18 then bit (s.get Reg.Wld.clusterS) (nid - 0x10)
  else if 0x100 ≤ nid ∧ nid < 0x120 then bit (s.get Reg.Wld.pipeSLo) (nid - 0x100)
  else if 0x120 ≤ nid ∧ nid < 0x140 then bit (s.get Reg.Wld.pipeSHi) (nid - 0x120)
  else false

def State.serviceS (s : State) (i : Nat) : Bool := bit (s.get Reg.Wld.serviceS) i

def State.granuleS (s : State) (g : Nat) : Bool := bit (s.get (Reg.Wld.granuleS (g / 32))) (g % 32)

/-- Is an outbound-window granule of 4 KiB inside a host range of the policy? -/
def State.rangeS (s : State) (g : Nat) : Bool :=
  (List.range (s.get Reg.Wld.ranges)).any fun r =>
    s.get (Reg.Wld.rangeBase r) ≤ g && g < s.get (Reg.Wld.rangeBase r) + s.get (Reg.Wld.rangeCount r)

/-- The node that a header or counter table address, a cluster block or a pipeline block belongs to. -/
def nodeOfAddr (a : Nat) : Option Nat :=
  if 0x01100000 ≤ a ∧ a < 0x01110000 then some ((a - 0x01100000) / 0x40)
  else if 0x01110000 ≤ a ∧ a < 0x01120000 then some (0x100 + (a - 0x01110000) / 0x400)
  else if 0x01120000 ≤ a ∧ a < 0x01130000 then some ((a - 0x01120000) / 0x40)
  else if 0x01130000 ≤ a ∧ a < 0x01140000 then some (0x100 + (a - 0x01130000) / 0x400)
  else if 0x10000000 ≤ a ∧ a < 0x18000000 then some (0x10 + (a - 0x10000000) / 0x01000000)
  else if 0x20000000 ≤ a ∧ a < 0x24000000 then some (0x100 + (a - 0x20000000) / 0x100000)
  else none

/-- The world of an internal address: true for S (Table 17-1, Table 17-4). -/
def State.addrS (s : State) (a : Nat) : Bool :=
  if a < 0x00400000 then true
  else if 0x02000000 ≤ a ∧ a < 0x03000000 then true
  else if 0x01501000 ≤ a ∧ a < 0x01501400 then s.serviceS 0
  else if 0x01550000 ≤ a ∧ a < 0x01560000 then s.serviceS 1
  else if 0x01601000 ≤ a ∧ a < 0x01601400 then s.serviceS 2
  else if 0x01604000 ≤ a ∧ a < 0x01607000 then s.serviceS 3
  else if 0x01320000 ≤ a ∧ a < 0x01321000 then s.on (Reg.Ring.world ((a - 0x01320000) / 0x40))
  else if 0x100000000 ≤ a ∧ a < 0x103000000 then s.granuleS ((a - 0x100000000) / 0x10000)
  else if 0x4000000000 ≤ a ∧ a < 0x8000000000 then s.rangeS ((a - 0x4000000000) / 0x1000)
  else match nodeOfAddr a with
    | some n => s.nodeS n
    | none => false

/-- May an agent of a world (true for S) reach an address? -/
def State.reach (s : State) (worldS : Bool) (a : Nat) : Bool := worldS || !s.addrS a

/-- May an agent reach every byte of a range? Worlds change at 4 KiB steps at the finest, so one address per step is asked. -/
def State.reachRange (s : State) (worldS : Bool) (a len : Nat) : Bool :=
  worldS || ((List.range ((a + len - 1) / 0x1000 - a / 0x1000 + 1)).all fun i => s.reach worldS ((a / 0x1000 + i) * 0x1000))

/-- Plain memory behind an internal address: control-processor memory, the firmware store, gauge banks and maps, the swatch
accumulator, and shared SRAM. -/
def isMemory (a : Nat) : Bool :=
  a < 0x00400000 || (0x02400000 ≤ a && a < 0x02C00000) || (0x100000000 ≤ a && a < 0x103000000)
  || (0x20000000 ≤ a && a < 0x24000000 && 0x80000 ≤ a % 0x100000 && a % 0x100000 < 0xA4000)
  || (0x10000000 ≤ a && a < 0x18000000 && 0x400000 ≤ a % 0x01000000 && a % 0x01000000 < 0x480000)

/-- Secure service blocks that hold no readable word: key store, fuse controller, steering and unlock engine (Table 17-4). -/
def isService (a : Nat) : Bool :=
  (0x02000000 ≤ a && a < 0x02020000) || (0x02030000 ≤ a && a < 0x02050000)

def isShared (a : Nat) : Bool := 0x100000000 ≤ a && a < 0x103000000

/-- A word may be in a node whose domain is off: the node whose STATE says so (R28). -/
def State.offNode (s : State) (a : Nat) : Option Nat :=
  if 0x01100000 ≤ a ∧ a < 0x01140000 then none
  else match nodeOfAddr a with
    | some n => if s.get (Node.state n) = stOff ∨ s.get (Node.state n) = stRetained then some n else none
    | none => none

/-- Is the domain behind an address that is no node powered: the local two-wire controllers' bank (domain 12)? -/
def State.bankOff (s : State) (a : Nat) : Bool := 0x01601000 ≤ a && a < 0x01601400 && !s.domainOn 12

end Sys2Proof.Machine
end

