-- ==== Sys2Proof/Machine/Link.lean ====
section
/-! DEFINITION. Sending over a cascade quad: packets under credit and sequence, trigger messages, and the blocks of link control
(R455 to R463). -/

namespace Sys2Proof.Machine
open Reg

def State.quad (s : State) (q : Nat) : QuadSt := Tbl.get QuadSt.reset s.dev.quads q

def setQuad (q : Nat) (f : QuadSt → QuadSt) : Prog :=
  dev fun d => { d with quads := Tbl.set QuadSt.reset d.quads q (f (Tbl.get QuadSt.reset d.quads q)) }

/-- Link states of Table 14-3. -/
abbrev lDown : Nat := 0
abbrev lBase : Nat := 1
abbrev lTrain : Nat := 2
abbrev lUp : Nat := 3
abbrev lRestart : Nat := 4

/-- The upstream quad of a satellite (R448). -/
def State.upstream (s : State) : Option Nat := (List.range 4).find? fun q => s.on (Quad.upstream q)

/-- The first quad on the way down to a member, and whether the way is up (R470). -/
def State.quadTo (s : State) (d : Nat) : Option Nat :=
  let up := fun (x : Nat) => (s.dev.group.find? fun m => m.index = x).map fun m => (m.parent, m.quad)
  let rec go : Nat → Nat → Option Nat
    | 0, _ => none
    | f + 1, x => match up x with
      | some (p, q) => if p = s.dev.ownIndex then some q else go f p
      | none => none
  go 16 d

/-- Is the way to a member known to be up: it is present and its first link is UP? -/
def State.pathUp (s : State) (d : Nat) : Bool :=
  (s.dev.group.any fun m => m.index = d && m.leftSeq = 0) &&
  match s.quadTo d with | some q => s.get (Quad.lstate q) = lUp | none => false

/-- Does the first link on the way to a member run under the default key, so that no S-world request may use it (R466)? -/
def State.keyDefaultTo (s : State) (d : Nat) : Bool := match s.quadTo d with | some q => s.on (Quad.keyDefault q) | none => false

/-- A packet without the tag that its last transmission carried. -/
def Packet.untagged (p : Packet) : Packet := if bit p.flags 0 then { p with payload := p.payload.take (p.payload.length - 16) } else p

/-- The credit a packet takes, in 64-byte units (R460). -/
def Packet.units (p : Packet) : Nat := ceilDiv p.payload.length 64

def QuadSt.creditOf (q : QuadSt) (cls : Nat) : Nat :=
  if cls = 1 then q.credit1 else if cls = 2 then q.credit2 else q.credit3

def QuadSt.spend (q : QuadSt) (cls n : Nat) : QuadSt :=
  if cls = 1 then { q with credit1 := q.credit1 - n }
  else if cls = 2 then { q with credit2 := q.credit2 - n }
  else { q with credit3 := q.credit3 - n }

/-- LINK_ID of a quad's link (R456): downstream device index, upstream quad, upstream device index. -/
def State.linkId (s : State) (q : Nat) : Nat :=
  if s.on (Quad.upstream q) then s.dev.ownIndex + 64 * (s.quad q).peer.index
  else s.get (Quad.peer q) + 16 * q + 64 * s.dev.ownIndex

/-- The extension header of a packet (Table 14-4a). -/
def Packet.ext (p : Packet) : List Byte :=
  leBytes 1 p.cls ++ leBytes 1 p.flags ++ leBytes 1 p.src ++ leBytes 1 p.dst ++ leBytes 4 p.aux

/-- START bytes 1 to 7 (Table 14-2): SEQ, TYPE, LENGTH in 8-byte words. -/
def Packet.start (p : Packet) (seq : Nat) : List Byte :=
  leBytes 4 seq ++ leBytes 1 p.type ++ leBytes 2 (ceilDiv p.payload.length 8)

/-- The packet CRC of the END block (R456). -/
def Packet.crcOn (p : Packet) (link seq : Nat) : Nat :=
  houseCrc (leBytes 2 link ++ leBytes 4 seq ++ [0, 0]) (p.start seq ++ p.ext ++ padTo 8 p.payload)

/-- The 16-byte tag that ends the payload of a packet with AUTH (R466): direction 0 down, 1 up. -/
def State.authTag (s : State) (q seq dir : Nat) (p : Packet) (body : List Byte) : List Byte :=
  slice (Config.gmac (s.quad q).key
    (leBytes 2 (s.linkId q) ++ leBytes 2 (s.get (Quad.epoch q)) ++ leBytes 4 seq ++ leBytes 1 dir ++ zeros 3)
    (p.start seq ++ p.ext ++ body)) 0 16

/-- Sending the packets that have credit, class 1 before 2 before 3 and in order within a class (R460, R461). A packet with AUTH
takes its tag as it leaves. -/
def pumpFrom (q : Nat) : Nat → Prog
  | 0 => .skip
  | n + 1 => .look fun s =>
    let st := s.quad q
    let pick := [1, 2, 3].findSome? fun cls =>
      match st.sendQ.find? fun p => p.cls = cls with
      | some p => if p.units ≤ st.creditOf cls then some p else none
      | none => none
    if s.get (Quad.lstate q) ≠ lUp then .skip
    else match pick with
      | none => .skip
      | some p =>
        let dir := if s.on (Quad.upstream q) then 1 else 0
        let p' := if bit p.flags 0 then { p with payload := p.payload ++ s.authTag q st.txSeq dir { p with payload := p.payload ++ zeros 16 } p.payload }
                  else p
        block [setQuad q fun x => { (x.spend p.cls p.units) with
            sendQ := x.sendQ.erase p, unacked := x.unacked ++ [⟨x.txSeq, p', 0⟩], txSeq := (x.txSeq + 1) % 0x100000000 },
          bump (Quad.txPackets q), emit (.packet q st.txSeq p'), pumpFrom q n]

def pump (q : Nat) : Prog := look fun s => pumpFrom q (s.quad q).sendQ.length

/-- A packet is queued on a quad and sent as soon as credit allows. -/
def sendPacket (q : Nat) (p : Packet) : Prog := block [setQuad q fun x => { x with sendQ := x.sendQ ++ [p] }, pump q]

/-- Sending a trigger message on a quad (R462): at most 256 unacknowledged. -/
def sendTrig (q : Nat) (t : TrigMsg) : Prog := .look fun s =>
  let m := { t with tseq := (s.quad q).tseq }
  block [setQuad q fun x => { x with tseq := (x.tseq + 1) % 65536, trigUnacked := x.trigUnacked ++ [(m, 0)] },
    bump (Quad.trigSent q), emit (.trig q m)]

end Sys2Proof.Machine
end

