-- ==== Sys2Proof/Machine/Outbound.lean ====
section
/-! DEFINITION. What the device sends to the host: posted writes under credits and Bus Master Enable, MSI-X messages, and event
records (R107, R108, R117, R131, R166 to R168). -/

namespace Sys2Proof.Machine
open Reg

/-- Is a UCIe module trained? -/
def State.linkUp (s : State) : Bool := s.get (Bridge.mod0Rate 0) ≠ 0 || s.get (Bridge.mod1Rate 0) ≠ 0

def State.pci (s : State) (fn : Nat) : PciFn := if fn = 0 then s.dev.host.pf0 else s.dev.host.pf1

def setHost (f : HostIf → HostIf) : Prog := dev fun d => { d with host := f d.host }

/-- The bytes a posted write takes of the host's credits, counted as its data. -/
def HostWrite.size (w : HostWrite) : Nat := w.data.length

/-- Sending the waiting writes, in order, while credits last and a module is trained (R131). -/
def drainFrom : List HostWrite → Prog
  | [] => setHost fun h => { h with waiting := [] }
  | w :: ws => .look fun s =>
    if s.linkUp ∧ w.size ≤ s.dev.host.credit then
      block [setHost fun h => { h with credit := h.credit - w.size }, emit (.hostWrite w), drainFrom ws]
    else setHost fun h => { h with waiting := w :: ws }

def drainHost : Prog := look fun s => drainFrom s.dev.host.waiting

/-- A posted write enters the outbound posted buffer and leaves when credits allow; nothing passes a write that waits. -/
def enqueueWrite (w : HostWrite) : Prog :=
  block [setHost fun h => { h with waiting := h.waiting ++ [w] }, drainHost]

/-- The MSI-X message of a vector: held pending while masked, while the function mask is set, or while no module is trained
(R117); not sent when MSI-X is off. -/
def sendMsix (fn vec : Nat) : Prog := .look fun s =>
  let p := s.pci fn
  let t := hostKey fn (0x3000 + 16 * vec)
  let pend : Fld := ⟨hostKey fn (0x3800 + 4 * (vec / 32)), vec % 32, 1, 0⟩
  if !p.msixEnable then .skip
  else if p.msixMask || (s.reg (t + 12)).toNat % 2 = 1 || !s.linkUp then set pend 1
  else if !p.busMaster then block [bump (Bridge.outDiscards fn), setFlag (Bridge.bmeDiscard fn), countDropped 1]
  else block [set pend 0,
    enqueueWrite ⟨fn, (s.reg t).toNat + 0x100000000 * (s.reg (t + 4)).toNat, leBytes 4 (s.reg (t + 8)).toNat, false, 2⟩]

/-- Held messages go in ascending vector order. -/
def sendHeld (fn : Nat) : Prog :=
  forEach (List.range 128) fun v => .look fun s =>
    if s.on ⟨hostKey fn (0x3800 + 4 * (v / 32)), v % 32, 1, 0⟩ then sendMsix fn v else .skip

/-- A bridge flag of one function is set and vector 0 of that function is sent (R115, R117). -/
def bridgeFlag (fn : Nat) (f : Nat → Fld) : Prog := block [setFlag (f fn), sendMsix fn 0]

/-- A link-wide bridge flag is set in both functions' copies. -/
def bridgeFlagBoth (f : Nat → Fld) : Prog := block [bridgeFlag 0 f, bridgeFlag 1 f]

/-- An outbound posted write: discarded and counted while the function's Bus Master Enable is 0 (R107). -/
def hostWrite (w : HostWrite) : Prog := .look fun s =>
  if (s.pci w.fn).busMaster then enqueueWrite w
  else block [bump (Bridge.outDiscards w.fn), bridgeFlag w.fn Bridge.bmeDiscard, countDropped 1,
    setHost fun h => if w.fn = 0 then { h with discards0 := h.discards0 + 1 } else { h with discards1 := h.discards1 + 1 }]

/-! Events. -/

def State.evq (s : State) (worldS : Bool) : EvQ := if worldS then s.dev.evS else s.dev.evN

def setEvq (worldS : Bool) (f : EvQ → EvQ) : Prog :=
  dev fun d => if worldS then { d with evS := f d.evS } else { d with evN := f d.evN }

/-- The event ring of a world (Table 13-4). -/
def evSlot (worldS : Bool) : Nat := if worldS then 33 else 32

/-- May the device write one more entry to a device-produced ring (R419)? -/
def State.ringSpace (s : State) (i : Nat) : Bool :=
  (s.get (Ring.devIndex i) + 0x100000000 - s.get (Ring.hostIndex i)) % 0x100000000 < s.get (Ring.count i)

def State.ringBase (s : State) (i : Nat) : Nat := s.get (Ring.baseLo i) * 64 + 0x100000000 * s.get (Ring.baseHi i)

/-- The function whose requester ID a ring's traffic carries: the ring's world (R107). -/
def State.ringFn (s : State) (i : Nat) : Nat := s.get (Ring.world i)

/-- DEV_INDEX advances. -/
def advanceDev (i n : Nat) : Prog := .look fun s => set (Ring.devIndex i) ((s.get (Ring.devIndex i) + n) % 0x100000000)

/-- Writing one 32-byte record into a world's event ring with its SEQ and the LOST_BEFORE mark (Table 4-21). -/
def writeEvent (worldS : Bool) (r : List Byte) (lostBefore : Bool) : Prog := .look fun s =>
  let i := evSlot worldS
  let q := s.evq worldS
  let rec' := r.take 5 ++ [BitVec.ofNat 8 ((r.getD 5 0).toNat % 254 + boolNat lostBefore)] ++ leBytes 2 q.seq ++ r.drop 8
  block [hostWrite ⟨s.ringFn i, s.ringBase i + (s.get (Ring.devIndex i) % s.get (Ring.count i)) * 32, rec', false, 2⟩,
    advanceDev i 1, setEvq worldS fun q => { q with seq := (q.seq + 1) % 65536, lostBefore := false }]

/-- The 'events lost' record: class 0x01, code 0x02, the count in DATA [3:0] (Table 4-22). -/
def lostRecord (time : List Byte) (n : Nat) : List Byte :=
  [1, 2] ++ leBytes 2 1 ++ [0xFF, 0, 0, 0] ++ time ++ leBytes 4 n ++ zeros 12

/-- May records go to a world's ring: it is enabled and firmware does not restart (R552)? -/
def State.eventsFlow (s : State) (worldS : Bool) : Bool := s.on (Ring.enable (evSlot worldS)) && !s.dev.boot.restarting

/-- Held records go to the ring in order while it has space (R168). -/
def drainEventsFrom (worldS : Bool) : List (List Byte) → Prog
  | [] => setEvq worldS fun q => { q with held := [] }
  | r :: rs => .look fun s =>
    if s.eventsFlow worldS && s.ringSpace (evSlot worldS) then
      block [writeEvent worldS r ((s.evq worldS).lostBefore && (r.take 2 != [1, 2])), drainEventsFrom worldS rs]
    else setEvq worldS fun q => { q with held := r :: rs }

/-- Space in the ring: held records first; then, where records were dropped, 'events lost' ahead of any newer one (R167). -/
def drainEvents (worldS : Bool) : Prog := block [
  look fun s => drainEventsFrom worldS (s.evq worldS).held,
  look fun s =>
    let q := s.evq worldS
    if q.held = [] ∧ 0 < q.lost ∧ s.eventsFlow worldS ∧ s.ringSpace (evSlot worldS) then
      block [bump (Node.counter 1 none 6), writeEvent worldS (lostRecord s.timeBytes q.lost) false,
        setEvq worldS fun q => { q with lost := 0, lostBefore := true }]
    else .skip]

/-- Dropping a record: it counts in EVENTS_LOST (R167). -/
def dropEvent (worldS : Bool) : Prog :=
  block [countDropped 1, setEvq worldS fun q => { q with lost := q.lost + 1, total := satNat (q.total + 1) 0xFFFFFFFF }]

/-- A record of a world: to its ring, or to the queue of 256 that holds records while the ring is disabled, firmware restarts or older
records wait (R167, R168, R552). Before hand-over there is no event ring and the record is not kept (R124). -/
def postEvent (worldS : Bool) (r : List Byte) : Prog := .look fun s =>
  let q := s.evq worldS
  let direct := s.eventsFlow worldS && q.held.isEmpty
  if s.mode = mBoot then .skip
  else if direct && !s.ringSpace (evSlot worldS) then dropEvent worldS
  else if !direct && 256 ≤ q.held.length then dropEvent worldS
  else if 0 < q.lost then
    block [bump (Node.counter 1 none 6),
      setEvq worldS fun q => { q with held := q.held ++ [lostRecord s.timeBytes q.lost, r], lost := 0, lostBefore := true },
      drainEvents worldS]
  else block [setEvq worldS fun q => { q with held := q.held ++ [r] }, drainEvents worldS]

/-- An event record without its SEQ (Table 4-21); DATA is padded with zeros to 16 bytes. -/
def eventRecord (cls code nid stage : Nat) (time data : List Byte) : List Byte :=
  [BitVec.ofNat 8 cls, BitVec.ofNat 8 code] ++ leBytes 2 nid ++ [BitVec.ofNat 8 stage, 0, 0, 0] ++ time ++ slice data 0 16

/-- A node raises an event into the ring of a given world; the node's EVENTS counter counts it whatever becomes of the record. A
satellite sends the record up as an EVENT packet with its remote NID (R31, R455). -/
def raiseIn (worldS : Bool) (cls code nid : Nat) (data : List Byte) (stage : Nat := 0xFF) : Prog := .look fun s =>
  let rec' := fun (n : Nat) => eventRecord cls code n stage s.timeBytes data
  block [when (localNid nid) (bump (Node.counter nid none 6)),
    match (if s.on BootReg.role then s.upstream else none) with
    | some q => sendPacket q ⟨3, 2, boolNat worldS, s.dev.ownIndex, 0, 0, rec' (0x1000 * s.dev.ownIndex + nid)⟩
    | none => postEvent worldS (rec' nid)]

/-- A node raises an event: its record goes to the ring of the node's world (R166). -/
def raise (cls code nid : Nat) (data : List Byte) : Prog := .look fun s => raiseIn (s.nodeS nid) cls code nid data

/-- An event under a stage of a pipeline (R31). -/
def raiseStage (cls code nid stage : Nat) (data : List Byte) : Prog := .look fun s => raiseIn (s.nodeS nid) cls code nid data stage

/-- Would a limited event be held back now? -/
def State.limited (s : State) (cls code nid sub : Nat) : Bool :=
  s.dev.limits.any fun l => l.cls = cls && l.code = code && l.nid = nid && l.sub = sub && l.ms = s.now / 1000000

/-- A limited event (R225): at most one a millisecond for each code and node (or port); the data takes the count of
occurrences since the code was last raised, or what a step other than counting gathers. -/
def raiseLimitedIn (worldS : Bool) (cls code nid sub : Nat) (data : Nat → List Byte) (stage : Nat := 0xFF)
    (step : Nat → Nat := (· + 1)) : Prog := .look fun s =>
  let ms := s.now / 1000000
  let same := fun (l : LimitRec) => l.cls = cls && l.code = code && l.nid = nid && l.sub = sub
  let old := s.dev.limits.find? same
  let rest := s.dev.limits.filter fun l => !same l
  match old with
  | some l =>
    if l.ms = ms then dev fun d => { d with limits := ⟨cls, code, nid, sub, ms, step l.count⟩ :: rest }
    else block [dev fun d => { d with limits := ⟨cls, code, nid, sub, ms, 0⟩ :: rest },
      raiseIn worldS cls code nid (data (step l.count)) stage]
  | none => block [dev fun d => { d with limits := ⟨cls, code, nid, sub, ms, 0⟩ :: rest }, raiseIn worldS cls code nid (data (step 0)) stage]

def raiseLimited (cls code nid sub : Nat) (data : Nat → List Byte) (step : Nat → Nat := (· + 1)) : Prog := .look fun s =>
  raiseLimitedIn (s.nodeS nid) cls code nid sub data 0xFF step

/-- A limited event under a stage. -/
def raiseLimitedStage (cls code nid stage : Nat) (data : Nat → List Byte) : Prog := .look fun s =>
  raiseLimitedIn (s.nodeS nid) cls code nid (0x1000 + stage) data stage

/-- Event 0x01/0x24, outbound discard: function, stream or ring, and the count since the last such event (Table 3-12). -/
def raiseDiscard (fn what : Nat) : Prog := .look fun s =>
  let n := if fn = 0 then s.dev.host.discards0 else s.dev.host.discards1
  if n = 0 then .skip
  else block [setHost fun h => if fn = 0 then { h with discards0 := 0 } else { h with discards1 := 0 },
    raiseIn (fn = 1) 1 0x24 1 ([BitVec.ofNat 8 fn, BitVec.ofNat 8 what, 0, 0] ++ leBytes 4 n)]

/-- A posted write of a stream's or ring's data: a discarded one raises event 0x01/0x24. -/
def hostWriteFor (what : Nat) (w : HostWrite) : Prog := block [hostWrite w, raiseDiscard w.fn what]

end Sys2Proof.Machine
end

