-- ==== Sys2Proof/Machine/Clock.lean ====
section
/-! DEFINITION. The time base and what hangs on it: ticks, steps, slews, the alarm, captures and wake sources (R62, R94, R253 to R259,
R264 to R267). -/

namespace Sys2Proof.Machine
open Reg

def setPwr (f : PwrSt → PwrSt) : Prog := dev fun d => { d with pwr := f d.pwr }
def setTime (f : TimeSt → TimeSt) : Prog := dev fun d => { d with time := f d.time }

/-! Wake sources (Table 2-20). -/

/-- An enabled wake source starts the way from Standby to Armed; one that fires during entry wakes once entry is complete. -/
def wake (i : Nat) : Prog := look fun s =>
  if !bit s.dev.pwr.wakeMask i then .skip
  else if s.mode = mStandby ∧ !s.on ModeReg.pending then
    block [set ModeReg.target mArmed, set ModeReg.pending 1, set ModeReg.wakeSrc (i + 1)]
  else if s.on ModeReg.pending ∧ s.get ModeReg.target = mStandby then
    when s.dev.pwr.wakeNext.isNone (setPwr fun p => { p with wakeNext := some i })
  else .skip

/-! The time base (R253). -/

/-- The 12-byte form of a time: seconds, nanoseconds, fraction. -/
def time12 (sec ns frac : Nat) : List Byte := leBytes 6 sec ++ leBytes 4 ns ++ leBytes 2 frac

def State.time12 (s : State) : List Byte := Sys2Proof.Machine.time12 (s.now / 1000000000) (s.now % 1000000000) (s.get TimeReg.frac)

/-- Writing the time base, in nanoseconds and fraction. -/
def putTime (ns frac : Nat) : Prog := block [
  set TimeReg.secLo (ns / 1000000000), set TimeReg.secHi (ns / 1000000000 / 0x100000000), set TimeReg.ns (ns % 1000000000),
  set TimeReg.frac frac]

/-- The alarm time in nanoseconds. -/
def State.alarmAt (s : State) : Nat :=
  (s.get TimeReg.alarmSecLo + 0x100000000 * s.get TimeReg.alarmSecHi) * 1000000000 + s.get TimeReg.alarmNs

/-- The alarm fires: ALARM_HIT, event 0x05/0x0F, wake source 3 (R259). -/
def fireAlarm : Prog := look fun s => block [
  setTime fun t => { t with alarmArmed := false }, setFlag TimeReg.alarmHit,
  raise 5 0x0F 1 (0 :: Sys2Proof.Machine.time12 (s.alarmAt / 1000000000) (s.alarmAt % 1000000000) 0), wake 3]

/-- The time moves from one value to another: the alarm fires where it is passed. -/
def passAlarm (old new : Nat) : Prog := look fun s =>
  when (s.dev.time.alarmArmed && old < s.alarmAt && s.alarmAt ≤ new) fireAlarm

/-- ADDEND in 2^−32 ns. -/
def State.addend (s : State) : Nat := s.get TimeReg.addendFrac + 0x100000000 * s.get TimeReg.addendInt

def putAddend (v : Nat) : Prog := block [set TimeReg.addendFrac v, set TimeReg.addendInt (v / 0x100000000)]

/-- ELAPSED counts from the last reset release to FW_READY, then holds (Table 5-5). -/
def noteElapsed : Prog := look fun s =>
  when (s.mode = mBoot || (s.get BootReg.step ≠ 8 && !s.dev.boot.restarting))
    (set BootReg.elapsed (satNat (s.now / 1000 - s.dev.boot.resetUs) 0xFFFFFFFF))

/-- One aclk cycle of an unlock lockout (R544): LOCKOUT_MS is what is left of it. -/
def noteLockout : Prog := look fun s => when (s.dev.sec.lockout ≠ 0) (block [
  dev fun d => { d with sec := { d.sec with lockout := d.sec.lockout - 1 } }, set Dbg.lockoutMs (ceilDiv (s.dev.sec.lockout - 1) 25000)])

/-- One aclk cycle of the time base, which stands still while REFCLK is absent (R576). -/
def tick : Prog := look fun s => if s.dev.pwr.refclkLost then .skip else
  let f := s.get TimeReg.frac * 0x10000 + s.dev.time.low + s.addend
  let ns := s.now + f / 0x100000000
  block [putTime ns (f % 0x100000000 / 0x10000), setTime fun t => { t with low := f % 0x10000 }, passAlarm s.now ns, noteElapsed, noteLockout]

/-- A slew ends where it stands; the ADDEND before it returns. -/
def endSlew : Prog := look fun s =>
  match s.dev.time.slew with
  | some (a, _) => block [putAddend a, setTime fun t => { t with slew := none }]
  | none => .skip

/-- Periodic units resume with the first pulse after the current time; a one-shot unit whose time has passed is done, missed
(R267). -/
def pulseAt (s : State) (u k : Nat) : Nat :=
  (s.get (Pulse.startSecLo u) + 0x100000000 * s.get (Pulse.startSecHi u)) * 1000000000 + s.get (Pulse.startNs u)
    + (roundHalfUp ((k * (s.get (Pulse.periodFrac u) + 0x100000000 * s.get (Pulse.periodInt u)) : Nat)) 0x100000000).toNat

/-- The next pulse number of a unit. -/
def State.pulseNo (s : State) (u : Nat) : Nat := Tbl.get 0 s.dev.time.pulses u

def setPulseNo (u k : Nat) : Prog := setTime fun t => { t with pulses := Tbl.set 0 t.pulses u k }

/-- Pulse unit done: event 0x05/0x0D, the unit stops. -/
def pulseDone (u : Nat) (missed : Bool) : Prog := block [set (Pulse.enable u) 0, raise 5 0x0D 1 [BitVec.ofNat 8 u, BitVec.ofNat 8 (boolNat missed)]]

/-- The first pulse of a unit after the current time, from the last one's number. -/
def State.resumeNo (s : State) (u : Nat) : Nat :=
  let per := s.get (Pulse.periodFrac u) + 0x100000000 * s.get (Pulse.periodInt u)
  let d := s.now - pulseAt s u 0
  if s.now < pulseAt s u 0 ∨ per = 0 then 0
  else
    let k := d * 0x100000000 / per
    if s.now < pulseAt s u k then k else if s.now < pulseAt s u (k + 1) then k + 1 else k + 2

/-- After a time step and on wake from Standby. -/
def resumePulses : Prog := forEach (List.range 16) fun u => look fun s =>
  if !s.on (Pulse.enable u) then .skip
  else if s.on (Pulse.periodic u) then setPulseNo u (s.resumeNo u)
  else when (pulseAt s u 0 ≤ s.now) (pulseDone u true)

/-- A step of the time: the new value, STEPPED, the event with the step, the alarm and the pulse units (R255, R267, R269). -/
def stepTime (ns frac : Nat) : Prog := look fun s => block [
  endSlew, putTime ns frac, setTime fun t => { t with low := 0 }, setFlag TimeReg.stepped,
  raise 5 0x0C 1 (zeros 8 ++ leBytes 8 (unsigned 64 (sat ((ns : Int) - s.now) (-(2 ^ 63)) (2 ^ 63 - 1)))),
  passAlarm s.now ns, resumePulses]

/-- A slew of d ns: ADDEND held 500 ppm away until its end (R255). -/
def startSlew (d : Int) : Prog := block [endSlew, look fun s =>
  let base := 40 * 0x100000000
  let off := base / 2000
  let span := d.natAbs * 2000
  if d = 0 then .skip
  else block [setTime fun t => { t with slew := some (s.addend, s.now + span) },
    putAddend (if 0 < d then base + off else base - off)]]

/-! Captures (R264). -/

/-- A capture into the queue of a source: 16 entries, then lost. -/
def capture (src : Nat) (ns frac edge : Nat) : Prog := look fun s =>
  let q := Tbl.get [] s.dev.time.captures src
  let e := leBytes 8 (ns / 1000000000) ++ leBytes 4 (ns % 1000000000) ++ leBytes 2 frac ++ leBytes 1 edge ++ [0]
  if 16 ≤ q.length then
    block [bump (Pin.capLost src), countDropped 1,
      raiseLimited 5 0x0E 1 (0x100 + src) fun n => [BitVec.ofNat 8 src, 0, 0, 0] ++ leBytes 4 n]
  else block [setTime fun t => { t with captures := Tbl.set [] t.captures src (q ++ [e]) }, set (Pin.capLevel src) (q.length + 1)]

end Sys2Proof.Machine
end

