-- ==== Sys2Proof/Machine/Access.lean ====
section
/-! DEFINITION. Reading and writing internal words as any agent sees them, and the bridge's checks of host accesses (R112 to R124,
R591). -/

namespace Sys2Proof.Machine
open Reg

/-- The states of a node's descendants as SUBTREE_STATES shows them (R26, R595). Absent stages take no part. -/
def State.subtree (s : State) (nid : Nat) : Nat :=
  let mark := fun (acc : Nat) (n : Nat) => acc ||| 2 ^ (s.get (Node.state n))
  let pipes := fun (c : Nat) => (List.range 8).map fun k => 0x100 + 8 * c + k
  if 0x100 ≤ nid then 2 ^ (s.get (Node.state nid))
  else if 0x10 ≤ nid then (pipes (nid - 0x10)).foldl mark 0
  else (List.range 8).foldl (fun acc c => (pipes c).foldl mark (acc ||| 2 ^ (s.get (Node.state (0x10 + c))))) 0

/-- Does this device have members below it? -/
def State.grouped (s : State) : Bool := s.dev.group.any fun m => m.leftSeq = 0

/-- Rows opened (counter 0) or passed on (1) at the device count at its group node too (Table 1-7). -/
def countTop (k n : Nat) : Prog := look fun s =>
  block [bumpBy (Node.counter 1 none k) n, when s.grouped (bumpBy (Node.counter 0 none k) n)]

/-- The members directly below a device, by index. -/
def State.childrenOf (s : State) (d : Nat) : List Nat :=
  (s.dev.group.filter fun m => m.leftSeq = 0 && m.parent = d).map fun m => m.index

/-- The 64-byte header of a local node, of the top node or of a stage (Table 1-5, R595). -/
def State.header (s : State) (nid : Nat) (stage : Option Nat) : List Byte :=
  let group := nid = 0 && s.grouped
  let dv := if nid = 0 && !group then 1 else nid
  let level := match stage with
    | some _ => 0
    | none => if group then 4 else if nid < 2 then 3 else if nid < 0x100 then 2 else 1
  let func := match stage with | some k => if k < 12 then k else 0xFE | none => 0xFF
  let absent := match stage with | some k => decide (12 ≤ k) | none => false
  let below := s.dev.group.any fun m => m.leftSeq = 0 && m.joined && !m.hold
  let st := if absent then 0 else if group && below then stRunning else s.get (Node.state (if group then 1 else dv))
  let dom := if group then 0xFF else if dv < 0x10 then 6 else if dv < 0x100 then 13 + (dv - 0x10) else 29 + (dv - 0x100)
  let wrld := boolNat (s.nodeS dv) + 2 * boolNat (s.on Wld.locked)
  let parent := match stage with
    | some _ => nid
    | none => if nid = 0 then 0xFFFF else if nid = 1 then (if s.grouped then 0 else 0xFFFF)
              else if nid < 0x100 then 1 else 0x10 + (nid - 0x100) / 8
  let first := match stage with
    | some _ => 0xFFFF
    | none => if group then 1 else if dv < 0x10 then 0x10 else if dv < 0x100 then 0x100 + 8 * (dv - 0x10) else dv
  let kids := match stage with
    | some _ => 0
    | none => if group then 1 + (s.childrenOf s.dev.ownIndex).length else if dv < 0x100 then 8 else 16
  let sub := match stage with
    | some _ => 0
    | none => if group then s.subtree 1 ||| 2 ^ (s.get (Node.state 1)) else s.subtree dv
  let lat := match stage with | some k => s.get (Node.stageLatency (nid - 0x100) k) | none => s.get (Node.latency nid)
  let clk := if dv < 0x10 then 1 else 2
  let base := match stage with
    | some k => 0x20000000 + 0x100000 * (nid - 0x100) + 0x1000 * k
    | none => if group then 0 else if dv < 0x10 then 0x01000000
              else if dv < 0x100 then 0x10000000 + 0x01000000 * (dv - 0x10) else 0x20000000 + 0x100000 * (dv - 0x100)
  let ts := if absent then 0 else s.get (Node.timeSec (if group then 1 else dv))
  let tn := if absent then 0 else s.get (Node.timeNs (if group then 1 else dv))
  leBytes 2 nid ++ leBytes 1 level ++ leBytes 1 func ++ leBytes 1 st ++ leBytes 1 dom ++ leBytes 1 wrld ++ leBytes 1 1
    ++ leBytes 2 parent ++ leBytes 2 first ++ leBytes 2 kids ++ leBytes 2 sub ++ leBytes 4 lat ++ leBytes 1 clk ++ zeros 3
    ++ leBytes 8 base ++ leBytes 4 ts ++ leBytes 4 tn ++ zeros 24

/-- The two-wire status register: BOOT_STATUS bits [15:0] until hand-over (R182), then Table 15-3. -/
def State.twStatus (s : State) : Nat :=
  if s.mode = mBoot then (s.reg 0x10000001000).toNat % 0x10000
  else
    let t := s.dev.tw
    t.state + 8 * boolNat (s.on (Mbx.fwReady 0x10000004000)) + 16 * s.mode + 0x100 * t.lastStatus
      + 0x10000 * s.get Therm.state + 0x100000 * boolNat t.respReady + 0x200000 * boolNat t.dbLost
      + 0x400000 * boolNat t.alertFail + 0x800000 * boolNat t.protoErr + 0x1000000 * boolNat t.inTimeout

/-- Occupancy of the outbound posted buffer in KiB (Table 3-5 QUEUE_OCC); each inbound write is one step, so the inbound queues
are empty between commands. -/
def State.queueOcc (s : State) : Nat :=
  satNat (ceilDiv ((s.dev.host.waiting.map HostWrite.size).foldl (· + ·) 0) 1024) 128 * 0x10000

/-- Does a header or counter word read as damaged (R511)? -/
def State.damaged (s : State) (a : Nat) : Bool :=
  0x01100000 ≤ a && a < 0x01140000 && s.dev.ecc.any fun e => e.1 = a / 8 * 8 && e.2 = 2

/-- The word at an internal or model address as a reader sees it. -/
def State.word (s : State) (a : Nat) : Nat :=
  if s.damaged a then 0xFFFFFFFF
  else if 0x01100000 ≤ a ∧ a < 0x01110000 then leAt (s.header ((a - 0x01100000) / 0x40) none) ((a - 0x01100000) % 0x40) 4
  else if 0x01110000 ≤ a ∧ a < 0x01120000 then
    leAt (s.header (0x100 + (a - 0x01110000) / 0x400) (some ((a - 0x01110000) / 0x40 % 16))) ((a - 0x01110000) % 0x40) 4
  else if 0x01120000 ≤ a ∧ a < 0x01120040 ∧ !s.grouped then (s.reg (a + 0x40)).toNat
  else if a = 0x01600004 then s.twStatus
  else if a = 0x01300048 ∨ a = 0x01310048 then s.queueOcc
  else if isMemory a ∨ 0x10001000000 ≤ a then leVal (s.bytes a 4)
  else (s.reg a).toNat

/-- A run of bytes as a reader sees them. -/
def State.peek (s : State) (a n : Nat) : List Byte :=
  let w0 := a / 4 * 4
  slice ((List.range ((a + n - w0 + 3) / 4)).flatMap fun i => leBytes 4 (s.word (w0 + 4 * i))) (a - w0) n

/-! The BAR maps. -/

/-- Where a BAR0 offset leads: an internal or model address, or none where no block lies (Table 3-3). -/
def bar0Addr (fn off : Nat) : Option Nat :=
  if off < 0x1000 then some (0x01000000 + off)
  else if off < 0x1100 then some (hostKey 0 off)
  else if 0x2000 ≤ off ∧ off < 0x2100 then some (0x01300000 + 0x10000 * fn + (off - 0x2000))
  else if 0x3000 ≤ off ∧ off < 0x3810 then some (hostKey fn off)
  else if 0x4000 ≤ off ∧ off < (if fn = 0 then 0x8000 else 0x6000) then some (hostKey fn off)
  else if 0x8000 ≤ off ∧ off < 0x8100 then some (hostKey fn off)
  else if 0x9000 ≤ off ∧ off < 0xA000 then some (0x01320000 + (off - 0x9000))
  else none

/-- The registers of data port n of function fn. -/
def dportBase (fn n : Nat) : Nat := hostKey fn (0x8000 + 0x40 * n)

/-- A data port's address register and increment in bytes (Table 4-16). -/
def State.dpAddr (s : State) (fn n : Nat) : Nat :=
  s.get (DPort.addrLo (dportBase fn n)) * 4 + 0x100000000 * s.get (DPort.addrHi (dportBase fn n))
def State.dpInc (s : State) (fn n : Nat) : Nat :=
  match s.get (DPort.inc (dportBase fn n)) with | 0 => 4 | 1 => 8 | _ => 64

/-- Byte o of a data-port window (R158). -/
def State.dpByte (s : State) (fn n o : Nat) : Nat := (s.dpAddr fn n + o / 4 * s.dpInc fn n + o % 4) % 0x10000000000

/-- Where a BAR2 offset leads (Table 3-4). -/
def State.bar2Addr (s : State) (fn off : Nat) : Option Nat :=
  if off < 0x2000 then some (s.dpByte fn (off / 0x1000) (off % 0x1000))
  else if 0x10000 ≤ off ∧ off < 0x14000 then some (statusPageBase fn + (off - 0x10000))
  else if 0x100000 ≤ off ∧ off < 0x200000 then some (0x100000000 + (off - 0x100000))
  else if 0x200000 ≤ off ∧ off < 0x400000 then some (s.get (Bridge.sramWinBase fn) * 0x10000 + (off - 0x200000))
  else if 0x800000 ≤ off ∧ off < 0x1000000 ∧ fn = 0 then some (0x102800000 + (off - 0x800000))
  else none

def State.barAddr (s : State) (fn : Nat) (bar : Bar) (off : Nat) : Option Nat :=
  match bar with | .bar0 => bar0Addr fn off | .bar2 => s.bar2Addr fn off

/-- Is an internal address mapped (R40, R42)? A remote window needs an assigned device index. -/
def State.mapped (s : State) (a : Nat) : Bool :=
  (Reg.info (a / 4 * 4)).isSome || isMemory a || isService a || 0x10000000000 ≤ a
  || (0x4000000000 ≤ a && a < 0x8000000000)
  || (0x8000000000 ≤ a && a < 0x10000000000 &&
      s.dev.group.any fun m => m.index = (a - 0x8000000000) / 0x800000000 && m.index ≠ 0)

/-- May the host write a word, for its direction (check 4 of R118)? -/
def State.writable (s : State) (a : Nat) : Bool :=
  let w := a / 4 * 4
  if 0x10000004000 ≤ w ∧ w < 0x10000020000 ∧ 0x4000 ≤ w % 0x10000 ∧ w % 0x10000 < 0x8000 ∧ w % 0x1000 < 0x800 then
    w % 0x1000 < 0x400 && s.get (Mbx.state (w / 0x1000 * 0x1000)) = 0
  else if 0x10001000000 ≤ w then false
  else if w = 0x10000001010 then s.on BootReg.waiting && s.get BootReg.source = 0
  else if w = 0x01300008 then false
  else if 0x02400000 ≤ w ∧ w < 0x02C00000 then false
  else if isService w then false
  else if 0x10000000 ≤ w ∧ w < 0x24000000 ∧ isMemory w then false
  else if w = 0x01600004 ∨ w = 0x01800100 then false
  else if isMemory w ∨ (0x4000000000 ≤ w ∧ w < 0x10000000000) then true
  else match Reg.info w with
    | some i => i.w1c ≠ 0 || i.wr ≠ 0
    | none => false

/-- The check of one word of an access under R118, in its order: 0 passes, else the cause code of Table 3-7. -/
def State.check (s : State) (fn : Nat) (bar : Bar) (off : Nat) (write : Bool) : Nat :=
  let bootOk := match bar with
    | .bar0 => decide (off < 0x4000)
    | .bar2 => write && fn = 0 && decide (0x800000 ≤ off) && decide (off < 0xB00000)
      && s.on BootReg.waiting && s.get BootReg.source = 0 && !s.dev.boot.go
  if s.mode = mBoot ∧ !bootOk then 3
  else match s.barAddr fn bar off with
    | none => 1
    | some a =>
      if !s.mapped a ∧ bar = .bar2 then 1
      else if bar = .bar0 ∧ 0x01320A80 ≤ a ∧ a < 0x01321000 then (if write then 1 else 0)
      else if bar = .bar0 ∧ !write ∧ 0x01320000 ≤ a ∧ a < 0x01321000 then 0
      else if fn = 0 ∧ s.addrS a then 2
      else if fn = 1 ∧ 0x8000000000 ≤ a ∧ a < 0x10000000000 ∧ s.keyDefaultTo ((a - 0x8000000000) / 0x800000000) then 2
      else if write ∧ !s.writable a then 5
      else if (s.offNode a).isSome ∨ s.bankOff a then 4
      else if write ∧ 0x8000000000 ≤ a ∧ a < 0x10000000000 ∧ !s.pathUp ((a - 0x8000000000) / 0x800000000) then 1
      else 0

/-- The bytes that a host read of an internal word returns; slots of the other world and reserved slots read zero (R112). -/
def State.readHost (s : State) (fn : Nat) (a n : Nat) : List Byte :=
  if (fn = 0 ∧ s.addrS a) ∨ (0x01320A80 ≤ a ∧ a < 0x01321000) ∨ isService a then zeros n else s.peek a n

/-! Posted-write faults. -/

/-- A faulting posted write: the log while POSTED_FAULT is clear, the flag, event 0x01/0x20 and vector 0 of the writing function
(R124). An address that does not exist is logged as the BAR offset with bit 39 set. -/
def postedFault (fn : Nat) (bar : Bar) (addr : Option Nat) (off cause len : Nat) : Prog := .look fun s =>
  let a := match addr with
    | some x => if x < 0x10000000000 then x else off + 0x8000000000
    | none => off + 0x8000000000
  block [
    when (!s.on (Bridge.postedFault fn)) (block [
      set (Bridge.faultAddrLo fn) a, set (Bridge.faultAddrHi fn) (a / 0x100000000), set (Bridge.cause fn) cause,
      set (Bridge.world fn) fn, set (Bridge.bar fn) (match bar with | .bar0 => 0 | .bar2 => 1), set (Bridge.length fn) len]),
    setFlag (Bridge.postedFault fn), countDropped 1,
    raiseIn (fn = 1) 1 0x20 1 (leBytes 8 a ++ leBytes 1 fn ++ leBytes 1 cause ++ leBytes 2 len),
    sendMsix fn 0]

/-- 'Write to unpowered node' under the node's NID (R28). -/
def raiseUnpowered (nid a : Nat) : Prog := raise 3 0x0C nid (leBytes 8 a)

end Sys2Proof.Machine
end

