-- ==== Sys2Proof/Machine/Operands.lean ====
section
/-! DEFINITION. The operands of a command: requests, TLV parameters, node addresses and mailboxes (R20, R21, R135 to R145). -/

namespace Sys2Proof
open Machine

/-! Mailboxes. -/

/-- The model key of a host mailbox's buffers and registers. -/
def MbId.base : MbId → Nat
  | .pf0 m => hostKey 0 (0x4000 + 0x1000 * m.val)
  | .pf1 m => hostKey 1 (0x4000 + 0x1000 * m.val)
  | .twoWire => 0
  | .cascade _ _ => 0

/-- The mailbox code of event data and key 0x000A: index, bit 7 for PF1, 0x7F for the two-wire mailbox (Table 4-22). -/
def MbId.code : MbId → Nat
  | .pf0 m => m.val
  | .pf1 m => 0x80 + m.val
  | .twoWire => 0x7F
  | .cascade _ _ => 0x7E

def MbId.fn : MbId → Nat
  | .pf1 _ => 1
  | _ => 0

/-- The payload that LENGTH covers. -/
def Req.body (r : Req) : List Byte := slice r.payload 0 (if 1008 < r.length.toNat then 1008 else r.length.toNat)

end Sys2Proof

namespace Sys2Proof.Machine
open Reg

/-- Does a mailbox serve the S world (R135, R491)? -/
def State.mbS (s : State) (m : MbId) : Bool :=
  match m with | .pf0 _ => false | .pf1 _ => true | .twoWire => s.on Wld.twS | .cascade a _ => a

/-- A mailbox's STATE: 0 Idle, 1 Queued, 2 Taken, 3 Response ready (Table 4-3); the two-wire mailbox's MB_STATE maps onto it. -/
def State.mbState (s : State) (m : MbId) : Nat :=
  match m with
  | .twoWire => if s.dev.tw.state = 0 then 0 else s.dev.tw.state - 1
  | .cascade _ _ => 0
  | _ => s.get (Mbx.state m.base)

def setTw (f : TwMail → TwMail) : Prog := dev fun d => { d with tw := f d.tw }

def setMbState (m : MbId) (v : Nat) : Prog :=
  match m with
  | .twoWire => setTw fun t => { t with state := if v = 0 then 0 else v + 1 }
  | .cascade _ _ => .skip
  | _ => set (Mbx.state m.base) v

/-- FW_READY as the mailboxes show it; every mailbox shows the same bit. -/
def State.fwReady (s : State) : Bool := s.on (Mbx.fwReady (hostKey 0 0x4000))

def allMailboxes : List MbId := [.pf1 0, .pf1 1, .pf0 0, .pf0 1, .pf0 2, .pf0 3]

def setFwReady (v : Bool) : Prog := forEach allMailboxes fun m => set (Mbx.fwReady m.base) (boolNat v)

/-! Requests. -/

/-- The 16 header bytes of a request and its payload (Table 4-5). -/
def reqBytes (cls code : Nat) (r : Req) : List Byte :=
  leBytes 4 (r.flags.toNat + 0x100 * r.version.toNat + 0x10000 * code + 0x1000000 * cls) ++ leBytes 4 r.tag.toNat
    ++ leBytes 2 r.length.toNat ++ leBytes 2 r.rsv.toNat ++ leBytes 4 r.node.toNat ++ r.payload

/-- The request that bytes spell, with its class and command code. -/
def readReq (bs : List Byte) : Nat × Nat × Req :=
  let op := leAt bs 0 4
  let len := leAt bs 8 2
  (op / 0x1000000 % 256, op / 0x10000 % 256,
    ⟨BitVec.ofNat 8 op, BitVec.ofNat 8 (op / 256), BitVec.ofNat 32 (leAt bs 4 4), BitVec.ofNat 16 len,
     BitVec.ofNat 16 (leAt bs 10 2), BitVec.ofNat 32 (leAt bs 12 4), (slice bs 16 (if 1008 < len then 1008 else len))⟩)

/-- A TLV (Table 4-8). -/
structure Tlv where
  key : Nat
  val : List Byte
  deriving DecidableEq, Repr

/-- A TLV with a little-endian value of n bytes. -/
def tlv (k n v : Nat) : Tlv := ⟨k, leBytes n v⟩

/-- A TLV laid out: key, length, value, zero padding to four bytes. -/
def Tlv.bytes (t : Tlv) : List Byte := leBytes 2 t.key ++ leBytes 2 t.val.length ++ padTo 4 t.val

def tlvBytes (ts : List Tlv) : List Byte := ts.flatMap Tlv.bytes

/-- The TLVs of a payload; none where one overruns it or its padding is not zero (0x14). -/
def parseTlvs : Nat → List Byte → Option (List Tlv)
  | 0, bs => if bs = [] then some [] else none
  | f + 1, bs =>
    if bs = [] then some []
    else
      let len := leAt bs 2 2
      let full := (len + 3) / 4 * 4
      if bs.length < 4 + full then none
      else if ((bs.drop (4 + len)).take (full - len)).any (· ≠ 0) then none
      else match parseTlvs f (bs.drop (4 + full)) with
        | some ts => some (⟨leAt bs 0 2, (bs.drop 4).take len⟩ :: ts)
        | none => none

/-! Nodes. -/

/-- What a node address names (R20, R21): a level, with the numbers that place it, and the device index of its device. -/
inductive NodeKind where
  | group
  | device
  | cluster (c : Nat)
  | pipeline (p : Nat)
  | stage (p k : Nat)
  deriving DecidableEq, Repr

structure Target where
  dev : Nat
  kind : NodeKind
  nid : Nat
  own : Bool
  deriving DecidableEq, Repr

/-- The kind of a NID with its device part taken off. -/
def nidKind (n : Nat) : Option NodeKind :=
  if n = 1 then some .device
  else if 0x10 ≤ n ∧ n < 0x18 then some (.cluster (n - 0x10))
  else if 0x100 ≤ n ∧ n < 0x140 then some (.pipeline (n - 0x100))
  else none

/-- Resolving a node address; none for 0x13. Remote NIDs need a device index assigned to a member; 0x1000 × d names the group
under d where d has satellites, and NID 0 the group where a cascade exists, else the local device (R16, R17). A NID without a
device part names this device. -/
def State.target (s : State) (addr : Nat) : Option Target :=
  let nid := addr % 0x10000
  let sel := bit addr 20
  let d := nid / 0x1000
  let low := nid % 0x1000
  if 0x200000 ≤ addr then none
  else if nid = 0xFFFF then none
  else if d ≠ 0 ∧ d ≠ s.dev.ownIndex ∧ !(s.dev.group.any fun m => m.index = d) then none
  else
    let dev := if d = 0 then s.dev.ownIndex else d
    let k := if nid = 0 then some (if s.grouped then NodeKind.group else .device)
             else if low = 0 then (if (s.childrenOf d).isEmpty then none else some .group)
             else nidKind low
    match k with
    | none => none
    | some k =>
      if sel then
        match k with
        | .pipeline p => some ⟨dev, .stage p (addr / 0x10000 % 16), nid, dev == s.dev.ownIndex⟩
        | _ => none
      else some ⟨dev, k, nid, dev == s.dev.ownIndex⟩

/-- Levels a command accepts. -/
inductive Level where
  | stage | pipeline | cluster | device | group
  deriving DecidableEq, Repr

def NodeKind.level : NodeKind → Level
  | .group => .group
  | .device => .device
  | .cluster _ => .cluster
  | .pipeline _ => .pipeline
  | .stage _ _ => .stage

/-- The local NID of a target as its own device numbers it. -/
def Target.local (t : Target) : Nat :=
  match t.kind with
  | .group => 0
  | .device => 1
  | .cluster c => 0x10 + c
  | .pipeline p => 0x100 + p
  | .stage p _ => 0x100 + p

/-- The node a command acts on: a node of this device by its local NID, another by its remote one. -/
def Target.home (t : Target) : Nat := if t.own then t.local else t.nid

/-! The context of a command being executed. -/

structure Ctx where
  mb : MbId
  cls : Nat
  code : Nat
  req : Req
  tlvs : List Tlv
  tgt : Target
  take : Nat
  deriving DecidableEq, Repr

def Ctx.find (c : Ctx) (k : Nat) : Option Tlv := c.tlvs.find? fun t => t.key = k
def Ctx.has (c : Ctx) (k : Nat) : Bool := (c.find k).isSome
def Ctx.bytes (c : Ctx) (k : Nat) : List Byte := match c.find k with | some t => t.val | none => []
/-- The little-endian value of a key, 0 where the key is absent. -/
def Ctx.val (c : Ctx) (k : Nat) : Nat := leVal (c.bytes k)
/-- The value of a key, or a default. -/
def Ctx.valD (c : Ctx) (k d : Nat) : Nat := if c.has k then c.val k else d
/-- Every value of a key that may be repeated. -/
def Ctx.all (c : Ctx) (k : Nat) : List (List Byte) := (c.tlvs.filter fun t => t.key = k).map Tlv.val
/-- The elements of n bytes in a list value. -/
def Ctx.elems (c : Ctx) (k n : Nat) : List (List Byte) := chunks n (c.bytes k).length (c.bytes k)
/-- Byte o of a key's value and fields within it. -/
def Ctx.at (c : Ctx) (k o n : Nat) : Nat := leAt (c.bytes k) o n

/-- The pipeline, cluster or stage a local target names; 0 where it names none. -/
def Ctx.pipe (c : Ctx) : Nat := match c.tgt.kind with | .pipeline p => p | .stage p _ => p | _ => 0
def Ctx.cluster (c : Ctx) : Nat := match c.tgt.kind with | .cluster k => k | .pipeline p => p / 8 | .stage p _ => p / 8 | _ => 0

/-- A key that a command takes: its lengths (from, to, in steps), whether it must be there, whether it may be repeated, and the
range of its value read as a little-endian number (values of more than 8 bytes are not ranged here). -/
structure KeySpec where
  key : Nat
  minLen : Nat
  maxLen : Nat
  step : Nat
  required : Bool
  list : Bool
  lo : Nat
  hi : Nat
  deriving DecidableEq, Repr

/-- A required key of n bytes with a range. -/
def need (k n lo hi : Nat) : KeySpec := ⟨k, n, n, 1, true, false, lo, hi⟩
/-- An optional key of n bytes with a range. -/
def opt (k n lo hi : Nat) : KeySpec := ⟨k, n, n, 1, false, false, lo, hi⟩
/-- A key whose length the manual does not state: any length of 1 to 8 bytes (log entry 14). -/
def needAny (k lo hi : Nat) : KeySpec := ⟨k, 1, 8, 1, true, false, lo, hi⟩
def optAny (k lo hi : Nat) : KeySpec := ⟨k, 1, 8, 1, false, false, lo, hi⟩
/-- A key of raw bytes. -/
def raw (k mn mx step : Nat) (req : Bool) : KeySpec := ⟨k, mn, mx, step, req, false, 0, 0xFFFFFFFFFFFFFFFF⟩

/-- Staging keys of R160, R161. -/
def stagingKeys : List KeySpec := [need 0xF001 4 0 0xFFFFFFFF, need 0xF002 4 0 0xFFFFFFFF, need 0xF003 4 0 0xFFFFFFFF]
/-- Result-region keys of R163. -/
def resultKeys : List KeySpec := [opt 0xF004 4 0 0xFFFFFFFF, opt 0xF005 4 0 0xFFFFFFFF]

/-- Does a TLV fit its key's specification? -/
def KeySpec.fits (k : KeySpec) (t : Tlv) : Bool :=
  k.minLen ≤ t.val.length && t.val.length ≤ k.maxLen && (t.val.length - k.minLen) % k.step = 0
  && (8 < t.val.length || (k.lo ≤ leVal t.val && leVal t.val ≤ k.hi))

/-- The first key that breaks the rules of 0x12: repeated, unknown in 0x0001 to 0x7FFF or among the common keys, invalid, of the
wrong length, out of range, or missing. -/
def badKey (ks : List KeySpec) (ts : List Tlv) : Option Nat :=
  let rec scan (seen : List Nat) : List Tlv → Option Nat
    | [] => none
    | t :: rest =>
      match ks.find? fun k => k.key = t.key with
      | none => if 0x8000 ≤ t.key ∧ t.key < 0xF000 then scan (t.key :: seen) rest else some t.key
      | some k =>
        if t.key ∈ seen ∧ !k.list then some t.key
        else if !k.fits t then some t.key
        else scan (t.key :: seen) rest
  match scan [] ts with
  | some k => some k
  | none => (ks.find? fun k => k.required && !(ts.any fun t => t.key = k.key)).map KeySpec.key

end Sys2Proof.Machine
end

