-- ==== Sys2Proof/Machine/Command.lean ====
section
/-! DEFINITION. How firmware takes, checks, answers and completes a command (R138 to R154, R160 to R163, R590, R593, R594). -/

namespace Sys2Proof.Machine
open Reg

/-! Alerts of the two-wire target (R493). -/

/-- Raising an alert class: pending once, sent in ascending class order. -/
def raiseAlert (cls : Nat) : Prog := .look fun s =>
  if s.on TwT.alertEn && bit (s.get TwT.alertMask) (cls - 1) && !(s.dev.tw.alerts.contains cls) then
    setTw fun t => { t with alerts := (t.alerts.filter (· < cls)) ++ [cls] ++ (t.alerts.filter (cls < ·)) }
  else .skip

/-- Setting a W1C flag of the two-wire status register: bit 20 + i with its counter (Table 15-3). -/
def twFlag (i : Nat) : Prog := block [
  setTw fun t => match i with
    | 0 => { t with respReady := true } | 1 => { t with dbLost := true } | 2 => { t with alertFail := true }
    | 3 => { t with protoErr := true } | _ => { t with inTimeout := true },
  bump (TwT.flagCount i)]

/-! Responses and completion events. -/

/-- A response (Table 4-6). -/
def respBytes (cls code : Nat) (r : Req) (version status nid : Nat) (ts : List Tlv) : List Byte :=
  leBytes 4 (r.flags.toNat + 0x100 * version + 0x10000 * code + 0x1000000 * cls) ++ leBytes 4 r.tag.toNat
    ++ leBytes 2 (tlvBytes ts).length ++ leBytes 1 status ++ [0] ++ leBytes 2 nid ++ [0, 0] ++ tlvBytes ts

/-- The response is written in full, LAST_STATUS and RESP_READY are set, STATE becomes Response ready, and the interrupt or
the alert is sent (R138, R491). -/
def putResponse (m : MbId) (noMsi : Bool) (status : Nat) (bs : List Byte) : Prog :=
  match m with
  | .twoWire => block [setTw fun t => { t with resp := bs, lastStatus := status }, set TwT.outptr 0, twFlag 0,
      setMbState m 3, raiseAlert 1]
  | .cascade auth tag => look fun s => block [
      dev fun d => { d with answered := (tag.toNat, bs) :: d.answered },
      match s.upstream with
      | some q => sendPacket q ⟨4, 2, boolNat auth, s.dev.ownIndex, 0, tag.toNat, bs⟩
      | none => .skip]
  | _ => block [clearMem (m.base + 0x400) 0x400, setBytes (m.base + 0x400) bs, set (Mbx.lastStatus m.base) status,
      setFlag (Mbx.respReady m.base), setMbState m 3,
      when (!noMsi) (sendMsix m.fn (1 + (m.base / 0x1000) % 0x10 - 4))]

def respond (m : MbId) (cls code : Nat) (r : Req) (version status nid : Nat) (ts : List Tlv) : Prog :=
  putResponse m (bit r.flags.toNat 0) status (respBytes cls code r version status nid ts)

/-- The bytes of the request that a mailbox holds. -/
def State.mbBytes (s : State) (m : MbId) : List Byte :=
  match m with
  | .twoWire => s.dev.tw.words.flatMap fun w => leBytes 4 w.toNat
  | .cascade _ _ => []
  | _ => s.bytes m.base 1024

def dropBell (m : MbId) : Prog := dev fun d => { d with doorbells := d.doorbells.filter fun x => x ≠ m }

/-- The wait that the mailbox hardware gives while firmware is not ready (R593, R491). -/
def State.notReadyWait (s : State) (m : MbId) : Nat :=
  if m = .twoWire ∧ s.mode = mStandby then 3000
  else if s.on Dbg.halted then 0xFFFFFFFF
  else if s.dev.boot.swapStep then 50000 else 100000

/-- The mailbox hardware answers a doorbell with 0x30 (R139). -/
def hwBusy (m : MbId) : Prog := look fun s =>
  match readReq (s.mbBytes m) with
  | (cls, code, r) => block [dropBell m,
      respond m cls code r r.version.toNat 0x30 (r.node.toNat % 0x10000) [tlv 0xF014 4 (s.notReadyWait m)]]

/-- Event 0x01/0x01, command completed, in the ring of the mailbox's world (Table 4-22, R166). -/
def raiseCompleted (e : Cmd) (status : Nat) : Prog := .look fun s =>
  raiseIn (s.mbS e.mb) 1 1 1 (leBytes 4 e.req.tag.toNat
    ++ leBytes 4 (e.req.flags.toNat + 0x100 * e.req.version.toNat + 0x10000 * e.code + 0x1000000 * e.cls)
    ++ leBytes 1 status ++ leBytes 1 e.mb.code ++ leBytes 4 e.result ++ [0, 0])

def setJournal (f : List Cmd → List Cmd) : Prog := dev fun d => { d with journal := f d.journal }

def dropCmd (seq : Nat) : Prog := setJournal fun j => j.filter fun e => e.seq ≠ seq

/-- Does a command still wait for the completion event of a member? -/
def State.awaited (s : State) (take : Nat) : Bool := s.dev.ctlWaits.any fun w => w.use = .completion take

/-- The status of a command of which parts ended with two statuses: the first that is not 0. -/
def worseOf (a b : Nat) : Nat := if a = 0 then b else a

/-- A command that returned 0x01, or that was armed, completes: its event is written and it leaves the journal (R151). Where members of a
group have not completed it yet, it waits for them (R61). -/
def completeCmd (e : Cmd) (status : Nat) : Prog := look fun s =>
  if s.awaited e.seq then
    setJournal fun j => j.map fun x => if x.seq = e.seq then { x with phase := .remote, status := worseOf x.status status, answered := true } else x
  else block [raiseCompleted e (worseOf e.status status), dropCmd e.seq]

/-- A member has completed its part of a command: with the last part the command completes, with the first status that is not 0. -/
def memberDone (w : CtlWait) (take status : Nat) : Prog := block [
  dev fun d => { d with ctlWaits := d.ctlWaits.erase w },
  setJournal fun j => j.map fun x => if x.seq = take then { x with status := worseOf x.status status } else x,
  look fun s => match s.dev.journal.find? fun x => x.seq = take with
    | some e => when (e.phase = .remote && e.answered && !s.awaited take) (block [raiseCompleted e e.status, dropCmd take])
    | none => .skip]

/-- The oldest pending command of a class and code that acts on a node. -/
def State.pendingCmd (s : State) (cls code node : Nat) : Option Cmd :=
  s.dev.journal.find? fun e => e.cls = cls && e.code = code && e.node = node && e.phase = .pending

/-- The completion of the oldest pending command of a kind on a node: its own effect first, then its event. -/
def finish (cls code node : Nat) (k : Cmd → Prog) (status : Nat) : Prog := .look fun s =>
  match s.pendingCmd cls code node with
  | some e => block [k e, look fun s =>
      match s.dev.journal.find? fun x => x.seq = e.seq with
      | some e' => completeCmd e' status
      | none => .skip]
  | none => .skip

def stagingBase : Nat := 0x102800000

/-- A TLV of a journalled request. -/
def Cmd.find (e : Cmd) (k : Nat) : Option Tlv := (parseTlvs 252 e.req.body).bind fun ts => ts.find? fun t => t.key = k

/-- The little-endian value of a key of a journalled request. -/
def Cmd.val (e : Cmd) (k : Nat) : Nat := match e.find k with | some t => leVal t.val | none => 0

/-- The bytes of a key of a journalled request. -/
def Cmd.bytes (e : Cmd) (k : Nat) : List Byte := match e.find k with | some t => t.val | none => []

/-- The completion of the oldest pending command of a kind that names a value under a key. -/
def finishKey (cls code key v : Nat) (k : Cmd → Prog) (status : Nat) : Prog := .look fun s =>
  match s.dev.journal.find? fun e => e.cls = cls && e.code = code && e.phase = .pending && e.val key = v with
  | some e => block [k e, look fun s =>
      match s.dev.journal.find? fun x => x.seq = e.seq with
      | some e' => completeCmd e' status
      | none => .skip]
  | none => .skip

/-- A completion writes its result into the region its command named (R163, R594). -/
def putResult (e : Cmd) (bs : List Byte) : Prog :=
  when (e.find 0xF004).isSome (block [setBytes (stagingBase + e.val 0xF004) bs,
    setJournal fun j => j.map fun x => if x.seq = e.seq then { x with result := bs.length } else x])

/-! Powering a cluster and its pipelines before a command touches them (R590). -/

def powerCluster (c : Nat) : Prog := .look fun s =>
  if s.domainOn (13 + c) then .skip
  else block [setDomain (13 + c) true false, setDomain (21 + c) true false,
    when (s.get (Node.state (nidCluster c)) = stOff) (setState (nidCluster c) stGated)]

def powerPipe (p : Nat) : Prog := block [powerCluster (p / 8), look fun s =>
  if s.get (Node.state (nidPipe p)) = stOff then block [setDomain (29 + p) true false, setState (nidPipe p) stGated] else .skip]

def powerTarget (k : NodeKind) : Prog :=
  match k with
  | .cluster c => powerCluster c
  | .pipeline p => powerPipe p
  | .stage p _ => powerPipe p
  | _ => .skip

/-! Control requests to members (R470). -/

/-- A control request to a member goes down the first quad of its path. The payload that follows the packet header is the model's
own layout (log entry 8). -/
def sendCtrl (member : Nat) (auth : Bool) (use : CtlFor) (payload : List Byte) : Prog := look fun s =>
  match s.quadTo member with
  | some q => block [
      dev fun d => { d with ctlTag := (d.ctlTag + 1) % 0x100000000, ctlWaits := d.ctlWaits ++ [⟨d.ctlTag, member, use⟩] },
      sendPacket q ⟨5, 3, boolNat auth, s.dev.ownIndex, member, s.dev.ctlTag, payload⟩]
  | none => .skip

/-! Staging and result regions. -/

/-- The offending key of a region named by an offset and a length (R160, R163): none where the region keeps the rules. -/
def regionBad (c : Ctx) (ko kl : Nat) : Option Nat :=
  if c.val ko % 64 ≠ 0 ∨ 0x800000 ≤ c.val ko then some ko
  else if c.val kl % 4 ≠ 0 ∨ 0x800000 < c.val ko + c.val kl then some kl
  else none

/-- Does a region lie in a granule that the mailbox's world may not reach? -/
def regionDenied (c : Ctx) (s : State) (ko kl : Nat) : Bool :=
  !s.reachRange (s.mbS c.mb) (stagingBase + c.val ko) (c.val kl)

/-- The copy of the staged region. -/
def staged (c : Ctx) (s : State) : List Byte := s.bytes (stagingBase + c.val 0xF001) (c.val 0xF002)

/-- Does the staging check value match (R161)? -/
def stagedOk (c : Ctx) (s : State) : Bool :=
  houseCrc (leBytes 4 (c.val 0xF001) ++ leBytes 4 (c.val 0xF002)) (staged c s) = c.val 0xF003

/-- The offending key of a result region, where one is named. -/
def resultBad (c : Ctx) : Option Nat :=
  if c.has 0xF004 then (if c.has 0xF005 then regionBad c 0xF004 0xF005 else some 0xF005)
  else if c.has 0xF005 then some 0xF004 else none

def resultDenied (c : Ctx) (s : State) : Bool := c.has 0xF004 && regionDenied c s 0xF004 0xF005

/-- Status 0x32 of R163 for a result of n bytes: the region is too small, or there is none and the result is above 1,008. -/
def resultFull (c : Ctx) (n : Nat) : Option (Nat × List Tlv) :=
  if c.has 0xF004 then (if c.val 0xF005 < n then some (0x32, [tlv 0xF005 4 n]) else none)
  else if 1008 < n then some (0x32, [tlv 0xF005 4 n]) else none

/-! Commands. -/

/-- What a command is: class and code, the levels of node it accepts, its keys, whether it is marked S, and its checks and effect.
Each check looks at the state when the command is taken. -/
structure CmdSpec where
  cls : Nat
  code : Nat
  levels : List Level
  keys : List KeySpec := []
  /-- completes with 0x20 from an N-world mailbox -/
  sOnly : Bool := false
  /-- the command's own 0x20 -/
  denied : Ctx → State → Bool := fun _ _ => false
  /-- the command's own 0x12: the offending key -/
  params : Ctx → State → Option Nat := fun _ _ => none
  /-- the command's own 0x21 -/
  mode : Ctx → State → Bool := fun _ _ => false
  /-- 0x41 does not apply to its target -/
  faultOk : Bool := false
  /-- the command's own 0x30: the expected wait in µs -/
  busy : Ctx → State → Option Nat := fun _ _ => none
  /-- it changes its node, so R148 applies -/
  changes : Bool := true
  /-- it writes configuration of, or reads registers in, a cluster or pipeline (R590) -/
  powers : Bool := false
  /-- a group target is carried to every member too -/
  fanout : Bool := false
  /-- the results of a group: this device's own, and each member's index and results -/
  gather : Ctx → List Tlv → List (Nat × List Tlv) → List Tlv := fun _ own _ => own
  /-- codes that arise during execution -/
  late : Ctx → State → Option (Nat × List Tlv) := fun _ _ => none
  /-- result keys -/
  results : Ctx → State → List Tlv := fun _ _ => []
  effect : Ctx → Prog
  /-- the failure that its completion would report, where a command that returns 0x01 finds it then -/
  final : Ctx → State → Option (Nat × List Tlv) := fun _ _ => none
  /-- result keys of a response of 0x01 -/
  early : Ctx → State → List Tlv := fun _ _ => []
  /-- the completion bound in µs of a command that returns 0x01 -/
  pends : Option Nat := none
  /-- ns by which the state lengthens that bound -/
  extra : Ctx → State → Nat := fun _ _ => 0
  /-- the stream and index at which the command stays armed after its response of 0x00 -/
  arms : Ctx → State → Option (Nat × Nat) := fun _ _ => none
  /-- the node that the command acts on, where it is not its target -/
  node : Ctx → Nat := fun c => c.tgt.home
  /-- the response bound in µs -/
  bound : Nat
  /-- has it passed its point of no return (R154)? -/
  past : Ctx → State → Bool := fun _ _ => false
  /-- undoing the command before its point of no return (R154) -/
  undo : Ctx → Prog := fun _ => .skip

/-- The node of a command as this device orders them: that of a remote target is its NID. -/
def CmdSpec.nodeOf (sp : CmdSpec) (c : Ctx) : Nat := if c.tgt.own then sp.node c else c.tgt.home

/-- The context of a request, or the status that framing, opcode, version or node gives it (R144, R152). -/
def CmdSpec.context (sp : CmdSpec) (m : MbId) (r : Req) (s : State) : (Nat × List Tlv) ⊕ Ctx :=
  if 1008 < r.length.toNat ∨ r.length.toNat % 4 ≠ 0 ∨ r.rsv ≠ 0 ∨ (m = .twoWire ∧ (r.payload.length + 3) / 4 * 4 ≠ r.length.toNat) then .inl (0x14, [])
  else match parseTlvs 252 r.body with
    | none => .inl (0x14, [])
    | some ts =>
      if 8 ≤ r.flags.toNat then .inl (0x10, [])
      else if r.version ≠ 1 then .inl (0x11, [tlv 0xF011 1 1])
      else match s.target r.node.toNat with
        | none => .inl (0x13, [])
        | some t =>
          if !(sp.levels.contains t.kind.level) then .inl (0x13, [])
          else if (match t.kind with | .stage _ k => decide (12 ≤ k) | _ => false) then .inl (0x13, [])
          else .inr ⟨m, sp.cls, sp.code, r, ts, t, s.dev.takes⟩

/-- The time left of a command on the same node, in µs, at least 1 (R593). -/
def waitLeft (s : State) (due : Nat) : Nat := let n := ceilDiv (due - s.now) 1000; if n = 0 then 1 else n

/-- A command still pending on the same node (R148); an armed spare-pipeline swap conflicts until it takes effect (R563). -/
def State.clash (s : State) (node : Nat) : Option Cmd :=
  s.dev.journal.find? fun e => e.node = node && (match e.phase with | .armed _ _ => e.cls = 0x10 && e.code = 4 | _ => true)

/-- Every earlier-taken command of the same world has completed (R148). -/
def State.worldIdle (s : State) (world : Bool) (seq : Nat) : Bool :=
  !(s.dev.journal.any fun e => s.mbS e.mb = world && e.seq < seq && (match e.phase with | .armed _ _ => false | _ => true))

/-- The checks from 0x20 on, in the order of R144: 0 where all pass. A remote target's own state is checked by its device. -/
def CmdSpec.verdict (sp : CmdSpec) (c : Ctx) (s : State) : Nat × List Tlv :=
  let remote := c.tgt.dev ≠ s.dev.ownIndex
  let ordered := bit c.req.flags.toNat 1
  if (!s.mbS c.mb) && (sp.sOnly || (!remote && s.nodeS c.tgt.local)) then (0x20, [])
  else if (!remote && sp.denied c s) || (remote && s.mbS c.mb && s.keyDefaultTo c.tgt.dev) then (0x20, [])
  else match badKey sp.keys c.tlvs with
    | some k => (0x12, [tlv 0xF010 2 k])
    | none =>
      match (if remote then none else sp.params c s) with
      | some k => (0x12, [tlv 0xF010 2 k])
      | none =>
        if !remote && sp.mode c s then (0x21, [])
        else if !remote && !sp.faultOk && s.get (Node.state c.tgt.local) = stFaulted then (0x41, [tlv 0xF013 2 c.tgt.nid])
        else if remote && !s.pathUp c.tgt.dev then (0x42, [])
        else match (if sp.changes && !ordered then s.clash (sp.nodeOf c) else none) with
          | some e => (0x30, [tlv 0xF014 4 (waitLeft s e.due)])
          | none =>
            match (if remote then none else sp.busy c s) with
            | some w => (0x30, [tlv 0xF014 4 w])
            | none => (0, [])

/-- Writing results: into the named region, with 0xF005 in the response, or into the response (R163). -/
def deliver (c : Ctx) (ts : List Tlv) : Prog × List Tlv :=
  if c.has 0xF004 then
    (setBytes (stagingBase + c.val 0xF004) (tlvBytes ts), [tlv 0xF005 4 (tlvBytes ts).length])
  else (.skip, ts)

/-- The journal entry of a command. -/
def Ctx.entry (c : Ctx) (ph : Phase) (node due : Nat) : Cmd := ⟨c.mb, c.cls, c.code, c.req, ph, c.take, node, 0, 0, 0, false, due, []⟩

/-- Executing a command that passed its checks. -/
def CmdSpec.execute (sp : CmdSpec) (c : Ctx) : Prog := block [
  when (sp.powers) (powerTarget c.tgt.kind),
  look fun s =>
    let answer := fun (st : Nat) (ts : List Tlv) => respond c.mb c.cls c.code c.req 1 st c.tgt.nid ts
    match sp.late c s with
    | some (st, ts) => answer st ts
    | none =>
      let out := deliver c (sp.results c s)
      match sp.pends with
      | some b => block [setJournal fun j => j ++ [c.entry .pending (sp.node c) (s.now + 1000 * b + sp.extra c s)], answer 1 (sp.early c s), sp.effect c]
      | none =>
        match sp.arms c s with
        | some (st, n) => block [sp.effect c, setJournal fun j => j ++ [c.entry (.armed st n) (sp.node c) s.now],
            out.1, answer 0 out.2]
        | none => block [sp.effect c, out.1, answer 0 out.2]]

/-- The response of a DRY_RUN (R147): the status the completion would report, and every result. -/
def CmdSpec.dryRun (sp : CmdSpec) (c : Ctx) : Prog := .look fun s =>
  match (sp.late c s).orElse fun _ => sp.final c s with
  | some (st, ts) => respond c.mb c.cls c.code c.req 1 st c.tgt.nid ts
  | none =>
    let ts := sp.results c s
    if 1008 < (tlvBytes ts).length then
      block [(deliver c ts).1, respond c.mb c.cls c.code c.req 1 0 c.tgt.nid (deliver c ts).2]
    else respond c.mb c.cls c.code c.req 1 0 c.tgt.nid ts

/-- The context of a journalled command. -/
def Cmd.ctx (e : Cmd) (s : State) : Option Ctx :=
  match parseTlvs 252 e.req.body, s.target e.req.node.toNat with
  | some ts, some t => some ⟨e.mb, e.cls, e.code, e.req, ts, t, e.seq⟩
  | _, _ => none

/-- The completion of the oldest pending command of a kind on a node that may fail then: its effect and results, or the failure. -/
def finishCtx (cls code node : Nat) (final : Ctx → State → Option (Nat × List Tlv)) (k : Ctx → Cmd → Prog) : Prog := .look fun s =>
  match s.pendingCmd cls code node with
  | none => .skip
  | some e => match e.ctx s with
    | none => .skip
    | some c => match final c s with
      | some (st, ts) => block [when (!ts.isEmpty) (putResult e (tlvBytes ts)), completeCmd e st]
      | none => block [k c e, look fun s =>
          match s.dev.journal.find? fun x => x.seq = e.seq with
          | some e' => completeCmd e' 0
          | none => .skip]

/-- A command keeps bytes for its completion: its copy of a staged region, or a number (R161). -/
def keepParts (c : Ctx) (ps : List (List Byte)) : Prog :=
  setJournal fun j => j.map fun e => if e.seq = c.take then { e with parts := ps } else e

/-- What a command kept. -/
def Ctx.kept (c : Ctx) (s : State) (i : Nat) : List Byte :=
  match s.dev.journal.find? fun e => e.seq = c.take with | some e => e.parts.getD i [] | none => []

end Sys2Proof.Machine
end

