-- ==== Sys2Proof/Machine/Ecc.lean ====
section
/-! DEFINITION. ECC of addressed memory (R507, R508, R511, R517): which words are damaged, how a read detects it, how a write mends
it, and the log. A damaged word is listed under its 8-byte address: 1 a single-bit error, 2 a double-bit error, 3 a corrected word
that waits for its write-back. -/

namespace Sys2Proof.Machine
open Reg

/-- The row of Table 16-2 of a word, counted from 1; a memory job's read of shared SRAM is row 11. Control-processor memory below
the length of the loaded image is its code area (DEDUCED, log entry 7). -/
def State.content (s : State) (a : Nat) (job : Bool) : Nat :=
  if isShared a then (if job then 11 else 10)
  else if a < 0x00400000 then (if a < s.dev.boot.imageLen then 13 else 14)
  else if 0x01100000 ≤ a ∧ a < 0x01140000 then 15
  else if 0x20000000 ≤ a ∧ a < 0x24000000 then (if isMemory a then 4 else 5)
  else if 0x10000000 ≤ a ∧ a < 0x18000000 then (if isMemory a then 7 else 6)
  else 6

/-- The fault class of Table 16-3a that a row of Table 16-2 gives. -/
def contentClass (row : Nat) : Nat :=
  if row = 13 ∨ row = 15 then 1
  else if row = 2 ∨ row = 7 ∨ row = 9 ∨ row = 10 ∨ row = 11 then 3
  else if row = 5 ∨ row = 6 then 4
  else if row = 14 then 5
  else 2

/-- The node that owns a word. -/
def ownerOf (a : Nat) : Nat := match nodeOfAddr a with | some n => n | none => 1

/-- One occurrence of a fault class in the common counters of the node that detected it (R516). -/
def countClass (cls nid : Nat) : Prog :=
  if cls = 1 then countCorrected nid else if cls = 2 then countMarked nid
  else if cls = 3 then countDropped nid else if cls = 4 then countContained nid else .skip

/-- A single-bit error is corrected: flag, count, limited event 0x0E/0x01 (R507, R520). -/
def noteCe (a : Nat) : Prog := look fun s => block [
  setFlag Flt.ce, bump Flt.ceCount, countCorrected (ownerOf a),
  raiseLimitedIn (s.addrS a) 0x0E 1 (ownerOf a) 0 fun n => leBytes 8 a ++ leBytes 4 n]

/-- An uncorrectable error is detected: the log while UE is clear, the flag, the count, event 0x0E/0x02 (R517, R520). The manual
gives no syndrome for it: a free value. -/
def noteUe (a row cls : Nat) (patrol : Bool) : Prog := fresh fun syn => look fun s => block [
  when (!s.on Flt.ue) (block [set Flt.ueAddrLo a, set Flt.ueAddrHi (a / 0x100000000), set Flt.content row, set Flt.syndrome syn,
    set Flt.patrol (boolNat patrol), set Flt.ueNid (ownerOf a)]),
  setFlag Flt.ue, bump Flt.ueCount, when (!patrol) (countClass cls (ownerOf a)),
  raiseIn (s.addrS a) 0x0E 2 (ownerOf a) (leBytes 8 a ++ [BitVec.ofNat 8 row, BitVec.ofNat 8 cls])]

def setEcc (f : List (Nat × Nat) → List (Nat × Nat)) : Prog := dev fun d => { d with ecc := f d.ecc }

/-- The damaged words of a range, of a kind. -/
def State.eccIn (s : State) (a len kind : Nat) : List Nat :=
  (s.dev.ecc.filter fun e => e.2 = kind && e.1 < a + len && a < e.1 + 8).map Prod.fst

/-- A functional read of a range finds its errors. -/
def eccRead (a len : Nat) (job : Bool) : Prog := look fun s => block [
  forEach (s.eccIn a len 1) fun w => block [noteCe w, setEcc fun l => l.map fun e => if e.1 = w then (w, 3) else e],
  forEach (s.eccIn a len 2) fun w => look fun s => noteUe w (s.content w job) (contentClass (s.content w job)) false]

/-- Does a range hold an uncorrectable word? -/
def State.eccBad (s : State) (a len : Nat) : Bool := !(s.eccIn a len 2).isEmpty

/-- Words written whole hold fresh data with fresh ECC. -/
def eccMend (a len : Nat) : Prog := setEcc fun l => l.filter fun e => !(a ≤ e.1 && e.1 + 8 ≤ a + len)

/-- A write of consecutive bytes to memory. -/
def store (a : Nat) (bs : List Byte) : Prog := block [setBytes a bs, eccMend a bs.length]

/-- A fabric parity error is noted: flag, count, class and limited event 0x0E/0x03 with path (row of Table 16-3 from 1), cluster and
class (R515, R520). -/
def noteParity (path cluster cls nid : Nat) (counted : Bool := true) : Prog := block [
  setFlag Flt.parity, bump Flt.parityCount, when counted (countClass cls nid),
  dev fun d => { d with sec := { d.sec with injected := none } },
  raiseLimited 0x0E 3 nid path fun n => [BitVec.ofNat 8 path, BitVec.ofNat 8 cluster, BitVec.ofNat 8 cls, 0] ++ leBytes 4 n]

end Sys2Proof.Machine
end

