-- ==== Sys2Proof/Machine/Inbound.lean ====
section
/-! DEFINITION. What the host's accesses do once the bridge has let them through: words of registers and memory, data ports,
doorbells, and accesses to host memory and to remote devices (R111 to R132, R157 to R159, R169, R420, R470). -/

namespace Sys2Proof.Machine
open Reg

/-- The member that a remote window address belongs to, and the address inside it (R42). -/
def remoteOf (a : Nat) : Nat × Nat := ((a - 0x8000000000) / 0x800000000, (a - 0x8000000000) % 0x800000000)

def isRemote (a : Nat) : Bool := 0x8000000000 ≤ a && a < 0x10000000000
def isOutWindow (a : Nat) : Bool := 0x4000000000 ≤ a && a < 0x8000000000

/-! Byte lanes of a word write. -/

def laneVal : List (Option Byte) → Nat
  | [] => 0
  | b :: bs => (match b with | some x => x.toNat | none => 0) + 256 * laneVal bs

def laneMask : List (Option Byte) → Nat
  | [] => 0
  | b :: bs => (match b with | some _ => 255 | none => 0) + 256 * laneMask bs

/-- The value of a word after a write of its enabled bytes into the bits a mask admits. -/
def merge (old v mask : Nat) : Nat := Nat.xor old (Nat.land (Nat.xor old v) mask)

/-! Doorbells and responses (R136, R139, Table 4-4). -/

/-- A doorbell in a mailbox that is not Idle is lost. -/
def loseDoorbell (m : MbId) : Prog := look fun s => block [
  countDropped 1,
  match m with | .twoWire => twLost | .cascade _ _ => .skip | _ => setFlag (Mbx.dbLost m.base),
  raiseIn (s.mbS m) 1 3 1 [BitVec.ofNat 8 m.code]]
where
  twLost : Prog := block [setTw fun t => { t with dbLost := true }, bump (TwT.flagCount 1)]

/-- A doorbell moves an Idle mailbox to Queued; while FW_READY is 0 the mailbox hardware answers it. -/
def ring (m : MbId) : Prog := look fun s =>
  if s.mbState m ≠ 0 then loseDoorbell m
  else block [setMbState m 1, dev fun d => { d with doorbells := d.doorbells ++ [m] }, when (!s.fwReady) (hwBusy m)]

/-- Consuming a response returns the mailbox to Idle; in any other state the write has no effect. -/
def consume (m : MbId) : Prog := look fun s =>
  if s.mbState m = 3 then
    block [match m with | .twoWire => .skip | .cascade _ _ => .skip | _ => set (Mbx.respReady m.base) 0, setMbState m 0]
  else .skip

/-! Data ports (R157 to R159). -/

/-- May the function's world reach the whole span, and is all of it shared SRAM? -/
def State.spanOk (s : State) (fn n : Nat) : Bool :=
  let a := s.dpAddr fn n
  let len := 1024 * s.dpInc fn n
  isShared a && a + len ≤ 0x103000000 && s.reachRange (fn = 1) a len

/-- A write of a data-port register abandons a fill and, with PREFETCH set, starts one for the new span; a span that is not
wholly reachable shared SRAM is served on demand. -/
def refill (fn n : Nat) : Prog := look fun s =>
  let b := dportBase fn n
  let pf := s.on (DPort.prefetch b)
  block [set (DPort.pfValid b) 0, set (DPort.pfFilling b) (boolNat (pf && s.spanOk fn n)),
    set (DPort.onDemand b) (boolNat (pf && !s.spanOk fn n))]

/-- A fill covers the span: the buffer takes what shared SRAM holds. -/
def fillDone (fn n : Nat) : Prog := look fun s =>
  if s.on (DPort.pfFilling (dportBase fn n)) then
    block [clearMem (prefetchBase fn n) 0x1000,
      setBytes (prefetchBase fn n) ((List.range 0x1000).map fun o => s.byte (s.dpByte fn n o)),
      set (DPort.pfFilling (dportBase fn n)) 0, set (DPort.pfValid (dportBase fn n)) 1]
  else .skip

/-- NEXT: ADDR rises by 1,024 increments, modulo 2^40. -/
def portNext (fn n : Nat) : Prog := look fun s =>
  let a := (s.dpAddr fn n + 1024 * s.dpInc fn n) % 0x10000000000
  block [set (DPort.addrLo (dportBase fn n)) (a / 4), set (DPort.addrHi (dportBase fn n)) (a / 0x100000000)]

/-- A write of CTRL: INC (3 leaves it unchanged), PREFETCH, then NEXT and REFRESH. -/
def portCtrl (fn n v mask : Nat) : Prog :=
  let b := dportBase fn n
  block [
    when (mask % 256 = 255) (block [when (v % 4 ≠ 3) (set (DPort.inc b) (v % 4)), set (DPort.prefetch b) (v / 4 % 2)]),
    when (bit (Nat.land v mask) 8) (portNext fn n),
    refill fn n]

/-! Rings (R420). -/

/-- A HOST_INDEX write that is ignored: BAD_INDEX and limited event 0x0B/0x08, the stream or 0xFF, the slot and the value (R446). -/
def ringBad (i v : Nat) : Prog := look fun s => block [
  setFlag (Ring.badIndex i), countCorrected 1,
  raiseLimitedIn (s.on (Ring.world i)) 0x0B 8 1 i fun n =>
    [BitVec.ofNat 8 (if i < 32 then i % 16 else 0xFF), BitVec.ofNat 8 i, 0, 0] ++ leBytes 4 v ++ leBytes 4 n]

/-- A HOST_INDEX write: ignored beyond the ring; space lets held events go (R167, R168). -/
def hostIndex (i v : Nat) : Prog := look fun s =>
  let c := s.get (Ring.count i)
  let d := s.get (Ring.devIndex i)
  let gap := if 34 ≤ i ∧ i < 38 then (v + 0x100000000 - d) % 0x100000000 else (d + 0x100000000 - v) % 0x100000000
  if c < gap then ringBad i v
  else block [set (Ring.hostIndex i) v,
    when (i = 32) (drainEvents false), when (i = 33) (drainEvents true)]

/-! One word. -/

/-- A write through the outbound window (R107, R116): the function of the granule's world, at OUT_BASE plus the offset. -/
def outWrite (a : Nat) (bs : List (Option Byte)) : Prog := look fun s =>
  let fn := boolNat (s.addrS a)
  let base := s.get (Bridge.outBaseLo fn) * 0x1000 + 0x100000000 * s.get (Bridge.outBaseHi fn) + (a - 0x4000000000)
  if bs.all Option.isSome then hostWrite ⟨fn, base, bs.filterMap id, false, 3⟩
  else forEach (List.range bs.length) fun i =>
    match bs.getD i none with | some b => hostWrite ⟨fn, base + i, [b], false, 3⟩ | none => .skip

/-- The ring slot, mailbox or data port a model or internal address belongs to. -/
def mailboxAt (a : Nat) : MbId :=
  if 0x10000014000 ≤ a then (if a < 0x10000015000 then .pf1 0 else .pf1 1)
  else if a < 0x10000005000 then .pf0 0 else if a < 0x10000006000 then .pf0 1
  else if a < 0x10000007000 then .pf0 2 else .pf0 3

def isMailbox (a : Nat) : Bool :=
  (0x10000004000 ≤ a && a < 0x10000008000) || (0x10000014000 ≤ a && a < 0x10000016000)

/-- The vector of an MSI-X table word. -/
def isMsix (a : Nat) : Bool := 0x10000003000 ≤ a && a < 0x10000020000 && a % 0x10000 < 0x3800 && 0x3000 ≤ a % 0x10000

/-- RATE_CAP: 0 and 7 are ignored; both functions show it (R115). -/
def rateCap (v : Nat) : Prog := when (v ≠ 0 && v ≠ 7) (block [set (Bridge.rateCap 0) v, set (Bridge.rateCap 1) v])

/-- GO: taken at once by the ROM while it waits for a host image, which begins the fetch (R183, R184); otherwise GO_IGNORED (R181). -/
def bootGo : Prog := look fun s =>
  if s.on BootReg.waiting ∧ s.get BootReg.source = 0 then block [
    dev fun d => { d with boot := { d.boot with go := true } }, set BootReg.waiting 0, set BootReg.code 0, set BootReg.failDetail 0,
    set BootReg.attempt (s.get BootReg.attempt + 1)]
  else setFlag BootReg.goIgnored

/-- A register word: W1C bits clear, host-writable bits take the value, others ignore it (R11). -/
def plainReg (a v mask : Nat) : Prog := look fun s =>
  match Reg.info a with
  | some i => block [when (i.w1c ≠ 0) (w1c a (Nat.land v mask)),
      when (i.wr ≠ 0) (look fun s => setReg a (BitVec.ofNat 32 (merge (s.reg a).toNat v (Nat.land mask i.wr))))]
  | none => .skip

/-- A word write of the host that passed its checks, at the address it reaches. -/
def wordWrite (fn a : Nat) (bs : List (Option Byte)) : Prog := look fun s =>
  let v := laneVal bs
  let m := laneMask bs
  let auth := fn = 1
  if isRemote a then
    sendCtrl (remoteOf a).1 auth (.write fn 1 a) (leBytes 4 2 ++ leBytes 8 (remoteOf a).2 ++ leBytes 4 v ++ leBytes 4 m)
  else if isOutWindow a then outWrite a bs
  else if isMailbox a then
    if a % 0x1000 = 0x800 then when (bit v 0 && bit m 0) (ring (mailboxAt a))
    else if a % 0x1000 = 0x804 then
      block [when (bit v 8 && bit m 8) (consume (mailboxAt a)), w1c a (Nat.land (Nat.land v m) 0x200)]
    else setEnabled a bs
  else if isMemory a then setEnabled a bs
  else if a = 0x10000001014 then when (bit v 0 && bit m 0) bootGo
  else if a = 0x01310008 then when (bit m 0) (rateCap (v % 8))
  else if 0x10000008000 ≤ a ∧ a % 0x10000 < 0x8080 ∧ 0x8000 ≤ a % 0x10000 then
    let f := (a - 0x10000000000) / 0x10000
    let n := a % 0x10000 / 0x40 % 2
    if a % 0x40 = 8 then portCtrl f n v m else block [plainReg a v m, refill f n]
  else if 0x01320000 ≤ a ∧ a < 0x01320A80 ∧ a % 0x40 = 0x20 then
    hostIndex ((a - 0x01320000) / 0x40) (merge (s.reg a).toNat v m)
  else if isMsix a ∧ a % 16 = 12 then
    block [plainReg a v m, look fun s =>
      let vec := a % 0x10000 / 16 - 0x300
      when (s.on ⟨hostKey fn (0x3800 + 4 * (vec / 32)), vec % 32, 1, 0⟩) (sendMsix fn vec)]
  else plainReg a v m

/-- A write through a data-port window also reaches the port's own buffer while that is valid (R159). -/
def bufferWrite (fn : Nat) (bar : Bar) (off : Nat) (bs : List (Option Byte)) : Prog :=
  match bar with
  | .bar0 => .skip
  | .bar2 => look fun s =>
    if off < 0x2000 ∧ s.on (DPort.pfValid (dportBase fn (off / 0x1000))) then
      setEnabled (prefetchBase fn (off / 0x1000) + off % 0x1000) bs
    else .skip

/-! Posted writes (R591). -/

/-- Aligned words of a write: each word's BAR offset and its four byte lanes. -/
def wordsOf (off : Nat) (data : List (Option Byte)) : List (Nat × List (Option Byte)) :=
  let pad := List.replicate (off % 4) none ++ data
  let full := pad ++ List.replicate ((4 - pad.length % 4) % 4) none
  (List.range (full.length / 4)).map fun i => (off / 4 * 4 + 4 * i, (full.drop (4 * i)).take 4)

/-- Words that are wholly disabled take no part. -/
def touched (ws : List (Nat × List (Option Byte))) : List (Nat × List (Option Byte)) :=
  ws.filter fun w => w.2.any Option.isSome

/-- A control fabric parity error injected for the next transfer (R515, R519). -/
def State.parityHit (s : State) (a : Nat) : Bool := s.dev.sec.injected = some 4 && a < 0x24000000 && !isMemory a

/-- Carrying out the words that pass, and finding the first that fails: its offset, address and cause. -/
def carry (fn : Nat) (bar : Bar) (len : Nat) : Bool → List (Nat × List (Option Byte)) → Prog
  | _, [] => .skip
  | failed, (o, bs) :: ws => .look fun s =>
    let a := s.barAddr fn bar o
    let c := s.check fn bar o true
    if c = 0 then
      match a with
      | some x =>
        if s.parityHit x then block [noteParity 3 0xFF 3 1, when (!failed) (postedFault fn bar (some x) o 1 len), carry fn bar len true ws]
        else block [wordWrite fn x bs, bufferWrite fn bar o bs, carry fn bar len failed ws]
      | none => carry fn bar len failed ws
    else block [
      when (!failed) (postedFault fn bar a o c len),
      when (c = 4) (match a with
        | some x => (match s.offNode x with | some n => raiseUnpowered n x | none => .skip)
        | none => .skip),
      carry fn bar len true ws]

/-- Words of memory that a write covered whole hold fresh ECC. -/
def mendWritten (fn : Nat) (bar : Bar) (off : Nat) (data : List (Option Byte)) : Prog := look fun s =>
  match s.barAddr fn bar off with
  | some a => when (data.all Option.isSome && isMemory a && s.check fn bar off true = 0 && (bar = .bar2 && 0x2000 ≤ off)) (eccMend a data.length)
  | none => .skip

/-- A posted write of a function: word by word, one fault for all words that fail. -/
def postWrite (fn : Nat) (bar : Bar) (off : Nat) (data : List (Option Byte)) : Prog :=
  block [carry fn bar data.length false (touched (wordsOf off data)), mendWritten fn bar off data]

/-! Reads (R112, R118 to R123, R130). -/

/-- The bytes a read of a passing word returns. -/
def State.fetchBar (s : State) (fn : Nat) (bar : Bar) (o n : Nat) : List Byte :=
  match s.barAddr fn bar o with
  | some a =>
    if (match bar with | .bar2 => decide (o < 0x2000) && s.on (DPort.pfValid (dportBase fn (o / 0x1000))) | .bar0 => false) then
      s.bytes (prefetchBase fn (o / 0x1000) + o % 0x1000) n
    else if isRemote a || isOutWindow a then zeros n
    else s.readHost fn a n
  | none => zeros n

/-- The naturally aligned words of a read: the offset of each part and its length. -/
def partsOf (off len : Nat) : List (Nat × Nat) :=
  (List.range ((off + len - 1) / 4 - off / 4 + 1)).filterMap fun i =>
    let lo := if i = 0 then off else (off / 4 + i) * 4
    let hi := (off / 4 + i + 1) * 4
    let hi' := if off + len < hi then off + len else hi
    if lo < hi' then some (lo, hi' - lo) else none

/-- The status of a read or AtomicOp that fails with a cause (Table 3-7). -/
def causeCpl (c : Nat) : Cpl := if c = 1 then .unsupportedRequest else .completerAbort

end Sys2Proof.Machine
end

