-- ==== Sys2Proof/Machine/Issue.lean ====
section
/-! DEFINITION. A command from its request to its answer: written to a mailbox, rung, taken, checked, held, carried to other devices
or executed (R135 to R149, R470). -/

namespace Sys2Proof.Machine
open Reg

/-- The version a response carries: the request's where none was executed (R152). -/
def respVersion (r : Req) (st : Nat) : Nat := if st = 0x14 ∨ st = 0x10 ∨ st = 0x11 then r.version.toNat else 1

/-- The members of a group target: every member, or device d with those below it. -/
def State.membersOf (s : State) (t : Target) : List Nat :=
  let under := fun (d x : Nat) =>
    let rec up : Nat → Nat → Bool
      | 0, y => y = d
      | f + 1, y => y = d || (match s.dev.group.find? fun m => m.index = y with | some m => up f m.parent | none => false)
    up 16 x
  match t.kind with
  | .group => (s.dev.group.filter fun m => m.leftSeq = 0 && under t.dev m.index && m.index ≠ s.dev.ownIndex).map fun m => m.index
  | _ => []

/-- Does a group target take in this device? -/
def State.selfIn (s : State) (t : Target) : Bool := t.dev = s.dev.ownIndex

/-- How many hops lie between this device and a member. -/
def State.hops (s : State) (d : Nat) : Nat :=
  match s.dev.group.find? fun m => m.index = d with | some m => m.depth | none => 0

/-- The payload of a control request that carries a command (log entry 8): a zero word, then the request. -/
def ctlCommand (cls code : Nat) (r : Req) : List Byte := leBytes 4 0 ++ reqBytes cls code r

/-- Carrying a request to every member of a group, with the flags given, each under its own device NID. -/
def sendAll (c : Ctx) (ms : List Nat) (flags : Nat) (auth : Bool) : Prog :=
  forEach ms fun d => sendCtrl d auth (.command c.take)
    (ctlCommand c.cls c.code { c.req with flags := BitVec.ofNat 8 flags, node := BitVec.ofNat 32 (0x1000 * d + 1) })

/-- What a checked command does next: a remote node's command goes to its device; a group's goes to every member, which check it
first where it changes them (R61); anything else is executed here. -/
def CmdSpec.begin (sp : CmdSpec) (c : Ctx) : Prog := look fun s =>
  let dry := bit c.req.flags.toNat 2
  let ms := s.membersOf c.tgt
  let auth := s.mbS c.mb
  let due := s.now + 1000 * (sp.bound + 20 * s.hops c.tgt.dev)
  if c.tgt.dev ≠ s.dev.ownIndex ∧ (!sp.fanout ∨ ms.isEmpty) then
    block [setJournal fun j => j ++ [{ c.entry .remote (sp.nodeOf c) due with waits := 1 }],
      sendCtrl c.tgt.dev auth (.command c.take) (ctlCommand c.cls c.code c.req)]
  else if sp.fanout ∧ !ms.isEmpty then
    block [setJournal fun j => j ++ [{ c.entry (if sp.changes then .probe else .remote) (sp.nodeOf c) due with waits := ms.length }],
      sendAll c ms (if sp.changes then 4 else c.req.flags.toNat % 2) auth]
  else if dry then sp.dryRun c
  else sp.execute c

/-- Firmware takes a request: it checks it in the order of R144, answers a failed check, holds an ORDERED command, or goes on. -/
def CmdSpec.take (sp : CmdSpec) (m : MbId) (r : Req) : Prog := block [
  dropBell m, setMbState m 2, dev fun d => { d with takes := d.takes + 1 },
  look fun s =>
    match sp.context m r s with
    | .inl (st, ts) => respond m sp.cls sp.code r (respVersion r st) st (r.node.toNat % 0x10000) ts
    | .inr c =>
      let v := sp.verdict c s
      if v.1 ≠ 0 then respond m sp.cls sp.code r 1 v.1 c.tgt.nid v.2
      else if bit r.flags.toNat 1 && !s.worldIdle (s.mbS m) c.take then
        setJournal fun j => j ++ [c.entry .held (sp.nodeOf c) (s.now + 1000 * sp.bound)]
      else sp.begin c]

/-- The request lands in the mailbox's buffer. -/
def putRequest (m : MbId) (cls code : Nat) (r : Req) : Prog :=
  match m with
  | .twoWire => setTw fun t => { t with words := (chunks 4 256 (padTo 4 (reqBytes cls code r))).map fun b => BitVec.ofNat 32 (leVal b) }
  | .cascade _ _ => .skip
  | _ => setBytes m.base ((reqBytes cls code r).take 1024)

/-- A host write of a request and its doorbell while the mailbox cannot take them: posted-write faults in Boot (R118); a
request written to a busy mailbox faults read-only and its doorbell is lost (R136, R137). -/
def refuse (m : MbId) (len : Nat) (boot : Bool) : Prog :=
  match m with
  | .twoWire => loseDoorbell m
  | .cascade _ _ => .skip
  | _ => let off := m.base % 0x10000
    block [postedFault m.fn .bar0 (some m.base) off (if boot then 3 else 5) len,
      if boot then postedFault m.fn .bar0 (some (m.base + 0x800)) (off + 0x800) 3 4 else loseDoorbell m]

/-- Issuing a command: the request is written and the doorbell rung; firmware takes it at once when it is ready and no other
doorbell waits (R147); otherwise it stays Queued. A control request of the cascade is taken as it arrives; one whose answer was
already sent is answered again. -/
def CmdSpec.issue (sp : CmdSpec) (m : MbId) (r : Req) : Prog := look fun s =>
  match m with
  | .cascade auth tag =>
    match s.dev.answered.find? fun a => a.1 = tag.toNat with
    | some a => (match s.upstream with
        | some q => sendPacket q ⟨4, 2, boolNat auth, s.dev.ownIndex, 0, tag.toNat, a.2⟩
        | none => .skip)
    | none => sp.take m r
  | _ =>
    if s.mode = mBoot then refuse m (16 + r.payload.length) true
    else if s.mbState m ≠ 0 then refuse m (16 + r.payload.length) false
    else block [putRequest m sp.cls sp.code r, ring m,
      look fun s => when (s.fwReady && s.dev.doorbells = [m]) (sp.take m r)]

/-- A command's meaning: it is issued with its request. -/
def runCommand (sp : CmdSpec) (m : MbId) (r : Req) (s : State) : Host.Outcome State Fault Refusal := .next (run (sp.issue m r) s)

end Sys2Proof.Machine
end

