-- ==== Sys2Proof/Machine/Delivery.lean ====
section
/-! DEFINITION. Delivering a stream's records: the egress FIFOs, the rings, the Carousel's slots, and the measured bound (R404 to
R426, R440 to R442). -/

namespace Sys2Proof.Machine
open Reg

def State.stream (s : State) (i : Nat) : StreamSt := Tbl.get StreamSt.reset s.dev.streams i

def setStream (i : Nat) (f : StreamSt → StreamSt) : Prog :=
  dev fun d => { d with streams := Tbl.set StreamSt.reset d.streams i (f (Tbl.get StreamSt.reset d.streams i)) }

def State.asm (s : State) (i : Nat) : AsmSt := Tbl.get AsmSt.reset s.dev.asms i
def setAsm (i : Nat) (f : AsmSt → AsmSt) : Prog :=
  dev fun d => { d with asms := Tbl.set AsmSt.reset d.asms i (f (Tbl.get AsmSt.reset d.asms i)) }

/-- Stream states of Table 13-13. -/
abbrev sNone : Nat := 0
abbrev sAdmitted : Nat := 1
abbrev sStarted : Nat := 2
abbrev sStopping : Nat := 3

def State.sState (s : State) (i : Nat) : Nat := s.get (Del.state i)
def State.admitted (s : State) (i : Nat) : Bool := s.sState i ≠ sNone
def allStreams : List Nat := List.range 16
def State.anyAdmitted (s : State) : Bool := allStreams.any fun i => s.admitted i

/-- An event of a stream goes to the ring of the stream's world, under the device (R446). -/
def raiseStream (code i : Nat) (data : List Byte) : Prog := look fun s =>
  raiseIn (s.stream i).worldS 0x0B code 1 (BitVec.ofNat 8 i :: data)

def raiseStreamLimited (code i sub : Nat) (data : Nat → List Byte) : Prog := look fun s =>
  raiseLimitedIn (s.stream i).worldS 0x0B code 1 (16 * i + sub) fun n => BitVec.ofNat 8 i :: data n

/-! Capacity (R99, R410). -/

/-- Raw bytes per fclk cycle of a module at a rate code (Table 3-1). -/
def rateBytes (code : Nat) : Nat :=
  match code with | 1 => 32 | 2 => 64 | 3 => 96 | 4 => 128 | 5 => 192 | 6 => 256 | _ => 0

/-- RAW_BPC: the raw capacity of the trained link in bytes per fclk cycle. -/
def State.rawBpc (s : State) : Nat := rateBytes (s.get (Bridge.mod0Rate 0)) + rateBytes (s.get (Bridge.mod1Rate 0))

/-- SLOT_BYTES for a FAST_FLITS. -/
def slotBytes (raw fast : Nat) : Nat := 64 * (raw - 64 * fast)

/-- CAROUSEL in fclk cycles for n slots. -/
def carouselTerm (sigma n sb : Nat) : Nat := 16384 * (1 + ceilDiv sigma (n * sb))

/-! Egress FIFOs (R411, R424). -/

def EgRec.size (r : EgRec) : Nat := r.data.length

/-- The bytes the egress buffer of a stream holds. -/
def StreamSt.used (t : StreamSt) : Nat := (t.fifo.map EgRec.size).foldl (· + ·) 0

/-- A row that is not delivered: the stream's DROPPED counter and the device's (R107, R177, R424, R516). -/
def dropRow (i n : Nat) : Prog := block [
  setStream i fun t => { t with dropped := satNat (t.dropped + n) 0xFFFFFFFFFFFFFFFF },
  bumpBy (Node.counter 1 none 3) n]

/-- A record discarded at the egress (R424): the ring's DISCARDS, the stream's counter and flag, event 0x0B/0x06. -/
def discardRecord (i : Nat) (r : EgRec) : Prog :=
  let slot := if r.side then 16 + i else i
  block [
    bump (Ring.discards slot), setFlag (Ring.discarded slot),
    if r.side then block [bump (Del.sideDroppedCount i), setFlag (Del.sideDropped i),
        setStream i fun t => { t with sideLost := true }, countDropped 1]
      else block [bump (Del.recordsDropped i), setFlag (Del.recordDropped i), dropRow i 1],
    raiseStreamLimited 6 i slot fun n => [BitVec.ofNat 8 slot, 0, 0] ++ leBytes 4 n]

/-- A side record as it is written: SIDE_SEQ and CHECK in place (R425). -/
def sideFinal (i seq : Nat) (d : List Byte) : List Byte :=
  let h := slice d 0 8 ++ leBytes 4 seq ++ slice d 12 16
  h ++ leBytes 4 (houseCrc (leBytes 2 i ++ leBytes 4 seq) h) ++ d.drop 32

/-- The next SIDE_SEQ of a record that enters the FIFO now. -/
def StreamSt.nextSide (t : StreamSt) : Nat := (t.sideSeq + (t.fifo.filter EgRec.side).length) % 0x100000000

/-- What a band tag covers after one more record (R536, R537). -/
def TagSt.cover (g : TagSt) (i sideSeq : Nat) (r : EgRec) : TagSt :=
  if r.side then
    { g with
      firstSide := if g.sides = 0 then sideSeq else g.firstSide, sides := g.sides + 1
      sideData := g.sideData ++ sideFinal i sideSeq r.data }
  else
    { g with
      firstSeq := if g.rows = 0 then r.seq else g.firstSeq, lastSeq := r.seq, rows := g.rows + 1, rowData := g.rowData ++ r.data }

/-- A record enters its stream's FIFO, or is discarded whole where the egress buffer cannot hold it or its flits fail parity (R515).
Tags cover what enters, but for
tag records (type 6). -/
def enqueueRecord (i : Nat) (r : EgRec) : Prog := look fun s =>
  if s.dev.sec.injected = some 3 then block [noteParity 1 0xFF 3 1 false, discardRecord i r]
  else if (s.stream i).egressSize < (s.stream i).used + r.size then discardRecord i r
  else block [
    when ((s.asm i).tagEn && !(r.side && leAt r.data 0 1 == 6))
      (setAsm i fun t => { t with tag := t.tag.cover i (s.stream i).nextSide r }),
    setStream i fun t => { t with fifo := t.fifo ++ [r] }]

/-- A side record without its sequence and check (Table 13-6): header fields known at hand-over, then the payload, padded to
whole 64-byte units. -/
def sideRecord (type stream flags : Nat) (time payload : List Byte) : List Byte :=
  let units := ceilDiv (32 + payload.length) 64
  padTo 64 (leBytes 1 type ++ leBytes 1 stream ++ leBytes 2 units ++ leBytes 4 payload.length ++ leBytes 4 0 ++ leBytes 1 flags
    ++ zeros 3 ++ time ++ zeros 8 ++ payload)

/-- A part or record on its way over a quad: packets of at most 4,096 bytes, each with its offset, LAST on the final one (R471). -/
def sendWhole (q type cls dst : Nat) (bs : List Byte) : Prog := look fun s =>
  let ps := chunks 4096 bs.length bs
  forEach (ps.zip (List.range ps.length)) fun x =>
    sendPacket q ⟨type, cls, if x.2 + 1 = ps.length then 2 else 0, s.dev.ownIndex, dst, 4096 * x.2, x.1⟩

/-- Handing a side record over: to a stream's FIFO, where the bound runs from the trigger of the last row of its period (R411); a satellite
sends it up whole, SIDE_SEQ and CHECK zero (R471). -/
def sendSide (type i flags trigger : Nat) (payload : List Byte) : Prog := look fun s =>
  let lost := if (s.stream i).sideLost then 2 else 0
  let r : EgRec := ⟨true, 0, sideRecord type i (flags + lost) s.timeBytes payload, trigger, false, 0⟩
  if s.on BootReg.role then block [setStream i fun t => { t with sideLost := false },
    match s.upstream with | some q => sendWhole q 2 1 0 r.data | none => .skip]
  else if (s.stream i).egressSize < (s.stream i).used + r.size then discardRecord i r
  else block [setStream i fun t => { t with sideLost := false }, enqueueRecord i r]

/-- A pad record that reaches the ring's end (R426). -/
def padRecord (i seq units : Nat) (time : List Byte) : List Byte :=
  sideFinal i seq (leBytes 1 0 ++ leBytes 1 i ++ leBytes 2 units ++ zeros 8 ++ zeros 4 ++ time ++ zeros (64 * units - 24))

/-- Free entries of a device-produced ring (R419). -/
def State.ringFree (s : State) (i : Nat) : Nat :=
  s.get (Ring.count i) - (s.get (Ring.devIndex i) + 0x100000000 - s.get (Ring.hostIndex i)) % 0x100000000

/-- May host writes of n bytes go now (R131)? -/
def State.creditFor (s : State) (n : Nat) : Bool := s.linkUp && s.dev.host.waiting.isEmpty && n ≤ s.dev.host.credit

/-- The units a side record of u units needs in its ring, with the pad before it where it would wrap. -/
def State.sideNeed (s : State) (slot u : Nat) : Nat :=
  let pos := s.get (Ring.devIndex slot) % s.get (Ring.count slot)
  if s.get (Ring.count slot) < pos + u then (s.get (Ring.count slot) - pos) + u else u

/-- Has the ring space for a record, and the host credit? -/
def State.canLeave (s : State) (i : Nat) (r : EgRec) : Bool :=
  let slot := if r.side then 16 + i else i
  let need := if r.side then s.sideNeed slot (r.size / 64) else 1
  s.on (Ring.enable slot) && need ≤ s.ringFree slot && ((s.pci (s.ringFn slot)).busMaster == false || s.creditFor r.size)

/-- Writing a row or fast record into the next entry of the data ring (R422). -/
def writeRow (i : Nat) (r : EgRec) : Prog := look fun s =>
  let k := s.get (Ring.devIndex i) % s.get (Ring.count i)
  let bme := (s.pci (s.ringFn i)).busMaster
  block [
    hostWriteFor i ⟨s.ringFn i, s.ringBase i + k * s.get (Ring.entryBytes i), r.data, true, 1⟩,
    when (!bme) (setStream i fun t => { t with dropped := satNat (t.dropped + 1) 0xFFFFFFFFFFFFFFFF }),
    when bme (block [advanceDev i 1, setStream i fun t => { t with flight := t.flight ++ [r] }])]

/-- Writing a side record, after a pad where it would wrap (R426). -/
def writeSide (i : Nat) (r : EgRec) : Prog := look fun s =>
  let slot := 16 + i
  let seq := (s.stream i).sideSeq
  let cnt := s.get (Ring.count slot)
  let pos := s.get (Ring.devIndex slot) % cnt
  let u := r.size / 64
  let bme := (s.pci (s.ringFn slot)).busMaster
  let wrap := cnt < pos + u
  block [
    when (wrap && bme) (block [
      hostWriteFor slot ⟨s.ringFn slot, s.ringBase slot + 64 * pos, padRecord i seq (cnt - pos) s.timeBytes, true, 1⟩,
      advanceDev slot (cnt - pos)]),
    hostWriteFor slot ⟨s.ringFn slot, s.ringBase slot + 64 * (if wrap then 0 else pos), sideFinal i seq r.data, true, 1⟩,
    when bme (block [advanceDev slot u, bump (Del.sideRecords i),
      setStream i fun t => { t with sideSeq := (seq + 1) % 0x100000000 }])]

/-- The record at the front of a stream's FIFO leaves, or waits and sets STALLED once (R424). -/
def departRecord (i : Nat) : Prog := look fun s =>
  match (s.stream i).fifo with
  | [] => .skip
  | r :: rest =>
    if s.canLeave i r then
      block [setStream i fun t => { t with fifo := rest, stalled := false },
        if r.side then writeSide i r else writeRow i r]
    else when (!(s.stream i).stalled)
      (block [setFlag (Ring.stalled (if r.side then 16 + i else i)), setStream i fun t => { t with stalled := true }])

/-! The Carousel (R410 to R416). -/

/-- Moving class-1 bytes of one stream: each record whose bytes have all moved leaves; what is left of the budget goes on. -/
def moveStream (i : Nat) : Nat → Nat → (Nat → Prog) → Prog
  | 0, budget, k => k budget
  | f + 1, budget, k => look fun s =>
    match (s.stream i).fifo with
    | [] => k budget
    | r :: rest =>
      if !s.canLeave i r then block [departRecord i, k budget]
      else if r.size - r.moved ≤ budget then block [departRecord i, moveStream i f (budget - (r.size - r.moved)) k]
      else block [setStream i fun t => { t with fifo := { r with moved := r.moved + budget } :: rest }, k 0]

def moveStreams : List Nat → Nat → Prog
  | [], _ => .skip
  | i :: is, budget => look fun s => moveStream i ((s.stream i).fifo.length) budget fun b => moveStreams is b

/-- A slot starts: its owner's FIFO first, then the backlog in ascending stream order; slots 7 modulo 8 carry no class 1 (R412,
R413). -/
def slotStart (t : Nat) : Prog := look fun s =>
  let o := s.get (Car.owner t)
  let order := if o < 16 then o :: allStreams.filter (· ≠ o) else allStreams
  if t % 8 = 7 then .skip else moveStreams order (s.get Car.slotBytes)

/-- Slots free for a new stream: assignable, unowned, and not planned for another. -/
def State.freeSlots (s : State) : List Nat :=
  (List.range 256).filter fun t => t % 8 ≠ 7 && s.get (Car.owner t) = 0xFF && !(s.dev.slotPlan.any fun p => p.1 = t)

/-- Suspending and restoring a guarantee (R101, R416, R441): the flag, the cause, event 0x03/0x09 or 0x03/0x0A. -/
def suspend (i cause : Nat) : Prog := look fun s =>
  let t := s.stream i
  if t.suspendedBy.contains cause then setStream i fun t => { t with lifting := t.lifting.filter (· ≠ cause) }
  else block [setStream i fun t => { t with suspendedBy := cause :: t.suspendedBy },
    when t.suspendedBy.isEmpty (block [set (Del.suspended i) 1, raiseIn t.worldS 3 9 1 [BitVec.ofNat 8 i]])]

def restore (i cause : Nat) : Prog := look fun s =>
  let t := s.stream i
  let left := t.suspendedBy.filter (· ≠ cause)
  if !t.suspendedBy.contains cause then .skip
  else block [setStream i fun t => { t with suspendedBy := left, lifting := t.lifting.filter (· ≠ cause) },
    when left.isEmpty (block [set (Del.suspended i) 0, raiseIn t.worldS 3 0x0A 1 [BitVec.ofNat 8 i]])]

/-- Causes of a suspension: throttle step 5, lost link capacity, a live-service action. -/
abbrev byThrottle : Nat := 1
abbrev byCapacity : Nat := 2
abbrev byService : Nat := 3

/-- The streams whose demand the link's admissible capacity no longer holds, taken away in descending stream order until the rest
fit (R101). Demand is AVG per MIN_PERIOD against 7/8 of the raw capacity. -/
def State.overCapacity (s : State) : List Nat :=
  let cost := fun i => ceilDiv ((s.stream i).avg * 1000) (s.get (Trig.minPeriod i))
  let live := (allStreams.filter fun i => s.admitted i && !(s.stream i).suspendedBy.contains byCapacity)
  let cap := s.rawBpc * 875
  let rec go : List Nat → Nat → List Nat
    | [], _ => []
    | i :: is, total => if total ≤ cap then [] else i :: go is (total - cost i)
  go live.reverse ((live.map cost).foldl (· + ·) 0)

/-- The streams whose CAROUSEL term, recomputed for a SLOT_BYTES, no longer fits their bound (R416). -/
def State.unfit (s : State) (sb : Nat) : List Nat :=
  (allStreams.filter fun i => s.admitted i && !(s.stream i).fast
    && s.get (Del.boundNs i) < s.get (Del.boundNs i) - (s.stream i).terms.getD 3 0
        + (if sb = 0 then 0x100000000 else carouselTerm (s.stream i).sigma (s.get (Del.slots i)) sb)).reverse

/-- A rotation boundary: closed streams' slots go free, planned slots take their owner, SLOT_BYTES follows the trained capacity,
guarantees are suspended or restored (R101, R415, R416, R436). -/
def rotation : Prog := block [
  forEach (List.range 256) fun t => look fun s =>
    let o := s.get (Car.owner t)
    when (o < 16 && !s.admitted o) (set (Car.owner t) 0xFF),
  look fun s => forEach s.dev.slotPlan fun p => set (Car.owner p.1) p.2,
  dev fun d => { d with slotPlan := [] },
  look fun s => set Car.assigned ((List.range 256).filter fun t => s.get (Car.owner t) < 16).length,
  look fun s => set Car.slotBytes (slotBytes s.rawBpc (s.get Car.fastFlits)),
  look fun s => forEach (s.unfit (s.get Car.slotBytes)) fun i => suspend i byCapacity,
  look fun s => forEach (allStreams.filter fun i => (s.stream i).lifting.contains byCapacity
      && !(s.unfit (s.get Car.slotBytes)).contains i) fun i => restore i byCapacity]

/-! Ring indices and interrupts (R421). -/

def State.ringSt (s : State) (i : Nat) : RingSt := Tbl.get RingSt.reset s.dev.rings i

def setRing (i : Nat) (f : RingSt → RingSt) : Prog :=
  dev fun d => { d with rings := Tbl.set RingSt.reset d.rings i (f (Tbl.get RingSt.reset d.rings i)) }

/-- Sending a ring's message and starting its holdoff. -/
def ringMessage (i : Nat) : Prog := look fun s => block [
  sendMsix (s.ringFn i) (s.get (Ring.vector i)), setRing i fun r => { r with lastMsg := some s.now, owed := false }]

/-- Is a ring within its holdoff? -/
def State.inHoldoff (s : State) (i : Nat) : Bool :=
  match (s.ringSt i).lastMsg with
  | some t => s.now < t + 1000 * s.get (Ring.holdoff i)
  | none => false

/-- The device writes DEV_INDEX to INDEX_ADDR after the entries it announces, then sends the ring's vector, and vector 5 for an
event ring (R117, R421). -/
def updateIndex (i : Nat) : Prog := look fun s =>
  let d := s.get (Ring.devIndex i)
  if !s.on (Ring.enable i) ∨ d = (s.ringSt i).announced then .skip
  else block [
    hostWriteFor i ⟨s.ringFn i, s.get (Ring.indexAddrLo i) * 4 + 0x100000000 * s.get (Ring.indexAddrHi i), leBytes 4 d, false, 2⟩,
    setRing i fun r => { r with announced := d },
    when (i = 32) (sendMsix 0 5), when (i = 33) (sendMsix 1 5),
    when (s.on (Ring.irqEn i)) (if s.inHoldoff i then setRing i fun r => { r with owed := true } else ringMessage i)]

/-- The end of a holdoff: one message where DEV_INDEX has advanced meanwhile. -/
def holdoffEnd (i : Nat) : Prog := look fun s => when ((s.ringSt i).owed && s.on (Ring.irqEn i)) (ringMessage i)

/-! The measured bound (R440 to R442). -/

/-- The record of a sequence number, wherever it stands. -/
def StreamSt.find (t : StreamSt) (q : Nat) : Option EgRec := (t.flight ++ t.fifo).find? fun r => !r.side && r.seq = q

/-- The node a violation cause is attributed to (Table 13-11): causes 1, 2 and 3 name a component. -/
def violationNode (cause comp : Nat) : Nat := if cause = 1 ∨ cause = 2 ∨ cause = 3 then comp else 1

/-- The bound of a record expires: late while suspended, or a violation with its cause, once a record. -/
def boundExpired (i seq cause comp : Nat) : Prog := look fun s =>
  let t := s.stream i
  let ns := match t.find seq with | some r => s.now - r.trigger | none => s.get (Del.boundNs i)
  if t.judged.contains seq then .skip
  else block [setStream i fun t => { t with judged := seq :: t.judged },
    if s.on (Del.suspended i) then bump (Del.lateSuspended i)
    else block [bump (Del.violations i), countCorrected 1, setFlag (Del.violation i),
      when (localNid (violationNode cause comp)) (countViolation (violationNode cause comp)),
      raiseStreamLimited 5 i 0 fun _ => leBytes 6 seq ++ leBytes 1 cause ++ leBytes 4 ns]]

/-- A record is complete in host memory: delivered, with its delivery time; one beyond its bound is judged with the measured
cause. -/
def recordDelivered (i cause comp : Nat) : Prog := look fun s =>
  match (s.stream i).flight with
  | [] => .skip
  | r :: rest =>
    let ns := s.now - r.trigger
    block [
      when (s.get (Del.boundNs i) < ns) (boundExpired i r.seq cause comp),
      bump (Del.delivered i), countTop 1 1,
      when (s.get (Del.worstNs i) < ns) (set (Del.worstNs i) (satNat ns 0xFFFFFFFF)),
      setStream i fun t => { t with
        flight := rest, rows := t.rows + 1, lastSeq := r.seq, marked := t.marked + boolNat r.marked, judged := t.judged.filter (· ≠ r.seq) }]

end Sys2Proof.Machine
end

