-- ==== Sys2Proof/Machine/Lane.lean ====
section
/-! DEFINITION. Pipelines and ports beside their registers, steering, the values of a pipeline's stages in force for an index, and the
pixels a line becomes (R205, R206, R270 to R313, R512). -/

namespace Sys2Proof.Machine
open Reg

def State.port (s : State) (n : Nat) : PortSt := Tbl.get PortSt.reset s.dev.ports n
def setPort (n : Nat) (f : PortSt → PortSt) : Prog :=
  dev fun d => { d with ports := Tbl.set PortSt.reset d.ports n (f (Tbl.get PortSt.reset d.ports n)) }

def State.pipe (s : State) (p : Nat) : PipeSt := Tbl.get PipeSt.reset s.dev.pipes p
def setPipe (p : Nat) (f : PipeSt → PipeSt) : Prog :=
  dev fun d => { d with pipes := Tbl.set PipeSt.reset d.pipes p (f (Tbl.get PipeSt.reset d.pipes p)) }

def State.gen (s : State) (i : Nat) : GenSt := Tbl.get GenSt.reset s.dev.gens i
def setGen (i : Nat) (f : GenSt → GenSt) : Prog :=
  dev fun d => { d with gens := Tbl.set GenSt.reset d.gens i (f (Tbl.get GenSt.reset d.gens i)) }

/-! Steering (Table 6-5, R206). -/

/-- Word w of steering entry e of port n. -/
def steerWord (n e w : Nat) : Nat := portBase n + 0x100 + 8 * e + 4 * w

/-- A steering entry as it is read. -/
structure Steer where
  valid : Bool
  vc : Nat
  dt : Nat
  action : Nat
  pipe : Nat
  pack : Nat
  wait : Nat
  deriving DecidableEq, Repr

def Steer.of (w0 w1 : Nat) : Steer :=
  ⟨bit w0 0, bits w0 1 5, bits w0 6 6, bits w0 12 2, bits w0 14 3, bits w0 17 3, bits w1 0 20⟩

def State.steer (s : State) (n e : Nat) : Steer := Steer.of (s.reg (steerWord n e 0)).toNat (s.reg (steerWord n e 1)).toNat

/-- The valid entries of a port, in ascending index, with their indices. -/
def State.steers (s : State) (n : Nat) : List (Nat × Steer) :=
  ((List.range 32).map fun e => (e, s.steer n e)).filter fun x => x.2.valid

/-- The pipeline of the device that a (port, VC) feeds. -/
def State.pipeOfVc (s : State) (n vc : Nat) : Option Nat :=
  ((s.steers n).find? fun x => x.2.action = 0 && x.2.vc = vc).map fun x => 8 * portCluster n + x.2.pipe

/-- The data types steered to pipeline p. -/
def State.dtsOf (s : State) (p : Nat) : List Nat :=
  let c := p / 8
  let ports := (List.range 6).map (fun k => 6 * c + k) ++ [48 + c]
  ports.flatMap fun n => ((s.steers n).filter fun x => x.2.action = 0 && x.2.pipe = p % 8).map fun x =>
    if 0x30 ≤ x.2.dt ∧ x.2.dt < 0x38 then packDt x.2.pack else x.2.dt

/-- The (port, VC) pairs that feed pipeline p, with the steering index. -/
def State.sourcesOf (s : State) (p : Nat) : List (Nat × Nat × Nat) :=
  let c := p / 8
  let ports := (List.range 6).map (fun k => 6 * c + k) ++ [48 + c]
  ports.flatMap fun n => ((s.steers n).filter fun x => x.2.action = 0 && x.2.pipe = p % 8).map fun x => (n, x.2.vc, x.1)

/-! Heads. -/

/-- The valid head entries of a stream. -/
def State.heads (s : State) (i : Nat) : List Nat := (List.range 256).filter fun h => s.on (Head.valid i h)

def State.headLocal (s : State) (i h : Nat) : Bool := s.get (Head.device i h) = s.dev.ownIndex

/-- The pipeline of a local head. -/
def State.pipeOf (s : State) (i h : Nat) : Option Nat :=
  if s.headLocal i h then s.pipeOfVc (s.get (Head.port i h)) (s.get (Head.vc i h)) else none

/-- The admitted stream and head entry of a local (port, VC). -/
def State.headOf (s : State) (n vc : Nat) : Option (Nat × Nat) :=
  (allStreams.filter fun i => s.admitted i).findSome? fun i =>
    ((s.heads i).find? fun h => s.headLocal i h && s.get (Head.port i h) = n && s.get (Head.vc i h) = vc).map fun h => (i, h)

/-- The streams that bind a pipeline. -/
def State.streamsOf (s : State) (p : Nat) : List Nat :=
  (allStreams.filter fun i => s.admitted i).filter fun i => (s.heads i).any fun h => s.pipeOf i h = some p

def State.boundAdmitted (s : State) (p : Nat) : Bool := !(s.streamsOf p).isEmpty
def State.boundStarted (s : State) (p : Nat) : Bool := (s.streamsOf p).any fun i => s.sState i = sStarted

/-- A head's key within its pipeline. -/
def headKey (n vc : Nat) : Nat := 32 * n + vc

def PipeSt.headSt (t : PipeSt) (k : Nat) : HeadSt := Tbl.get HeadSt.reset t.heads k
def PipeSt.setHead (t : PipeSt) (k : Nat) (f : HeadSt → HeadSt) : PipeSt :=
  { t with heads := Tbl.set HeadSt.reset t.heads k (f (t.headSt k)) }

/-! The values of the stages for an index (R286, R312). -/

def pipeBase (p : Nat) : Nat := 0x20000000 + 0x100000 * p

/-- A register word of a pipeline as stage st uses it for index n: the superseded value for an index below the last change. -/
def State.stageWord (s : State) (p st a : Nat) (n : Option Nat) : Nat :=
  match n with
  | none => (s.reg a).toNat
  | some n =>
    match (s.pipe p).old.find? fun o => o.stage = st && n < o.n with
    | some o => (match o.words.find? fun w => w.1 = a with | some w => w.2 | none => (s.reg a).toNat)
    | none => (s.reg a).toNat

def State.stageGet (s : State) (p st : Nat) (f : Fld) (n : Option Nat) : Nat := bits (s.stageWord p st f.addr n) f.lo f.width

/-- State of bank b (0 A, 1 B) of a pipeline. -/
def bankState (p b : Nat) : Fld := if b = 0 then Corr.stateA p else Corr.stateB p

/-- LAST_SWAP_INDEX. -/
def State.lastSwap (s : State) (p : Nat) : Nat := s.get (Corr.lastSwapLo p) + 0x100000000 * s.get (Corr.lastSwapHi p)

/-- The bank that a line of an index uses. -/
def State.bankFor (s : State) (p : Nat) (n : Option Nat) : Nat :=
  let a := s.get (Corr.active p)
  match n with
  | some n => if s.get (bankState p (1 - a)) = 3 ∧ n < s.lastSwap p then 1 - a else a
  | none => a

def gaugeBase (p b : Nat) : Nat := pipeBase p + 0x80000 + 0x10000 * b
def mapBase (p b : Nat) : Nat := pipeBase p + 0xA0000 + 0x1000 * b

/-- A 16-bit word of memory, or its neutral value where it is damaged (R512). -/
def State.half (s : State) (a neutral : Nat) : Nat := if s.eccBad (a / 8 * 8) 8 then neutral else leVal (s.bytes a 2)

/-- The static map of a bank (R279). -/
def State.staticMap (s : State) (p b : Nat) : List (Nat × Nat) :=
  let cnt := if b = s.get (Corr.active p) then s.get (Corr.staticCount p) else s.get (Corr.staticCountIn p)
  (List.range cnt).filterMap fun k =>
    let a := mapBase p b + 4 * k
    if s.eccBad (a / 8 * 8) 8 then none else some (bits (leVal (s.bytes a 4)) 0 14, bits (leVal (s.bytes a 4)) 14 16)

/-- The pixel configuration of pipeline p for a line of an index and data type. -/
def State.pixCfg (s : State) (p : Nat) (n : Option Nat) (dt : Nat) : PixCfg :=
  let b := s.bankFor p n
  let area := s.on (Framer.area p)
  let g := gaugeBase p b
  { area := area, pixels := s.get (Framer.linePixels p), lines := s.get (Framer.frameLines p), dt := dt,
    linEn := s.on (Corr.linEn p), knots := (List.range 33).map fun i => (s.get (Corr.linX p i), s.get (Corr.linY p i)),
    slopes := (List.range 32).map fun i => signed 40 (s.get (Corr.linSLo p i) + 0x100000000 * s.get (Corr.linSHi p i)),
    xp := s.get (Corr.xpM1 p) + 1, yp := s.get (Corr.ypM1 p) + 1, numCh := s.get (Corr.numChM1 p) + 1, chMap := s.get (Corr.chMap p),
    bl := (List.range 4).map fun k => s.get (Corr.bl p k), bypass1 := s.on (Corr.bypass p), bypass2 := s.on (Corr.bypass2 p),
    staticEn := s.on (Corr.staticEn p), hot := s.on (Corr.hotEn p), cold := s.on (Corr.coldEn p), thresh := s.get (Corr.dynThresh p),
    map := s.staticMap p b, bypass3 := s.on (Corr.bypass3 p), sx := s.get (Corr.sx p), sy := s.get (Corr.sy p),
    dark := fun x => if area then signed 16 (s.half (g + 2 * x) 0) else signed 16 (s.half (g + 4 * x) 0),
    gain := fun x => s.half (g + 4 * x + 2) 0x4000,
    grid := fun c j i => s.half (g + 0x4000 + 0x2200 * c + 2 * (65 * j + i)) 0x4000,
    bypass4 := s.stageGet p 4 (Col.bypass p) n = 1, wb := (List.range 4).map fun k => s.stageGet p 4 (Col.wb p k) n,
    mode := s.get (Col.modeF p), edgeT := s.get (Col.edgeT p), colour := s.get (Col.colour p),
    delays := [s.get (Col.d0 p), s.get (Col.d1 p), s.get (Col.d2 p), s.get (Col.d3 p)],
    bypass6 := s.stageGet p 6 (Col.bypass6000 p) n = 1, m := (List.range 9).map fun j => signed 16 (s.stageGet p 6 (Col.m p j) n),
    off := (List.range 3).map fun i => signed 17 (s.stageGet p 6 (Col.off p i) n), kr := s.stageGet p 6 (Col.kr p) n,
    kg := s.stageGet p 6 (Col.kg p) n, kb := s.stageGet p 6 (Col.kb p) n }

/-- Does the bank that an index uses hold a damaged word? -/
def State.bankDamaged (s : State) (p : Nat) (n : Option Nat) : Bool :=
  s.eccBad (gaugeBase p (s.bankFor p n)) 0x10000 || s.eccBad (mapBase p (s.bankFor p n)) 0x1000

/-! Framing pixels (R216, R217). -/

/-- The pixels received for a line, cut or padded with fill to LINE_PIXELS; an unpadded short area line keeps its length. -/
def framed (pixels : Nat) (keepShort : Bool) (dt : Nat) (bytes : List Byte) : List Col :=
  let px := (unpackLine dt bytes).take pixels
  if keepShort then px else px ++ List.replicate (pixels - px.length) ⟨true, [0]⟩

/-- Is the pipeline's path of three components (R298)? -/
def PixCfg.three (c : PixCfg) : Bool := c.threeIn || c.mode ≠ 0

/-- Lines that must follow before a line of an area unit leaves the stages (Tables 8-2 and 9-4). -/
def PixCfg.lag (c : PixCfg) : Nat :=
  if !c.area then 0 else (if c.bypass2 || c.threeIn then 0 else c.yp) + (if c.mode = 1 ∧ !c.threeIn then 2 else 0)

/-- The pixels of a line in the stream's format: stages 0 to 7 (the alignment store serves mode 3). -/
def State.linePixels7 (s : State) (p : Nat) (c : PixCfg) (n y : Nat) (raw : Nat → List Col) : List Col :=
  let v5 := (c.stage5 (c.v4 raw) (fun k => if k = n then some (c.v4 raw 0) else ((s.pipe p).store.find? fun x => x.1 = k).map Prod.snd) n y).1
  c.format (s.get (Col.format p)) (s.get (Reg.Col.fill p)) (c.stage6 v5).1

/-- The pixels of an open line as far as they are received, the rest fill-tagged (R356). -/
def State.partialLine (s : State) (p : Nat) (l : OpenLine) : List Col :=
  let c := s.pixCfg p (some l.index) l.dt
  let now := framed c.pixels false l.dt l.bytes
  let before := match (s.pipe p).frame with | some f => f.lines.map Prod.fst | none => []
  s.linePixels7 p c l.index l.y fun y => if y = l.y then now else if c.area then before.getD y [] else []

end Sys2Proof.Machine
end

