-- ==== Sys2Proof/Machine/Assembly.lean ====
section
/-! DEFINITION. Row assembly: opening, resolving and closing rows, the close phase, coding, records and band tags (R341 to R373, R388 to
R393, R536, R537). -/

namespace Sys2Proof.Machine
open Reg

/-! Geometry and producers (R343, R350, R368). -/

/-- NEXT of a stream's generator. -/
def State.next (s : State) (i : Nat) : Nat := s.get (Trig.nextLo i) + 0x100000000 * s.get (Trig.nextHi i)

/-- Match gains of a head for an index: those in use before the last change for an index below it. -/
def State.matchOf (s : State) (i h n : Nat) : List Nat :=
  match (s.asm i).oldMatch.find? fun o => o.2.1 = h && n < o.1 with
  | some o => [o.2.2.1, o.2.2.2.1, o.2.2.2.2]
  | none => [s.get (Geo.mg0 i h), s.get (Geo.mg1 i h), s.get (Geo.mg2 i h)]

def State.geo (s : State) (i h n : Nat) : HeadGeo :=
  ⟨s.get (Geo.col0 i h), s.get (Geo.cropStart i h), s.get (Geo.cropWidth i h), s.get (Geo.outWidth i h), s.on (Geo.resample i h),
    s.on (Geo.seam i h), s.get (Geo.cut i h),
    ⟨s.sget (Geo.a0 i h), s.sget (Geo.a1 i h), s.sget (Geo.a2 i h), s.sget (Geo.a3 i h)⟩, s.matchOf i h n⟩

/-- The NID of a local head's cluster; 0 for a remote head. -/
def State.headCluster (s : State) (i h : Nat) : Nat :=
  if s.headLocal i h then nidCluster (portCluster (s.get (Head.port i h))) else 0

/-- The producer of each span of a row: (producer, first column, width). -/
def State.spans (s : State) (i : Nat) : List (Nat × Nat × Nat) :=
  let hs := s.heads i
  spansOf ((places (hs.map fun h => s.geo i h 0)).map (producer fun k => s.headCluster i (hs.getD k 0))) 0

/-- Bits per component and components of a stream. -/
def State.depth (s : State) (i : Nat) : Nat × Nat := formatOf (s.stream i).format

/-- Is a local head's pipeline or cluster Faulted (R514)? -/
def State.headFaulted (s : State) (i h : Nat) : Bool :=
  match s.pipeOf i h with
  | some p => s.get (Node.state (nidPipe p)) = stFaulted || s.get (Node.state (nidCluster (p / 8))) = stFaulted
  | none => false

/-- Is a head parked at an index (R560, R561)? -/
def State.isParked (s : State) (i h n : Nat) : Bool :=
  (s.asm i).parked.any fun k => k.head = h && k.from_ ≤ n && (match k.until_ with | some u => n < u | none => true)

/-- FRAME_LINES of an area stream. -/
def State.frameLines (s : State) (i : Nat) : Nat :=
  match (s.heads i).findSome? fun h => s.pipeOf i h with
  | some p => s.get (Framer.frameLines p)
  | none => 1

/-! Bands (R365, R366). -/

/-- The band of a row: its number, or the frame's index. -/
def State.band (s : State) (i n : Nat) : Nat := if s.on (Asm.area i) then n else n / s.get (Asm.bandRows i)

/-- The end index of the band of n by its numbers alone. -/
def State.bandEnd (s : State) (i n : Nat) : Nat := s.band i n * s.get (Asm.bandRows i) + s.get (Asm.bandRows i) - 1

/-- Is index n the end index of its band for the pipelines: E itself, or the last one issued where E was skipped? -/
def State.isBandEnd (s : State) (i n : Nat) : Bool :=
  s.on (Asm.area i) || n = s.bandEnd i n || (s.asm i).ends.contains n

/-! Rows. -/

def RowSt.lastExp (r : RowSt) : Nat := (r.exps.map Prod.snd).foldl max r.time

def RowSt.setSlot (r : RowSt) (h : Nat) (f : SlotSt → SlotSt) : RowSt :=
  { r with slots := r.slots.map fun x => if x.head = h then f x else x }

def updRow (i n y : Nat) (f : RowSt → RowSt) : Prog :=
  setAsm i fun t => { t with rows := t.rows.map fun r => if r.index = n ∧ r.line = y then f r else r }

def State.row (s : State) (i n y : Nat) : Option RowSt := (s.asm i).rows.find? fun r => r.index = n && r.line = y

/-- Does a satellite serve a stream at an index: has it joined, from index J on, and is it not in Safe-hold (R63, R475)? -/
def State.serves (s : State) (d i n : Nat) : Bool :=
  s.pathUp d && s.dev.group.any fun m => m.index = d && (m.joined || s.on BootReg.role) && !m.hold && Tbl.get 0 m.joinAt i ≤ n

/-- The sequence of a row: its own once it is in the close phase, else what it will take. -/
def State.rowSeq (s : State) (i : Nat) (r : RowSt) : Nat :=
  if r.coding then r.seq
  else (s.stream i).seq + (((s.asm i).rows.filter fun x => !x.coding).takeWhile fun x => !(x.index = r.index && x.line = r.line)).length

/-- A slot that a row opens with: missing at once for a parked head, a Faulted pipeline and a device that does not serve. -/
def State.newSlot (s : State) (i h n : Nat) : SlotSt :=
  if s.isParked i h n ∨ s.headFaulted i h ∨ (!s.headLocal i h ∧ !s.serves (s.get (Head.device i h)) i n) then ⟨h, 5, [], 0, false, 1⟩
  else ⟨h, 0, [], 0, false, 0⟩

/-- The heads whose slots a row of this device has: all, or at a satellite its own and those of the devices below it (R353). -/
def State.rowHeads (s : State) (i : Nat) : List Nat :=
  if s.on BootReg.role then (s.heads i).filter fun h => s.headLocal i h || (s.quadTo (s.get (Head.device i h))).isSome else s.heads i

/-- The rows of an index open (R354, R366), one for each line of a frame; a fast stream has none (R434). -/
def openRow (i n : Nat) (position : Int) (time : Nat) : Prog := look fun s => when (!(s.stream i).fast) <|
  let area := s.on (Asm.area i)
  let lines := if area then s.frameLines i else 1
  let fresh := (s.asm i).firstBand ≠ some (s.band i n)
  let slots := (s.rowHeads i).map fun h => s.newSlot i h n
  block [
    forEach (List.range lines) fun y => block [
      setAsm i fun t => { t with rows := t.rows ++ [
        ⟨n, y, position, time, [], if area then y == 0 else fresh, if area then y + 1 == lines else n == s.bandEnd i n, slots, none,
          false, false, 0, false, [], [], 0⟩] },
      forEach (slots.filter fun x => x.st = 5) fun x => bump (Geo.missingHead i x.head)],
    setAsm i fun t => { t with firstBand := some (s.band i n), lastIssued := some n },
    look fun s =>
      let open_ := s.get (Asm.openRows i) + lines
      block [set (Asm.openRows i) (satNat open_ 0xFFFF),
        when (s.get (Asm.openPeak i) < open_) (set (Asm.openPeak i) (satNat open_ 0xFFFF))],
    countTop 0 lines,
    forEach ((List.range 8).filter fun c => (s.heads i).any fun h => s.headCluster i h = nidCluster c) fun c =>
      bumpBy (Node.counter (nidCluster c) none 0) lines]

/-- The end index of a band was skipped: its last issued index takes its place (R365). -/
def bandEndSkipped (i n : Nat) : Prog := look fun s =>
  match (s.asm i).lastIssued with
  | some l => when (!s.on (Asm.area i) && n = s.bandEnd i n && s.band i l = s.band i n) (setAsm i fun t => { t with ends := t.ends ++ [l] })
  | none => .skip

/-- A head of a row has its exposure time. -/
def noteExposure (i n h t : Nat) : Prog :=
  setAsm i fun a => { a with rows := a.rows.map fun r => if r.index = n then { r with exps := r.exps ++ [(h, t)] } else r }

/-! Band tags (R536, R537). -/

/-- The payload of a band tag over what is covered so far. -/
def tagPayload (i band : Nat) (t : AsmSt) (key : List Byte) (final : Bool) : List Byte :=
  let g := t.tag
  let head := leBytes 8 band ++ leBytes 8 g.firstSeq ++ leBytes 8 g.lastSeq ++ leBytes 4 g.rows ++ leBytes 4 g.sides ++ leBytes 4 g.firstSide
    ++ leBytes 4 t.use ++ leBytes 1 t.keySlot ++ leBytes 1 (boolNat final) ++ zeros 6
  let iv := fun (k : Nat) => leBytes 4 t.use ++ leBytes 6 band ++ leBytes 1 i ++ leBytes 1 k
  head ++ slice (Config.gmac key (iv 0) (head ++ g.rowData)) 0 16 ++ slice (Config.gmac key (iv 1) (head ++ g.sideData)) 0 16

/-- A band tag enters the FIFO and the next one starts. -/
def sendTag (i band : Nat) (final : Bool) (trigger : Nat) : Prog := look fun s =>
  when (s.asm i).tagEn (block [
    sendSide 6 i 0 trigger (tagPayload i band (s.asm i)
      (match s.dev.sec.keys.find? fun k => k.1 = (s.asm i).keySlot with | some k => k.2.key | none => []) final),
    setAsm i fun t => { t with tag := TagSt.reset }])

/-! Closing rows (R355, R356, R359). -/

/-- Have all rows of a stream below an index closed, and can no such row open any more? -/
def State.closedBelow (s : State) (i n : Nat) : Bool :=
  n ≤ s.next i && !((s.asm i).rows.any fun r => r.index < n && r.closed.isNone)

/-- Held banks of the stream's pipelines become Loaded again once the rows before their swap have closed (R286). -/
def releaseBanks (i : Nat) : Prog := look fun s =>
  forEach ((List.range 64).filter fun p => (s.streamsOf p).contains i) fun p =>
    let b := 1 - s.get (Corr.active p)
    when (s.get (bankState p b) = 3 && s.closedBelow i (s.lastSwap p)) (set (bankState p b) 1)

/-- The old pipeline of a swap becomes the spare (R557): after row N − 1 has closed and every head is steered to the spare. -/
def handover (c : Nat) : Prog := look fun s =>
  match s.dev.swaps.find? fun x => x.1 = c with
  | none => .skip
  | some (_, w) =>
    let left := (s.heads w.stream).any fun h => s.pipeOf w.stream h = some w.old
    when (s.closedBelow w.stream w.n && !left) (block [
      set (Role.spareK c) (w.old % 8),
      set (Role.bound c) (putBits (putBits (s.get (Role.bound c)) (w.old % 8) 1 0) (w.spare % 8) 1 1),
      if w.auto then dev fun d => { d with pwr := { d.pwr with bist := nidPipe w.old :: d.pwr.bist } } else setState (nidPipe w.old) stGated,
      dev fun d => { d with swaps := d.swaps.filter fun x => x.1 ≠ c },
      set Live.swapPending (putBits (s.get Live.swapPending) c 1 0),
      set (Swap.swapIndexLo c) 0, set (Swap.swapIndexHi c) 0, set (Swap.swapFrom c) 0, set (Swap.swapTo c) 0, set (Swap.suspending c) 0,
      setJournal fun j => j.filter fun e => !(e.cls = 0x10 && e.code = 4 && e.node = nidCluster c
        && (match e.phase with | .armed _ _ => true | _ => false)),
      setFlag (if w.auto then Live.autoSpareDone else Live.spareSwapped),
      raise 0x10 2 (nidCluster c) (leBytes 1 (w.old % 8) ++ leBytes 1 (w.spare % 8) ++ leBytes 6 w.n ++ leBytes 1 (boolNat w.auto)),
      setPipe w.old fun _ => PipeSt.reset])

/-- What a late slot has received of its line, in its slot's columns. -/
def State.lateCols (s : State) (i h n y : Nat) : List Col × Nat :=
  let d := s.depth i
  match s.pipeOf i h with
  | none => ([], 0)
  | some p =>
    match (s.pipe p).out.find? fun o => o.stream = i && o.head = h && o.index = n && o.y = y with
    | some o => (headOps (s.geo i h n) d.1 d.2 (s.stream i).fill o.cols, o.mark)
    | none =>
      match (s.pipe p).line with
      | some l =>
        if l.head = some (i, h) ∧ l.index = n ∧ l.y = y then
          (headOps (s.geo i h n) d.1 d.2 (s.stream i).fill (s.partialLine p l), l.mark)
        else ([], 0)
      | none => ([], 0)

/-- Status bits 1, 2 and 4 of a line mark (Table 6-8), or missing for a FILL_LINE. -/
def markStatus (m : Nat) : Nat :=
  if bit m 6 then 1
  else 2 * boolNat (bit m 2 || bit m 5 || bit m 3 || bit m 4) + 4 * boolNat (bit m 1 || bit m 3 || bit m 4) + 0x10 * boolNat (bit m 0)

/-- A slot as the close of its row leaves it. -/
def State.closeSlot (s : State) (i n y : Nat) (x : SlotSt) : SlotSt :=
  if x.st = 1 then
    let l := s.lateCols i x.head n y
    { x with st := 4, cols := l.1, mark := l.2, status := Nat.lor 0x0A (Nat.land (markStatus l.2) 0xFE) }
  else if x.st = 0 then { x with st := 5, cols := [], status := 1 }
  else x

/-- Event 0x04/0x0A with the increments of RESYNC_DISCARD and LATE. -/
def lateEvent (p resync late : Nat) : Prog :=
  raiseLimited 4 0x0A (nidPipe p) 0 (fun k => [BitVec.ofNat 8 p] ++ leBytes 4 (k % 0x100000000) ++ leBytes 4 (k / 0x100000000))
    (· + resync + 0x100000000 * late)

/-- The rest of a late line is discarded (R220, R356). -/
def dropLate (i h n y : Nat) : Prog := look fun s =>
  match s.pipeOf i h with
  | none => .skip
  | some p => block [
      setPipe p fun t => { t with
        out := t.out.filter fun o => !(o.stream = i && o.head = h && o.index = n && o.y = y),
        line := t.line.map fun l => if l.head = some (i, h) ∧ l.index = n ∧ l.y = y then { l with fate := 2 } else l },
      bump (Framer.late p), countDropped (nidPipe p), lateEvent p 0 1]

/-- A remote part did not make a row complete (R356): REMOTE_MISSING and its event. -/
def remoteGone (i d n : Nat) : Prog := block [
  setFlag (Asm.remoteMissing i), bump (Asm.remoteMissing70 i), countMarked 1,
  raiseLimited 9 2 1 (16 * i + d) fun k => [BitVec.ofNat 8 i, BitVec.ofNat 8 d] ++ leBytes 6 n ++ leBytes 4 k]

/-- Everything a row's close does (R355, R356, R373). -/
def closeRow (i n y : Nat) (deadline : Bool) : Prog := look fun s =>
  match s.row i n y with
  | none => .skip
  | some r =>
    let unresolved := r.slots.any fun x => x.st < 2
    let hit := deadline && unresolved
    let slots := r.slots.map (s.closeSlot i n y)
    let late := r.slots.filter fun x => x.st = 1
    let gone := r.slots.filter fun x => x.st = 0
    let devs := ((gone.filter fun x => !s.headLocal i x.head).map fun x => s.get (Head.device i x.head)).dedup
    if r.closed.isSome then .skip
    else block [
      updRow i n y fun r => { r with
        slots := slots, closed := some s.now, deadline := hit, suspended := s.on (Del.suspended i), status := slots.map SlotSt.status },
      forEach late fun x => block [bump (Geo.lateHead i x.head), bump (Asm.lateSlots i), dropLate i x.head n y],
      forEach gone fun x => block [bump (Geo.missingHead i x.head), bump (Asm.missingSlots i)],
      forEach devs fun d => remoteGone i d n,
      when hit (block [setFlag (Asm.deadlineHit i), bump (Asm.deadlineCloses i), countMarked 1,
        raiseLimited 9 1 1 i fun k => leBytes 1 i ++ leBytes 6 n ++ leBytes 2 late.length ++ leBytes 2 gone.length ++ leBytes 4 k]),
      look fun s => set (Asm.openRows i) (s.get (Asm.openRows i) - 1),
      forEach ((List.range 8).filter fun c => (s.spans i).any fun sp => sp.1 = nidCluster c) fun c => look fun s =>
        set (Seam.closeQueue c) (satNat (s.get (Seam.closeQueue c) + 1) 31),
      releaseBanks i,
      look fun s => forEach (s.dev.swaps.map Prod.fst) handover]

/-- A row whose slots are all resolved closes. -/
def closeIfResolved (i n y : Nat) : Prog := look fun s =>
  match s.row i n y with
  | some r => when (r.closed.isNone && r.slots.all fun x => 2 ≤ x.st) (closeRow i n y false)
  | none => .skip

/-- A slot resolves before the row's close: absent or missing, in every row of the index. -/
def resolveSlot (i n h st : Nat) : Prog := look fun s =>
  let ys := ((s.asm i).rows.filter fun r => r.index = n && r.closed.isNone).map RowSt.line
  forEach ys fun y => block [
    updRow i n y fun r => r.setSlot h fun x => if x.st < 2 then { x with st := st, status := 1 } else x,
    closeIfResolved i n y]

/-! Head operations (R345, R350, R368). -/

/-- Match gains armed at N take effect with the first line of index N or later. -/
def applyMatch (i n : Nat) : Prog := look fun s =>
  match (s.asm i).armedMatch with
  | none => .skip
  | some (at_, gains) =>
    let shown := s.get (Asm.matchIndexLo i) + 0x100000000 * s.get (Asm.matchIndexHi i)
    when (at_ ≤ n) (block [
      forEach gains fun g => look fun s => block [
        setAsm i fun t => { t with oldMatch := t.oldMatch ++ [(at_, g.1, s.get (Geo.mg0 i g.1), s.get (Geo.mg1 i g.1), s.get (Geo.mg2 i g.1))] },
        set (Geo.mg0 i g.1) g.2.1, set (Geo.mg1 i g.1) g.2.2.1, set (Geo.mg2 i g.1) g.2.2.2],
      setAsm i fun t => { t with armedMatch := none },
      set (Asm.matchPending i) 0, set (Asm.matchIndexLo i) 0, set (Asm.matchIndexHi i) 0, setFlag (Asm.matchApplied i),
      raise 9 3 1 (leBytes 1 i ++ leBytes 6 shown),
      look fun s => forEach (s.dev.journal.filter fun e => e.cls = 9 && e.code = 3 && e.phase = .armed i at_) fun e => dropCmd e.seq])

/-- A head's left band goes to the neighbour cluster that makes its seam: the clusters of the head and of the head before it. -/
def State.edgeTo (s : State) (i h : Nat) : Option Nat :=
  let before := (s.heads i).filter (· < h)
  match before.getLast? with
  | none => none
  | some a =>
    let x := s.headCluster i a
    let y := s.headCluster i h
    if x ≠ 0 ∧ y ≠ 0 ∧ x ≠ y ∧ producer (fun k => if k = 0 then x else y) (.band 0 0 1) = x then some x else none

/-- A finished line passes the head operations into its slot; its row may close. -/
def slotComplete (p : Nat) : Prog := look fun s =>
  match (s.pipe p).out with
  | [] => .skip
  | o :: rest =>
    block [
      setPipe p fun t => { t with out := rest },
      applyMatch o.stream o.index,
      look fun s =>
        let d := s.depth o.stream
        let cols := headOps (s.geo o.stream o.head o.index) d.1 d.2 (s.stream o.stream).fill o.cols
        block [
          updRow o.stream o.index o.y fun r => if r.closed.isSome then r else r.setSlot o.head fun x =>
            if x.st ≠ 1 then x
            else if o.missing then { x with st := 5, cols := [], mark := o.mark, status := 1 }
            else { x with st := 2, cols := cols, mark := o.mark, status := markStatus o.mark },
          when ((s.edgeTo o.stream o.head).isSome) (bump (Seam.edgeBandsSent (p / 8)))],
      closeIfResolved o.stream o.index o.y]

/-! The close phase and coding (R357, R363, R364, R388, R391, R393). -/

/-- Is the row withheld in cutout mode (R331)? -/
def State.withheld (s : State) (i n : Nat) : Bool := (s.asm i).cutout && n % (s.asm i).audit ≠ 0

/-- Effort armed at N takes effect with the first row of index N or later. -/
def applyEffort (i n : Nat) : Prog := look fun s =>
  let at_ := s.get (Cod.effortIndexLo i) + 0x100000000 * s.get (Cod.effortIndexHi i)
  when (s.on (Cod.effortPending i) && (s.asm i).effortAt ≤ n) (block [
    setAsm i fun t => { t with effort := t.effortNext }, set (Cod.effortPending i) 0, set (Cod.effortIndexLo i) 0, set (Cod.effortIndexHi i) 0,
    setFlag (Cod.effortApplied i), raise 0x0A 4 1 (leBytes 1 i ++ leBytes 1 (s.asm i).effortNext ++ leBytes 6 at_),
    forEach (s.dev.journal.filter fun e => e.cls = 0x0A && e.code = 2 && e.phase = .armed i (s.asm i).effortAt) fun e => dropCmd e.seq])

/-- A header's status, marks and loss fields come last; this is the record of a row whose segments are coded. -/
def State.rowHeader (s : State) (i : Nat) (r : RowSt) : RowHeader :=
  let last := r.lastExp
  { seq := r.seq, stream := i, area := s.on (Asm.area i)
    flags := boolNat r.first + 2 * boolNat r.last + 4 * boolNat r.deadline
      + 8 * boolNat ((s.asm i).cutout && r.index % (s.asm i).audit == 0) + 16 * boolNat r.suspended
    index := r.index, format := (s.stream i).format, ratio := s.get (Cod.ratio i), effort := s.get (Cod.effortInUse i)
    position := r.position, time := r.time, exposureDelta := last - r.time, width := s.get (Asm.width i), line := r.line
    marked := (r.status.filter (· ≠ 0)).length, status := r.status.foldl Nat.lor 0, segments := s.get (Asm.segments i)
    length := s.get (Asm.recordBytes i), lossy := sumNat (r.segs.map SegJob.lossy), maxShift := (r.segs.map SegJob.shift).foldl max 0
    closeDelta := (match r.closed with | some t => t - last | none => 0) }

/-- One status byte per head entry up to the last valid one. -/
def State.statusBytes (s : State) (i : Nat) (r : RowSt) : List Nat :=
  let hs := s.heads i
  let n := (match hs.getLast? with | some h => h + 1 | none => 0)
  (List.range n).map fun h => match (r.slots.zip r.status).find? fun x => x.1.head = h with | some x => x.2 | none => 0

/-- The row is complete: its head-status record, its record or its withholding, its counts, and the tag of its band. -/
def emitRow (i : Nat) (r : RowSt) : Prog := look fun s =>
  let st := r.status
  let marked := st.any (· ≠ 0)
  let data := (s.rowHeader i r).bytes ++ r.segs.flatMap fun g => g.done.getD []
  block [
    bump (Asm.rows i),
    when marked (block [bump (Asm.markedRows i), countMarked 1,
      sendSide 5 i 0 r.lastExp (headStatusPayload r.seq r.index r.line (s.statusBytes i r))]),
    if s.withheld i r.index then bump (Asm.withheld i)
    else enqueueRecord i ⟨false, r.seq, data, r.lastExp, marked, 0⟩,
    setAsm i fun t => { t with
      rows := t.rows.filter fun x => !(x.index = r.index && x.line = r.line),
      ends := t.ends.filter (· ≠ r.index) },
    when (r.last || (!s.on (Asm.area i) && (s.asm i).ends.contains r.index)) (sendTag i (s.band i r.index) false r.lastExp)]

/-- The heads whose columns touch a range of columns. -/
def State.headsOver (s : State) (i first width : Nat) : List Nat :=
  (s.heads i).filter fun h => decide (s.get (Geo.col0 i h) < first + width) && decide (first < s.get (Geo.col0 i h) + s.get (Geo.outWidth i h))

/-- The close phase of the first closed row (R350 to R352, R357, R363). -/
def rowClosePhase (i : Nat) : Prog := look fun s =>
  match (s.asm i).rows.find? fun r => !r.coding with
  | none => .skip
  | some r =>
    if r.closed.isNone ∨ s.on BootReg.role then .skip
    else
      let hs := s.heads i
      let d := s.depth i
      let fill := (s.stream i).fill
      let gs := hs.map fun h => s.geo i h r.index
      let joined := joinRow gs (r.slots.map SlotSt.cols) d.2 fill
      let prods := (places gs).map (producer fun k => s.headCluster i (hs.getD k 0))
      let dead := fun (nid : Nat) => decide (nid ≠ 1) && decide (s.get (Node.state nid) = stFaulted)
      let cells := (joined.zip prods).map fun x => if dead x.2 then fillCol d.2 fill else x.1.1
      let value := fun (c : Col) => if c.fill then List.replicate d.2 fill else c.v
      let rescued := (joined.zip prods).filter fun x => x.1.2.1 ≠ 0 && !dead x.2
      let spans := spansOf prods 0
      let w := cells.length
      let ratio := s.get (Cod.ratio i)
      let total := rowBudget w d.1 d.2 ratio
      let segs : List SegJob :=
        if ratio = 0 then [⟨1, 0, w, total, cells.map fun c => ⟨c.fill, value c⟩, none, 0, 0, 0, []⟩]
        else (spans.zip (segmentBudgets total w (spans.map fun x => x.2.2))).map fun x =>
          ⟨if dead x.1.1 then 1 else x.1.1, x.1.2.1, x.1.2.2, x.2,
            ((cells.drop x.1.2.1).take x.1.2.2).map fun c => ⟨c.fill, value c⟩, none, 0, 0, 0, []⟩
      let clusters := (List.range 8).filter fun c => spans.any fun x => x.1 = nidCluster c
      let r' := { r with coding := true, seq := (s.stream i).seq, segs := segs }
      block [
        forEach rescued fun x => block [bump (Geo.rescuedHead i (hs.getD x.1.2.2 0)),
          when (x.2 ≠ 1) (block [bump (Seam.rescuedColumns (x.2 - 0x10)), setFlag (Seam.rescue (x.2 - 0x10))])],
        forEach clusters fun c => fresh fun k => look fun s =>
          let most := ((spans.filter fun x => x.1 = nidCluster c).map fun x => x.2.2 * d.2).foldl max 0
          let t := k % (65 + ceilDiv most 32)
          block [bumpBy (Seam.spansClosed c) (spans.filter fun x => x.1 = nidCluster c).length,
            set (Seam.closeQueue c) (s.get (Seam.closeQueue c) - 1),
            when (s.get (Seam.closePeak c) < t) (set (Seam.closePeak c) t),
            bump (Node.counter (nidCluster c) none 1)],
        forEach (r.slots.filter fun x => decide (x.st = 3 ∨ x.st = 5)) fun x =>
          (match s.edgeTo i x.head with | some c => bump (Seam.edgeBandsFill (c - 0x10)) | none => .skip),
        setStream i fun t => { t with seq := (t.seq + 1) % 0x1000000000000 },
        applyEffort i r.index,
        look fun s =>
        let r' := { r' with effort := (s.asm i).effort }
        if s.withheld i r.index then emitRow i { r' with segs := [] }
        else block [
          setAsm i fun t => { t with rows := t.rows.map fun x => if x.index = r.index ∧ x.line = r.line then r' else x },
          when (ratio ≠ 0) (forEach segs fun g => when (g.producer ≠ 1)
            (look fun s => set (Slice.codeQueue (g.producer - 0x10)) (satNat (s.get (Slice.codeQueue (g.producer - 0x10)) + 1) 31)))]]

/-- Is a row intra (R382)? -/
def State.isIntra (s : State) (i : Nat) (r : RowSt) : Bool :=
  s.on (Cod.independent i) || (s.asm i).fresh || r.first || (s.asm i).cutout

/-- The coding of segment k of a row. -/
def State.codeSegment (s : State) (i : Nat) (r : RowSt) (k : Nat) (g : SegJob) : Coded :=
  let d := s.depth i
  let comps := (List.range d.2).map fun c => g.cols.map fun x => x.v.getD c 0
  if s.get (Cod.ratio i) = 0 then
    ⟨slice (packBits d.1 (interleave comps g.width)) 0 g.budget, 0, 0, 0, [], comps⟩
  else
    encodeSegment ⟨d.1, d.2, g.width, g.budget, s.isIntra i r, s.get (Cod.effortInUse i)⟩
      (leBytes 1 i ++ leBytes 1 k ++ leBytes 6 r.seq) comps ((s.asm i).refs.getD k [])

/-- Is a throttle step in effect on a stream? -/
def State.throttled (s : State) (i step : Nat) : Bool := s.dev.pwr.inEffect.contains (step + 16 * (i + 1))

/-- A producer finishes coding segment k of the oldest row in the close phase; the last segment completes the row record. -/
def segmentDone (i k : Nat) : Prog := look fun s =>
  match (s.asm i).rows.find? fun r => r.coding with
  | none => .skip
  | some r =>
    match r.segs[k]? with
    | none => .skip
    | some g =>
      if g.done.isSome then .skip
      else
        block [
          when (r.segs.all fun g => g.done.isNone)
            (set (Cod.effortInUse i) (if s.throttled i 2 then 0 else r.effort)),
          fresh fun t => look fun s =>
            let d := s.depth i
            let c := s.codeSegment i r k g
            let coded := s.get (Cod.ratio i) ≠ 0
            let limit := 40 + ceilDiv (4 * blocksOf g.width d.2) 3
            let lossyHeads := (c.bad.flatMap fun j => s.headsOver i (g.first + 32 * j) (if g.width < 32 * j + 32 then g.width - 32 * j else 32)).dedup
            let g' := { g with done := some c.bytes, lossy := c.lossy, held := c.held, shift := c.maxShift, bad := c.bad }
            let status := (r.slots.zip r.status).map fun x => if lossyHeads.contains x.1.head then Nat.lor x.2 0x20 else x.2
            let r' := { r with segs := r.segs.set k g', status := status }
            let all := r'.segs.all fun g => g.done.isSome
            let lossy := sumNat (r'.segs.map SegJob.lossy)
            let held := sumNat (r'.segs.map SegJob.held)
            block [
              when (coded && g.producer ≠ 1) (look fun s =>
                let q := g.producer - 0x10
                block [bump (Slice.segmentsCoded q), bumpBy (Slice.blocksCoded q) (blocksOf g.width d.2),
                  bumpBy (Slice.lossyBlocks q) c.lossy, bumpBy (Slice.heldBlocks q) c.held,
                  set (Slice.codeQueue q) (s.get (Slice.codeQueue q) - 1),
                  when (s.get (Slice.codePeak q) < t % (limit + 1)) (set (Slice.codePeak q) (t % (limit + 1)))]),
              setAsm i fun a => { a with
                rows := a.rows.map fun x => if x.index = r.index ∧ x.line = r.line then r' else x,
                refs := (a.refs ++ List.replicate (k + 1 - a.refs.length) []).set k c.y },
              when all (block [
                when coded (block [bump (Cod.codedRows i), when (s.isIntra i r) (bump (Cod.intraRows i))]),
                when (lossy ≠ 0) (block [bump (Cod.lossyRows i), countMarked 1, bumpBy (Cod.lossyBlocks i) lossy, bumpBy (Cod.heldBlocks i) held,
                  setFlag (Cod.lossyRow i), when (held ≠ 0) (setFlag (Cod.held i)),
                  raiseLimited 0x0A 1 1 i fun n => leBytes 1 i ++ leBytes 6 r.seq ++ leBytes 3 (satNat lossy 0xFFFFFF)
                    ++ leBytes 1 ((r'.segs.map SegJob.shift).foldl max 0) ++ leBytes 4 n]),
                setAsm i fun a => { a with fresh := false },
                emitRow i r'])]]

/-! The commands' rows. -/

/-- SLOT_COMPLETE (R354): the oldest finished line of a pipeline completes its slot. -/
def execSlotComplete (p : Fin 64) (s : State) : Host.Outcome State Fault Refusal := .next (run (slotComplete p.val) s)

/-- ROW_DEADLINE (R355): the lowest open row of a stream reaches its deadline. A satellite's part closes by its lead (R353). -/
def execRowDeadline (i : Fin 16) (s : State) : Host.Outcome State Fault Refusal :=
  .next (run (look fun s =>
    match (s.asm i.val).rows.find? fun r => r.closed.isNone with
    | some r => when (!s.on BootReg.role) (closeRow i.val r.index r.line true)
    | none => .skip) s)

/-- SEGMENT_CODE_DONE (R391). -/
def execSegmentCodeDone (i : Fin 16) (k : Fin 62) (s : State) : Host.Outcome State Fault Refusal := .next (run (segmentDone i.val k.val) s)

end Sys2Proof.Machine
end

