-- ==== Sys2Proof/Machine/Measure.lean ====
section
/-! DEFINITION. Values armed at an index, statistics periods and tile rows (R286, R312, R314 to R317, R323 to R340). -/

namespace Sys2Proof.Machine
open Reg

/-! Values armed at an index. -/

/-- The index that a pair of registers shows. -/
def State.index2 (s : State) (lo hi : Fld) : Nat := s.get lo + 0x100000000 * s.get hi

/-- UPDATE_PENDING of stage 4 and the screen's TUNE_PENDING stand in registers; an armed gauge swap has stage 3. -/
def noteApplied (p : Nat) (a : Armed) : Prog := look fun s =>
  if a.stage = 3 then .skip
  else if a.stage = 9 then
    let n := s.index2 (Scr.tuneIndexLo p) (Scr.tuneIndexHi p)
    block [set (Scr.tunePending p) 0, set (Scr.tuneIndexLo p) 0, set (Scr.tuneIndexHi p) 0, setFlag (Scr.tuned p),
      raiseStage 8 2 (nidPipe p) 9 (leBytes 6 n)]
  else
    let n := s.index2 (Reg.Col.updateIndexLo p) (Reg.Col.updateIndexHi p)
    block [set (Reg.Col.updatePending p) 0, set (Reg.Col.updateIndexLo p) 0, set (Reg.Col.updateIndexHi p) 0,
      setFlag (Reg.Col.applied p), raiseStage 7 1 (nidPipe p) a.stage (leBytes 1 a.stage ++ leBytes 6 n)]

/-- The stage that a command arms, and the key of its list of pipelines. -/
def armStage (cls code : Nat) : Option (Nat × Nat) :=
  if cls = 6 ∧ code = 6 then some (3, 0x40) else if cls = 7 ∧ code = 1 then some (4, 1) else if cls = 7 ∧ code = 4 then some (6, 1)
  else if cls = 8 ∧ code = 2 then some (9, 1) else none

/-- The pipelines of a list of NIDs. -/
def nidPipes (bs : List Byte) : List Nat := (chunks 2 bs.length bs).map fun b => (leVal b) % 0x1000 - 0x100

/-- Does a pipeline hold a value armed for a stage? -/
def State.armedFor (s : State) (p st : Nat) : Bool := (s.pipe p).armed.any fun a => a.stage = st

/-- A command that armed values is done once no pipeline of its list holds them armed: it leaves the journal. -/
def settleArmed : Prog := look fun s =>
  setJournal fun j => j.filter fun e => match e.phase, armStage e.cls e.code with
    | .armed _ _, some (st, k) => (nidPipes (e.bytes k)).any fun p => s.armedFor p st
    | _, _ => true

/-- The Loaded bank becomes Active and the old one Held, or Loaded at once without rows before N (R286). -/
def switchBank (p n : Nat) : Prog := look fun s =>
  let a := s.get (Corr.active p)
  let cnt := s.get (Corr.staticCount p)
  let given := s.index2 (Corr.swapIndexLo p) (Corr.swapIndexHi p)
  let rows := (s.streamsOf p).any fun i => s.sState i ≠ sAdmitted && !s.closedBelow i n
  block [
    set (bankState p (1 - a)) 2, set (bankState p a) (if rows then 3 else 1), set (Corr.active p) (1 - a),
    set (Corr.staticCount p) (s.get (Corr.staticCountIn p)), set (Corr.staticCountIn p) cnt,
    set (Corr.swapPending p) 0, set (Corr.swapIndexLo p) 0, set (Corr.swapIndexHi p) 0,
    set (Corr.lastSwapLo p) given, set (Corr.lastSwapHi p) (given / 0x100000000),
    setFlag (Corr.swapped p), raiseStage 6 2 (nidPipe p) 3 (leBytes 1 (1 - a) ++ leBytes 6 given)]

/-- Values armed for stages that a test names take effect for index n: the old words stay for earlier indices. -/
def applyArmed (p n : Nat) (stages : Nat → Bool) : Prog := look fun s =>
  let due := (s.pipe p).armed.filter fun a => stages a.stage && a.n ≤ n
  block [
    forEach due fun a => look fun s => block [
      setPipe p fun t => { t with
        armed := t.armed.filter (· ≠ a)
        old := (t.old.filter fun o => o.stage ≠ a.stage) ++ [⟨a.stage, a.n, a.words.map fun w => (w.1, (s.reg w.1).toNat)⟩] },
      if a.stage = 3 then switchBank p a.n
      else block [forEach a.words fun w => setReg w.1 (BitVec.ofNat 32 w.2), noteApplied p a]],
    when (!due.isEmpty) settleArmed]

/-! Heads of a pipeline. -/

def setHead (p k : Nat) (f : HeadSt → HeadSt) : Prog := setPipe p fun t => t.setHead k f

def State.headSt (s : State) (p k : Nat) : HeadSt := (s.pipe p).headSt k

/-- The pipeline and key of a local head; none for a fast stream, whose lines pass no stage but 11 (R434). -/
def State.headAt (s : State) (i h : Nat) : Option (Nat × Nat) :=
  (if (s.stream i).fast then none else s.pipeOf i h).map fun p => (p, headKey (s.get (Head.port i h)) (s.get (Head.vc i h)))

/-- The stream and head behind a key. -/
def State.headBy (s : State) (k : Nat) : Option (Nat × Nat) := s.headOf (k / 32) (k % 32)

/-- Which of a pipeline's heads a key is: 0 or 1, by head entry. -/
def State.headNo (s : State) (p k : Nat) : Nat :=
  match s.headBy k with
  | some (i, h) => ((s.heads i).filter fun g => s.pipeOf i g = some p && g < h).length
  | none => 0

/-- The trigger of a row of an index, for the bound of a side record. -/
def State.trigOf (s : State) (i n : Nat) : Nat :=
  match (s.asm i).rows.find? fun r => r.index = n with | some r => r.lastExp | none => s.now

/-! Statistics (R314 to R317). -/

def State.statCfg (s : State) (p : Nat) (pc : PixCfg) : StatCfg :=
  ⟨pc.three, s.on (Reg.Col.yEn p), s.on (Reg.Col.y1024 p), s.get (Corr.numChM1 p) + 1, s.get (Reg.Col.zonesXM1 p) + 1, s.get (Reg.Col.zonesYM1 p) + 1,
    s.get (Reg.Col.zoneW p), s.get (Reg.Col.zoneH p), s.get (Reg.Col.originX p), s.get (Reg.Col.originY p), s.get (Reg.Col.clipLevel p),
    s.on (Framer.area p)⟩

/-- Is the open period one that is counted: every EVERY-th since the stream started (log entry 10)? -/
def State.statOn (s : State) (p k : Nat) : Bool :=
  s.on (Reg.Col.enable p) && ((s.headSt p k).periods + 1) % (s.get (Reg.Col.everyM1 p) + 1) = 0

/-- A period closes; a counted one hands its record over. -/
def closePeriod (p k n : Nat) (isPartial : Bool) : Prog := look fun s =>
  let h := s.headSt p k
  let c := s.statCfg p (s.pixCfg p (some n) ((s.dtsOf p).headD 0))
  let bytes := c.payload (nidPipe p) (k / 32) (k % 32) isPartial h.acc
  match s.headBy k with
  | none => .skip
  | some (i, _) =>
    block [
      when (s.statOn p k) (block [
        sendSide 2 i 0 (s.trigOf i n) bytes, bump (Reg.Col.records p),
        when isPartial (block [bump (Reg.Col.partialRecords p),
          raiseStage 7 3 (nidPipe p) 8 (leBytes 1 (s.headNo p k) ++ leBytes 6 h.acc.first)]),
        setHead p k fun x => { x with lastStat := bytes }]),
      setHead p k fun x => { x with acc := StatAcc.empty, periods := x.periods + 1 }]

/-- A line of the stage 6 output is counted, or missed while Calibrating. -/
def statLine (p k n y : Nat) (pc : PixCfg) (line : List Col) (calibrating : Bool) : Prog := look fun s =>
  when (s.statOn p k) (setHead p k fun x => { x with
    acc := if calibrating then { x.acc with missed := x.acc.missed + 1 } else (s.statCfg p pc).add pc n y line x.acc })

/-! Tiles (R321 to R340). -/

def tileCount (pixels : Nat) : Nat := ceilDiv pixels 64

/-- The screen's parameters for a tile row whose first index is n. -/
def State.screenCfg (s : State) (p n : Nat) (suspended : Bool) : ScreenCfg :=
  let g := fun (f : Fld) => s.stageGet p 9 f (some n)
  ⟨(g (Scr.w0 p), g (Scr.w1 p), g (Scr.w2 p)), g (Scr.thresh p), (g (Scr.floor0 p), g (Scr.floor1 p), g (Scr.floor2 p)),
    s.on (Scr.holdFlagged p), s.get (Scr.margin p), s.get (Scr.quota p), s.on (Scr.cutout p), suspended⟩

/-- The first index of a tile row. -/
def State.tileFirst (s : State) (p row : Nat) : Nat := if s.on (Framer.area p) then row else 16 * row

/-- The position of a tile row that each index or line takes, and whether every position is done. -/
def State.tileFull (s : State) (p i : Nat) (t : TileRow) : Bool :=
  let lo := if !s.on (Framer.area p) && (s.gen i).n0 / 16 = t.row then (s.gen i).n0 % 16 else 0
  let hi := if s.on (Framer.area p) && s.get (Framer.frameLines p) < 16 * t.areaRow + 16 then s.get (Framer.frameLines p) - 16 * t.areaRow else 16
  (List.range hi).all fun b => b < lo || bit t.done b

/-- A tile row closes: scores, map, cutouts, counts, histories (R326 to R334). -/
def closeTiles (p k row areaRow : Nat) (isPartial : Bool) : Prog := look fun s =>
  match (s.headSt p k).tiles.find? fun t => t.row = row && t.areaRow = areaRow, s.headBy k with
  | some t, some (i, _) =>
    let first := s.tileFirst p row
    let cfg := s.screenCfg p first t.suspended
    let pixels := s.get (Framer.linePixels p)
    let span := if s.on (Framer.area p) && s.get (Framer.frameLines p) < 16 * areaRow + 16 then s.get (Framer.frameLines p) - 16 * areaRow else 16
    let hist := (s.headSt p k).hist
    let scored := (List.range (tileCount pixels)).map fun c =>
      scoreTile cfg (tileFeatures pixels c span t.lines) (hist.getD c TileHist.reset)
    let marked := markTiles cfg (scored.map Prod.fst)
    let mask := sumNat ((numbered t.lines).map fun l => match l.1 with | some x => if x.measured then 2 ^ l.2 else 0 | none => 0)
    let trig := s.trigOf i (if s.on (Framer.area p) then row else 16 * row + 15)
    let fmt := (s.stream i).format
    let flagged := (marked.1.filter fun x => x.flags % 2 = 1).length
    let notCut := (marked.1.filter fun x => bit x.flags 1).length
    block [
      setHead p k fun x => { x with
        tiles := x.tiles.filter fun y => !(y.row = row && y.areaRow = areaRow), hist := scored.map Prod.snd },
      sendSide 3 i 0 trig (tileMap (nidPipe p) (k / 32) (k % 32) (tileCount pixels)
        (boolNat t.suspended + 2 * boolNat isPartial + 4 * boolNat (s.on (Framer.area p))) cfg.thresh row areaRow mask marked.1 marked.2),
      forEach marked.2 fun c => sendSide 4 i 0 trig
        (cutoutPayload (nidPipe p) (k / 32) (k % 32) c fmt (s.stream i).fill row areaRow (marked.1.getD c ⟨0, 0, (0, 0, 0), (0, 0, 0)⟩) t.lines),
      bumpBy (Scr.tilesScored p) (marked.1.filter fun x => !bit x.flags 2 && !bit x.flags 3 && !t.suspended).length,
      bumpBy (Scr.tilesFlagged p) flagged, bumpBy (Scr.tilesCut p) marked.2.length, bumpBy (Scr.notCut p) notCut,
      bumpBy (Scr.invalid p) (marked.1.filter fun x => bit x.flags 2).length, bump (Scr.maps p),
      when t.suspended (bump (Scr.suspendedMaps p)),
      when (notCut ≠ 0) (block [setFlag (Scr.quotaHit p),
        raiseLimitedStage 8 1 (nidPipe p) 9 fun n => leBytes 6 row ++ leBytes 2 notCut ++ leBytes 4 n]),
      when (s.pipe p).histReset (block [
        setPipe p fun x => { x with histReset := false, heads := x.heads.map fun e => (e.1, { e.2 with hist := [] }) },
        raiseStage 8 3 (nidPipe p) 9 (leBytes 6 (row + 1))]),
      -- the old pipeline of a swap moves its histories to the spare with its last tile row before N (R557)
      match s.dev.swaps.find? fun w => w.2.stream = i && w.2.old = p with
      | some (_, w) => when (decide (w.n ≤ (if s.on (Framer.area p) then row + 1 else 16 * row + 16)))
          (look fun s => setHead w.spare k fun x => { x with hist := (s.headSt p k).hist })
      | none => .skip]
  | _, _ => .skip

/-- A tile row takes one position: a line, or none where it is absent or lost. -/
def tileMark (p k row areaRow pos : Nat) (line : Option TileLine) : Prog := look fun s =>
  match s.headBy k with
  | none => .skip
  | some (i, _) =>
    if !s.on (Scr.enable p) then .skip
    else block [
      when (!((s.headSt p k).tiles.any fun t => t.row = row && t.areaRow = areaRow)) (block [
        applyArmed p (s.tileFirst p row) (· = 9),
        setHead p k fun x => { x with tiles := x.tiles ++ [⟨row, areaRow, List.replicate 16 none, 0, s.throttled i 3⟩] }]),
      setHead p k fun x => { x with tiles := x.tiles.map fun t =>
        if t.row = row ∧ t.areaRow = areaRow then
          { t with lines := t.lines.set pos line, done := if bit t.done pos then t.done else t.done + 2 ^ pos }
        else t },
      look fun s => match (s.headSt p k).tiles.find? fun t => t.row = row && t.areaRow = areaRow with
        | some t => when (s.tileFull p i t) (closeTiles p k row areaRow false)
        | none => .skip]

/-- Where an index or a line of a frame lies: tile row, area row, position. -/
def State.tilePlace (s : State) (p n y : Nat) : Nat × Nat × Nat :=
  if s.on (Framer.area p) then (n, y / 16, y % 16) else (n / 16, 0, n % 16)

/-! What becomes of an index for a head. -/

/-- A processed line: statistics and tiles; a line-scan period closes with its end index. -/
def measureLine (p k n y : Nat) (pc : PixCfg) (v6 : List Col) (formatted : List Col) (mark : Nat) : Prog := look fun s =>
  let cal := s.get (Node.state (nidPipe p)) = stCalibrating
  let pl := s.tilePlace p n y
  let t : TileLine := ⟨v6.map fun c => if c.fill then none else some (pc.luma c), formatted, mark, !cal⟩
  match s.headBy k with
  | none => .skip
  | some (i, _) => block [
      statLine p k n y pc v6 cal,
      setHead p k fun x => { x with seen := n + 1 },
      tileMark p k pl.1 pl.2.1 pl.2.2 (some t),
      when (!s.on (Framer.area p) && s.isBandEnd i n) (closePeriod p k n false)]

/-- An index that gives a head no line: absent (with HOLES) or dropped. -/
def measureLost (p k n : Nat) (absent : Bool) : Prog := look fun s =>
  match s.headBy k with
  | none => .skip
  | some (i, _) =>
    block [
      when (s.statOn p k) (setHead p k fun x => { x with acc := { x.acc with missed := x.acc.missed + 1, holes := x.acc.holes || absent } }),
      setHead p k fun x => { x with seen := n + 1 },
      if s.on (Framer.area p) then
        forEach (List.range (s.get (Framer.frameLines p))) fun y => tileMark p k n (y / 16) (y % 16) none
      else tileMark p k (n / 16) 0 (n % 16) none,
      when (s.isBandEnd i n) (closePeriod p k n false)]

/-- An index is absent for a head (R251): slot, statistics and tiles. -/
def resolveAbsent (i h n : Nat) : Prog := block [
  resolveSlot i n h 3,
  look fun s => match s.headAt i h with | some (p, k) => measureLost p k n true | none => .skip]

/-- An index skipped as over-rate fills its place in every head's tile row; a skipped end index closes the periods of heads that have
already finished with the band's last issued index (R323, R365). -/
def measureSkipped (i n : Nat) : Prog := look fun s => block [
  bandEndSkipped i n,
  forEach (s.heads i) fun h => match s.headAt i h with
    | some (p, k) => block [
        when (!s.on (Framer.area p)) (tileMark p k (n / 16) 0 (n % 16) none),
        look fun s => match (s.asm i).lastIssued with
          | some l => when ((s.asm i).ends.contains l && n = s.bandEnd i n && (s.headSt p k).seen = l + 1) (closePeriod p k l false)
          | none => .skip]
    | none => .skip]

/-- A stream stops: open periods and tile rows of its heads are reported at once, as partial (R317, Table 10-4). -/
def measureStop (i : Nat) : Prog := look fun s =>
  forEach (s.heads i) fun h => match s.headAt i h with
    | some (p, k) => block [
        when (decide ((s.headSt p k).acc ≠ StatAcc.empty)) (closePeriod p k (s.headSt p k).acc.last true),
        forEach (s.headSt p k).tiles fun t => closeTiles p k t.row t.areaRow true]
    | none => .skip

/-- Step 3 takes effect on a stream: its open tile rows are delivered as suspended (R336). -/
def suspendTiles (i : Nat) : Prog := look fun s => dev fun d => { d with
  pipes := d.pipes.map fun e => (e.1, { e.2 with
    heads := e.2.heads.map fun x =>
      if (match s.headBy x.1 with | some y => decide (y.1 = i) | none => false) then
        (x.1, { x.2 with tiles := x.2.tiles.map fun t => { t with suspended := true } })
      else x }) }

end Sys2Proof.Machine
end

