-- ==== Sys2Proof/Machine/Power.lean ====
section
/-! DEFINITION. Pipelines and clusters asleep and awake (R64, R71 to R76). -/

namespace Sys2Proof.Machine
open Reg

/-- The wake policy in force: the host's, or for 0xFF the one resolved at admission (R73, R75); Awake under a started fast stream
(R434). -/
def State.policy (s : State) (p : Nat) : Nat :=
  if (s.streamsOf p).any fun i => (s.stream i).fast && s.sState i = sStarted then 0 else
  if Tbl.get 0xFF s.dev.pwr.policies p = 0xFF then Tbl.get 1 s.dev.pwr.resolved p else Tbl.get 0xFF s.dev.pwr.policies p

/-- The sleep or wake under way: 0 none, 1 powering down, 3 the same with a wake waiting, 4 waking. -/
def State.sleep (s : State) (p : Nat) : Nat := Tbl.get 0 s.dev.pwr.sleeping p
def setSleep (p v : Nat) : Prog := setPwr fun x => { x with sleeping := Tbl.set 0 x.sleeping p v }

/-- Does a pipeline take lines: is it Running or Calibrating? -/
def State.awake (s : State) (p : Nat) : Bool :=
  s.get (Node.state (nidPipe p)) = stRunning || s.get (Node.state (nidPipe p)) = stCalibrating

/-- A wake request (R71, R73, R76): a power-down that has not isolated the pipeline is cancelled, one that has finishes first; which
of the two holds is a free choice. -/
def wakeRequest (p : Nat) : Prog := look fun s =>
  let st := s.get (Node.state (nidPipe p))
  if s.sleep p = 1 then fresh fun k =>
    if k % 2 = 0 then block [setSleep p 0, setState (nidPipe p) stRunning] else setSleep p 3
  else if (st = stGated ∨ st = stRetained) ∧ s.sleep p = 0 then
    block [setSleep p 4,
      setPwr fun x => { x with plls := if x.plls.contains (p / 8) then x.plls else (p / 8) :: x.plls },
      when (s.get (Node.state (nidCluster (p / 8))) = stGated) (setState (nidCluster (p / 8)) stRunning)]
  else .skip

/-- The wake is complete: the pipeline is Running. -/
def wakeDone (p : Nat) : Prog := look fun s =>
  when (s.sleep p = 4) (block [setSleep p 0, setDomain (29 + p) true false, setState (nidPipe p) stRunning])

/-- PIPELINE_WAKE_DONE (R73). -/
def execPipelineWakeDone (p : Fin 64) (s : State) : Host.Outcome State Fault Refusal := .next (run (wakeDone p.val) s)

/-- PIPELINE_IDLE_TIMEOUT (R74): a bound pipeline goes to the sleep state of its policy. -/
def execPipelineIdleTimeout (p : Fin 64) (s : State) : Host.Outcome State Fault Refusal :=
  .next (run (look fun s =>
    if !s.boundAdmitted p.val ∨ s.get (Node.state (nidPipe p.val)) ≠ stRunning ∨ s.policy p.val = 0 then .skip
    else block [setState (nidPipe p.val) stGated, when (2 ≤ s.policy p.val) (setSleep p.val 1)]) s)

/-- PIPELINE_POWER_DOWN_DONE (R76). -/
def execPipelinePowerDownDone (p : Fin 64) (s : State) : Host.Outcome State Fault Refusal :=
  .next (run (look fun s =>
    if s.sleep p.val = 1 ∨ s.sleep p.val = 3 then
      block [setState (nidPipe p.val) stRetained, setDomain (29 + p.val) false true,
        setSleep p.val 0, when (s.sleep p.val = 3) (wakeRequest p.val)]
    else .skip) s)

/-- CLUSTER_IDLE_TIMEOUT (R71): firmware stops the PLL of a cluster whose pipelines are all Retained or Off and whose ports serve no
started stream. -/
def execClusterIdleTimeout (c : Fin 8) (s : State) : Host.Outcome State Fault Refusal :=
  .next (run (look fun s =>
    let idle := (List.range 8).all fun k =>
      let st := s.get (Node.state (nidPipe (8 * c.val + k)))
      (st = stOff || st = stRetained) && !s.boundStarted (8 * c.val + k)
    when idle (block [setPwr fun x => { x with plls := x.plls.filter (· ≠ c.val) },
      when (s.get (Node.state (nidCluster c.val)) = stRunning) (setState (nidCluster c.val) stGated)])) s)

end Sys2Proof.Machine
end

