-- ==== Sys2Proof/Machine/Trigger.lean ====
section
/-! DEFINITION. Encoders, trigger generators, head triggers and binding windows (R227 to R252, R555). -/

namespace Sys2Proof.Machine
open Reg

/-! Thresholds in 2^−32 counts or ns (R236, R242). -/

def State.pitch (s : State) (i : Nat) : Nat := s.get (Trig.pitchFrac i) + 0x100000000 * s.get (Trig.pitchInt i)
def State.phase (s : State) (i : Nat) : Nat := s.get (Trig.phaseFrac i) + 0x100000000 * s.get (Trig.phaseInt i)

/-- The base threshold of index n. -/
def State.baseThr (s : State) (i n : Nat) : Nat := s.phase i + (n - (s.gen i).n0) * s.pitch i

/-- off_h. -/
def State.headOff (s : State) (i h : Nat) : Nat :=
  ((s.sget (Head.posOffsetInt i h) - s.sget (Trig.offsetBase i)) * 0x100000000 + (s.get (Head.posOffsetFrac i h) * 0x10000 : Nat)).toNat

/-- The row position of a threshold: signed 48.16, floored under DIR 1 (log entry 11). -/
def State.rowPosition (s : State) (i thr : Nat) : Int :=
  if 4 ≤ s.get (Trig.source i) then 0
  else
    let origin : Int := signed 48 (s.get (Trig.originLo i) + 0x100000000 * s.get (Trig.originHi i))
    (origin * 0x100000000 + (if s.on (Trig.dir i) then -(thr : Int) else thr)) / 0x10000

/-- When a threshold fires as far as the counts so far say: at the last raising count where it is reached or overtaken, at its
interpolated time, or not yet. -/
def State.dueTime (s : State) (i int frac : Nat) : Option Nat :=
  let g := s.gen i
  if int < g.mark then some g.tMark
  else if int = g.mark then
    if frac = 0 then some g.tMark
    else if !s.on (Enc.interpEn (s.get (Trig.source i))) then none
    else match g.delta with
      | some d => some (g.tMark + (frac * d + 0x80000000) / 0x100000000)
      | none => none
  else none

/-! Absent slots (R251, R269). -/

/-- A pending index resolves absent for a head. -/
def slotAbsent (i h n : Nat) : Prog := block [
  bump (Head.absent i h), countMarked 1,
  raiseLimited 5 8 1 (0x100 * i + h) fun k => [BitVec.ofNat 8 i, BitVec.ofNat 8 h] ++ leBytes 6 n ++ leBytes 4 k,
  resolveAbsent i h n]

/-- A remote head's trigger message is lost (R247). -/
def cascadeLost (i h n : Nat) : Prog := block [
  setFlag (Trig.cascadeTrigLost i), bump (Trig.cascadeLostCount i), countMarked 1,
  raiseLimited 5 9 1 (0x100 * i + h) fun k => [BitVec.ofNat 8 i, BitVec.ofNat 8 h] ++ leBytes 6 n ++ leBytes 4 k,
  slotAbsent i h n]

/-! Head triggers (R243, R245, R247). -/

/-- Does a head's slot of an index still wait? -/
def State.slotWaits (s : State) (i h n : Nat) : Bool :=
  match s.row i n 0 with | some r => r.slots.any fun x => x.head = h && x.st < 2 | none => false

/-- A head's threshold fires at a time: it exposes TRIG_DELAY later and is emitted TIME_OFFSET before that, or is withheld. -/
def fireHead (i h n t : Nat) : Prog := look fun s =>
  let e := t + s.get (Trig.trigDelay i)
  let last := (s.gen i).exps.find? fun x => x.1 = h
  let close := match last with | some x => decide (e < x.2 + s.get (Trig.minPeriod i)) | none => false
  if s.isParked i h n then .skip
  else if close then block [bump (Head.overrateHead i h), countMarked 1, slotAbsent i h n]
  else block [
    setGen i fun g => { g with exps := (h, e) :: g.exps.filter fun x => x.1 ≠ h },
    noteExposure i n h e,
    if s.headLocal i h then
      setGen i fun g => { g with emits := g.emits ++ [⟨h, n, e - s.get (Head.timeOffset i h), e, decide (e - s.get (Head.timeOffset i h) < t)⟩] }
    else when (s.slotWaits i h n) (match s.quadTo (s.get (Head.device i h)), s.row i n 0 with
      | some q, some r => sendTrig q ⟨0, i, h, s.get (Head.device i h), n, s.rowSeq i r, e - s.get (Head.timeOffset i h)⟩
      | _, _ => cascadeLost i h n)]

/-- Elements in rising order of a key. -/
def orderBy {α : Type} (f : α → Nat) : List α → List α
  | [] => []
  | x :: xs => put x (orderBy f xs)
where
  put (x : α) : List α → List α
    | [] => [x]
    | y :: ys => if f y < f x then y :: put x ys else x :: y :: ys

/-- Heads in the order of their emission for a threshold that fires at one time: the longest TIME_OFFSET first (R462). -/
def State.byEmission (s : State) (i : Nat) (hs : List Nat) : List Nat := orderBy (fun h => 0xFFFFFFFF - s.get (Head.timeOffset i h)) hs

/-- Head thresholds that are due by a time fire at their own times, in the order of emission. -/
def fireHeads (i : Nat) (by_ : Nat) : Prog := look fun s =>
  let due := (s.gen i).thrs.filterMap fun x => match s.dueTime i x.int x.frac with
    | some t => if t ≤ by_ then some (x, t) else none
    | none => none
  block [
    setGen i fun g => { g with thrs := g.thrs.filter fun x => !(due.any fun d => d.1 = x) },
    forEach (orderBy (fun d => d.2 + 0xFFFFFFFF - s.get (Head.timeOffset i d.1.head)) due) fun d => fireHead i d.1.head d.1.index d.2]

/-! Indices (R238 to R240). -/

/-- NEXT takes the index after n; commands armed on other devices at an index up to n are past their point of no return (R154). -/
def advanceNext (i n : Nat) : Prog := block [
  set (Trig.nextLo i) (n + 1), set (Trig.nextHi i) ((n + 1) / 0x100000000),
  when (n + 1 = 0x1000000000000) (setFlag (Trig.indexWrap i)),
  setJournal fun j => j.filter fun e => !(0x1000 ≤ e.node && e.node < 0x10000 && (match e.phase with | .armed st at_ => st = i && at_ ≤ n | _ => false))]

/-- A live-service change armed at an index takes effect (R558, R560, R561): a suspending swap suspends the guarantee and a restoring one
restores it; a head is parked, or returns with its new TIME_OFFSET. -/
def serviceAt (i n : Nat) : Prog := look fun s =>
  let mine := s.dev.journal.filter fun e => e.cls = 0x10 && (e.code = 6 || e.code = 7)
    && (match e.phase with | .armed st at_ => st = i && at_ ≤ n | _ => false)
  block [
    forEach (s.dev.swaps.filter fun x => x.2.stream = i && x.2.n = n) fun x =>
      (match x.2.guard with | 1 => suspend i byService | 2 => restore i byService | _ => .skip),
    forEach mine fun e =>
      let h := e.val 0x11
      block [
        if e.code = 6 then setFlag Live.headParked
        else forEach ((s.asm i).parked.filter fun k => k.head = h && k.until_ = some n) fun k =>
          (match k.offset with | some o => set (Head.timeOffset i h) o | none => .skip),
        raise 0x10 4 1 (leBytes 1 i ++ leBytes 1 h ++ leBytes 6 n ++ leBytes 1 (if e.code = 6 then 1 else 0)),
        dropCmd e.seq]]

/-- The next base threshold fires at a time: the index is issued, or skipped as over-rate. -/
def fireBase (i t : Nat) : Prog := look fun s =>
  let n := s.next i
  let g := s.gen i
  let thr := s.baseThr i n
  let soon := match g.lastTrig with | some l => decide (t < l + s.get (Trig.minPeriod i)) | none => false
  let first := g.skipped.getD n
  block [
    serviceAt i n, advanceNext i n,
    if soon then block [
      setFlag (Trig.overrate i), bump (Trig.overrateCount i), countDropped 1,
      setGen i fun g => { g with skipped := if s.limited 5 5 1 i then some first else none },
      raiseLimited 5 5 1 i fun k => leBytes 1 i ++ leBytes 6 first ++ leBytes 4 k,
      measureSkipped i n]
    else block [
      setGen i fun g => { g with lastTrig := some t },
      openRow i n (s.rowPosition i thr) (t + s.get (Trig.trigDelay i)),
      look fun s => forEach (((s.row i n 0).map RowSt.slots).getD []) fun x => when (x.st = 5)
        (match s.headAt i x.head with | some (p, k) => measureLost p k n false | none => .skip),
      if 4 ≤ s.get (Trig.source i) then forEach (s.byEmission i (s.heads i)) fun h => fireHead i h n t
      else setGen i fun g => { g with thrs := g.thrs ++ (s.heads i).map fun h =>
        ⟨h, n, (thr + s.headOff i h) / 0x100000000, (thr + s.headOff i h) % 0x100000000⟩ }]]

/-- Base thresholds that a count has reached or overtaken fire at its time, then head thresholds do. -/
def fireReached (i : Nat) : Prog := look fun s =>
  let g := s.gen i
  let top := g.mark * 0x100000000
  let rec go : Nat → Prog
    | 0 => .skip
    | f + 1 => look fun s => if s.baseThr i (s.next i) ≤ top then block [fireBase i g.tMark, go f] else .skip
  block [
    when (g.issuing && s.pitch i ≠ 0 && s.phase i ≤ top) (go ((top - s.phase i) / s.pitch i + 1)),
    fireHeads i g.tMark]

/-- The latch of ORIGIN at stream start (R235): it counts as the count that raised the mark to 0. -/
def latchOrigin (i t : Nat) : Prog := look fun s =>
  let src := s.get (Trig.source i)
  block [
    setGen i fun g => { g with
      n0 := s.next i, travel := 0, mark := 0, tMark := t, delta := none, chain := true, forward := true, issuing := true, thrs := []
      start := t },
    set (Trig.armed i) 1,
    set (Trig.originLo i) (if src < 4 then s.get (Enc.posLo src) else 0), set (Trig.originHi i) (if src < 4 then s.get (Enc.posHi src) else 0),
    when (src < 4) (fireReached i)]

/-- A count of the source channel reaches a generator (R235, R236). -/
def genCount (i : Nat) (step : Int) (t : Nat) : Prog := look fun s =>
  let g := s.gen i
  let travel := g.travel + (if s.on (Trig.dir i) then -step else step)
  let d := t - g.tMark
  if (g.mark : Int) < travel then
    block [
      setGen i fun g => { g with
        travel := travel, mark := travel.toNat, tMark := t, forward := true, chain := true
        delta := if g.chain && d ≤ s.get (Enc.interpMax (s.get (Trig.source i))) then some d else none },
      fireReached i]
  else block [
    setGen i fun g => { g with travel := travel, chain := false, forward := false },
    when g.forward (block [setFlag (Trig.reversed i), raise 5 6 1 (leBytes 1 i ++ leBytes 8 g.mark)])]

/-! Encoder channels (R227 to R233). -/

def State.enc (s : State) (e : Nat) : EncSt := Tbl.get EncSt.reset s.dev.encs e
def setEnc (e : Nat) (f : EncSt → EncSt) : Prog :=
  dev fun d => { d with encs := Tbl.set EncSt.reset d.encs e (f (Tbl.get EncSt.reset d.encs e)) }

/-- The position, signed. -/
def State.position (s : State) (e : Nat) : Int := signed 48 (s.get (Enc.posLo e) + 0x100000000 * s.get (Enc.posHi e))

def putPosition (e : Nat) (z : Int) : Prog := block [
  set (Enc.posLo e) (unsigned 48 z), set (Enc.posHi e) (unsigned 48 z / 0x100000000)]

def State.inWindow (s : State) (e : Nat) (z : Int) : Bool :=
  decide (signed 48 (s.get (Enc.winLoL e) + 0x100000000 * s.get (Enc.winLoH e)) ≤ z)
    && decide (z ≤ signed 48 (s.get (Enc.winHiL e) + 0x100000000 * s.get (Enc.winHiH e)))

/-- The position has left the window if it was inside before: flag, event, wake source 4 (R233). -/
def windowCheck (e : Nat) (was : Bool) : Prog := look fun s =>
  when (was && !s.inWindow e (s.position e)) (block [
    setFlag (Enc.windowExit e), raise 5 4 1 (leBytes 1 e ++ leBytes 6 (unsigned 48 (s.position e))), wake 4])

/-- The started streams that a channel drives, lowest first. -/
def State.driven (s : State) (e : Nat) : List Nat :=
  allStreams.filter fun i => s.get (Trig.source i) = e && s.on (Trig.armed i)

/-- The sign of a change of (A, B), A being bit 1: 00, 10, 11, 01 count up; 0 is no change, 2 a quadrature error. -/
def quadStep (old new : Nat) : Int :=
  if old = new then 0
  else if (old, new) ∈ [(0, 2), (2, 3), (3, 1), (1, 0)] then 1
  else if (old, new) ∈ [(2, 0), (3, 2), (1, 3), (0, 1)] then -1
  else 2

/-- INTERVAL and the run of forward counts behind it (R232). -/
def noteInterval (e t : Nat) (fwd : Bool) : Prog := look fun s =>
  let iv := match (s.enc e).lastFwd with
    | some t0 => if fwd && t - t0 ≤ s.get (Enc.interpMax e) then t - t0 else 0xFFFFFFFF
    | none => 0xFFFFFFFF
  block [set (Enc.interval e) iv, setEnc e fun x => { x with lastFwd := if fwd then some t else none }]

/-- An accepted count. -/
def encCount (e : Nat) (step : Int) (t : Nat) : Prog := look fun s =>
  let z := s.position e + step
  let wrapped := decide (z = 2 ^ 47 ∨ z = -(2 ^ 47) - 1)
  let was := s.inWindow e (s.position e)
  let fwd := match s.driven e with
    | i :: _ => decide (((s.gen i).mark : Int) < (s.gen i).travel + (if s.on (Trig.dir i) then -step else step))
    | [] => decide (step = 1)
  block [
    putPosition e z, set (Enc.edgeSec e) (t / 1000000000), set (Enc.edgeNs e) (t % 1000000000),
    when wrapped (block [setFlag (Enc.wrap e), raise 5 2 1 (leBytes 1 e)]),
    noteInterval e t fwd, windowCheck e was,
    forEach (s.driven e) fun i => genCount i step t]

/-- A quadrature error (R227). -/
def quadError (e : Nat) : Prog := look fun s => block [
  setFlag (Enc.qerr e), bump (Enc.qerrCount e), countCorrected 1,
  raiseLimited 5 1 1 e fun k => leBytes 1 e ++ leBytes 4 k,
  set (Enc.interval e) 0xFFFFFFFF, setEnc e fun x => { x with lastFwd := none },
  forEach (s.driven e) fun i => setGen i fun g => { g with chain := false }]

/-- ENCODER_COUNT (R227): new accepted levels of A (bit 1) and B (bit 0), with the edge time in ns. -/
def execEncoderCount (e : Fin 4) (ab : Fin 4) (t : Nat) (s : State) : Host.Outcome State Fault Refusal :=
  .next (run (look fun s =>
    let st := quadStep (s.enc e.val).ab ab.val
    block [
      setEnc e.val fun x => { x with ab := ab.val },
      if !s.on (Enc.enable e.val) ∨ st = 0 then .skip
      else if st = 2 then quadError e.val
      else encCount e.val (if s.on (Enc.reverseCount e.val) then -st else st) t]) s)

/-- ENCODER_INDEX_EDGE (R231): an accepted rising edge of I. -/
def execEncoderIndexEdge (e : Fin 4) (t : Nat) (s : State) : Host.Outcome State Fault Refusal :=
  .next (run (look fun s =>
    let z := unsigned 48 (s.position e.val)
    let was := s.inWindow e.val (s.position e.val)
    when (s.on (Enc.enable e.val) && s.on (Enc.indexEn e.val)) (block [
      set (Enc.idxPosLo e.val) z, set (Enc.idxPosHi e.val) (z / 0x100000000),
      set (Enc.idxSec e.val) (t / 1000000000), set (Enc.idxNs e.val) (t % 1000000000),
      setFlag (Enc.indexSeen e.val), raiseLimited 5 3 1 e.val fun k => leBytes 1 e.val ++ leBytes 6 z ++ leBytes 4 k,
      when (s.on (Enc.indexZero e.val)) (block [putPosition e.val 0, set (Enc.indexZero e.val) 0, windowCheck e.val was])])) s)

/-- The earliest scheduled time of a generator's thresholds. -/
def State.earliest (s : State) (i : Nat) : Option Nat :=
  let base := if (s.gen i).issuing then (s.dueTime i (s.baseThr i (s.next i) / 0x100000000) (s.baseThr i (s.next i) % 0x100000000)).toList else []
  (base ++ (s.gen i).thrs.filterMap fun x => s.dueTime i x.int x.frac).min?

/-- THRESHOLD_FIRE (R236): what is scheduled earliest fires, base before heads. -/
def execThresholdFire (i : Fin 16) (s : State) : Host.Outcome State Fault Refusal :=
  .next (run (look fun s =>
    match s.earliest i.val with
    | none => .skip
    | some t =>
      let thr := s.baseThr i.val (s.next i.val)
      block [
        when ((s.gen i.val).issuing && s.get (Trig.source i.val) < 4 && s.dueTime i.val (thr / 0x100000000) (thr % 0x100000000) = some t)
          (fireBase i.val t),
        fireHeads i.val t]) s)

/-- TIME_SOURCE_FIRE (R237). -/
def execTimeSourceFire (i : Fin 16) (s : State) : Host.Outcome State Fault Refusal :=
  .next (run (look fun s =>
    let t := (s.gen i.val).start + (roundHalfUp (s.baseThr i.val (s.next i.val) : Nat) 0x100000000).toNat
    when ((s.gen i.val).issuing && s.get (Trig.source i.val) = 4) (fireBase i.val t)) s)

/-! Emission and windows (R244, R249 to R251). -/

/-- The element of a list with the least key, if any. -/
def leastBy {α : Type} (f : α → Nat) : List α → Option α
  | [] => none
  | x :: xs => match leastBy f xs with
    | some y => if f x ≤ f y then some x else some y
    | none => some x

/-- A trigger is emitted: its pulse, its late mark, its window and its pipeline's wake; or a tunnelled one on a port that is not
locked resolves absent. -/
def emitHead (i : Nat) (x : Emit) : Prog := look fun s =>
  let h := x.head
  let n := s.get (Head.port i h)
  block [
    setGen i fun g => { g with emits := g.emits.filter fun y => y ≠ x },
    if !s.on (Head.route i h) ∧ s.get (Port.link n) ≠ 2 then slotAbsent i h x.index
    else block [
      when x.late (bump (Head.lateEmit i h)),
      emit (if s.on (Head.route i h) then .pinTrigger (s.get (Head.line i h)) (s.on (Head.polarity i h)) i h x.index (x.time / 1000000000) (x.time % 1000000000)
        else .tunnelTrigger n (s.get (Head.line i h)) (s.on (Head.polarity i h)) i h x.index (x.time / 1000000000) (x.time % 1000000000)),
      setGen i fun g => { g with wins := g.wins ++ [⟨h, x.index, x.exposure + s.get (Head.hdrMin i h), x.exposure + s.get (Head.hdrMax i h), false, false, false⟩] },
      match s.pipeOf i h with | some p => wakeRequest p | none => .skip]]

/-- HEAD_TRIGGER_EMIT (R243): the trigger with the earliest emission time. -/
def execHeadTriggerEmit (i : Fin 16) (s : State) : Host.Outcome State Fault Refusal :=
  .next (run (look fun s => match leastBy Emit.time (s.gen i.val).emits with | some x => emitHead i.val x | none => .skip) s)

/-- The steering entries of a port that name the old pipeline come to name the spare (R555). -/
def resteer (i h : Nat) (w : SwapSt) : Prog := look fun s =>
  let n := s.get (Head.port i h)
  block [
    forEach ((s.steers n).filter fun x => x.2.action = 0 && x.2.pipe = w.old % 8) fun x =>
      setReg (steerWord n x.1 0) (BitVec.ofNat 32 (putBits (s.reg (steerWord n x.1 0)).toNat 14 3 (w.spare % 8))),
    setPipe w.spare fun t => { t with heads := t.heads ++ (s.pipe w.old).heads.filter fun e => e.1 / 32 = n && !(t.heads.any fun y => y.1 = e.1) }]

/-- HEAD_WINDOW_OPEN (R249, R555). -/
def execHeadWindowOpen (i : Fin 16) (s : State) : Host.Outcome State Fault Refusal :=
  .next (run (look fun s =>
    match leastBy Win.lo ((s.gen i.val).wins.filter fun w => !w.opened) with
    | none => .skip
    | some w => block [
        setGen i.val fun g => { g with wins := g.wins.map fun y => if y = w then { y with opened := true } else y },
        forEach (s.dev.swaps.filter fun x => x.2.stream = i.val && x.2.n ≤ w.index && s.pipeOf i.val w.head = some x.2.old) fun x =>
          block [resteer i.val w.head x.2, handover x.1]]) s)

/-- Does a line that arrived within a window still wait in its port's queue? -/
def State.arriving (s : State) (i : Nat) (w : Win) : Bool :=
  let n := s.get (Head.port i w.head)
  let v := s.get (Head.vc i w.head)
  (s.port n).queues.any fun q => q.2.any fun x => x.vc = v && (x.kind = 0 || x.kind = 1 || x.kind = 3) && !x.taken && w.lo ≤ x.time && x.time ≤ w.hi

/-- HEAD_WINDOW_CLOSE (R251): the window that closes earliest; without a line its slot is absent. -/
def execHeadWindowClose (i : Fin 16) (s : State) : Host.Outcome State Fault Refusal :=
  .next (run (look fun s =>
    match leastBy Win.hi ((s.gen i.val).wins.filter fun w => !w.shut) with
    | none => .skip
    | some w =>
      if !w.bound && s.arriving i.val w then
        setGen i.val fun g => { g with wins := g.wins.map fun y => if y = w then { y with opened := true, shut := true } else y }
      else block [
        setGen i.val fun g => { g with wins := g.wins.filter fun y => y ≠ w },
        when (!w.bound) (slotAbsent i.val w.head w.index)]) s)

end Sys2Proof.Machine
end

