-- ==== Sys2Proof/Machine/Timing.lean ====
section
/-! DEFINITION. What happens to the time base, the timing pins, the pulse units and the time port (R94, R253 to R267). -/

namespace Sys2Proof.Machine
open Reg

/-! Time base. -/

/-- TIME_ALARM (R259): the time base reaches an armed alarm time that lies ahead. -/
def execTimeAlarm (s : State) : Host.Outcome State Fault Refusal :=
  .next (run (when (s.dev.time.alarmArmed && s.now < s.alarmAt) (block [putTime s.alarmAt 0, fireAlarm])) s)

/-- SLEW_END (R255). -/
def execSlewEnd (s : State) : Host.Outcome State Fault Refusal := .next (run endSlew s)

/-- Holdover begins or ends: event 0x05/0x0B. -/
def setHoldover (on : Bool) : Prog := look fun s =>
  when (s.on TimeReg.holdover ≠ on) (block [set TimeReg.holdover (boolNat on), when on (setFlag TimeReg.holdoverEntered),
    raise 5 0x0B 1 (leBytes 1 (s.get TimeReg.source) ++ leBytes 1 (boolNat on))])

/-! Wake sources from outside (Table 2-20). -/

/-- UCIE_SIDEBAND_ACTIVITY (R94): wake source 1, of a root. -/
def execUcieSidebandActivity (s : State) : Host.Outcome State Fault Refusal := .next (run (when (!s.on BootReg.role) (wake 1)) s)

/-- CASCADE_LANE_ENERGY (R94): wake source 2, of a satellite. -/
def execCascadeLaneEnergy (s : State) : Host.Outcome State Fault Refusal := .next (run (when (s.on BootReg.role) (wake 2)) s)

/-! Pins (R264 to R266). -/

/-- PPS_OUT_RISE (R265). -/
def execPpsOutRise (s : State) : Host.Outcome State Fault Refusal := .next (run (emit (.ppsOut true)) s)

/-- PPS_OUT_FALL (R265). -/
def execPpsOutFall (s : State) : Host.Outcome State Fault Refusal := .next (run (emit (.ppsOut false)) s)

/-- The pins that a pulse unit drives. -/
def State.unitPins (s : State) (u : Nat) : List Nat :=
  (List.range 32).filter fun i => s.get (Pin.func i) = 2 && s.get (Pin.pulseUnit i) = u

/-- Do pins and tunnelled triggers work in this mode: not at their safe level (Table 2-3)? -/
def State.outputsLive (s : State) : Bool := s.mode ≠ mSafeHold && s.mode ≠ mStandby

def drivePins (u : Nat) (high : Bool) : Prog := look fun s =>
  when s.outputsLive (forEach (s.unitPins u) fun i => emit (.pin i (boolNat (high != s.on (Pin.invert i)))))

/-- PULSE_START (R266). -/
def execPulseStart (u : Fin 16) (s : State) : Host.Outcome State Fault Refusal :=
  .next (run (look fun s => when (s.on (Pulse.enable u.val) && !s.dev.time.pulseHigh.contains u.val) (block [
    setTime fun t => { t with pulseHigh := u.val :: t.pulseHigh }, drivePins u.val true])) s)

/-- PULSE_END (R266): the pulse is over; after COUNT pulses, or the one pulse of a one-shot unit, the unit is done. -/
def execPulseEnd (u : Fin 16) (s : State) : Host.Outcome State Fault Refusal :=
  .next (run (look fun s => when (s.dev.time.pulseHigh.contains u.val) (
    let k := s.pulseNo u.val + 1
    let n := s.get (Pulse.count u.val)
    block [
      setTime fun t => { t with pulseHigh := t.pulseHigh.filter (· ≠ u.val) }, drivePins u.val false, setPulseNo u.val k,
      when (s.on (Pulse.enable u.val) && (!s.on (Pulse.periodic u.val) || (n ≠ 0 && n ≤ k))) (pulseDone u.val false)])) s)

/-- TIMING_PIN_EDGE (R264): an edge at a pin, after the filter, with its capture time. -/
def execTimingPinEdge (i : Fin 32) (rising : Bool) (ns frac : Nat) (s : State) : Host.Outcome State Fault Refusal :=
  .next (run (look fun s =>
    let f := s.get (Pin.func i.val)
    let up := rising != s.on (Pin.invert i.val)
    let e := s.get (Pin.edge i.val)
    when ((f = 3 || f = 4) && ((up && e % 2 = 1) || (!up && e / 2 = 1))) (block [
      capture i.val ns frac (if up then 1 else 2),
      forEach (allStreams.filter fun j => s.get (Trig.source j) = 5 && s.get (Trig.pin j) = i.val && (s.gen j).issuing) fun j => fireBase j ns,
      when (f = 4) (wake 5)])) s)

/-- PPS_IN_EDGE (R258, R264): capture source 32; an edge ends the holdover of a grandmaster on PPS_IN. -/
def execPpsInEdge (ns frac : Nat) (s : State) : Host.Outcome State Fault Refusal :=
  .next (run (block [capture 32 ns frac 1, setTime fun t => { t with ppsIn := some ns },
    when (s.get TimeReg.source = 3) (setHoldover false)]) s)

/-- PPS_IN_TIMEOUT (R258): no edge for 2 s under grandmaster on PPS_IN. -/
def execPpsInTimeout (s : State) : Host.Outcome State Fault Refusal :=
  .next (run (when (s.get TimeReg.source = 3) (block [setFlag TimeReg.ppsInLost, countCorrected 1, setHoldover true])) s)

/-! The time port (R260 to R263). The frame formats are those of IEEE 1588-2019 and of Ethernet, IPv4 and UDP (PRESUMED, log entry
12). -/

def setPtp (f : PtpSt → PtpSt) : Prog := dev fun d => { d with ptp := f d.ptp }

/-- The clock identity: the MAC address in EUI-64 form. -/
def State.clockId (s : State) : List Byte :=
  let m := slice (if s.dev.ptp.mac = [] then s.dev.fuses.mac else s.dev.ptp.mac) 0 6
  m.take 3 ++ [0xFF, 0xFE] ++ m.drop 3

/-- The port identity. -/
def State.portId (s : State) : List Byte := s.clockId ++ [0, 1]

/-- The PTP message of a received frame; none for any other frame. -/
def ptpOf (f : List Byte) : Option (List Byte) :=
  let ty := beVal (slice f 12 2)
  let o := if ty = 0x8100 then 16 else 12
  let ty := beVal (slice f o 2)
  let body := f.drop (o + 2)
  if ty = 0x88F7 then some body
  else if ty = 0x0800 ∧ leAt body 9 1 = 17 ∧ (beVal (slice body 16 4) = 0xE0000181 ∨ beVal (slice body 16 4) = 0xE000006B) then
    let ihl := 4 * (leAt body 0 1 % 16)
    let port := beVal (slice body (ihl + 2) 2)
    if port = 319 ∨ port = 320 then some (body.drop (ihl + 8)) else none
  else none

/-- A PTP timestamp of ten bytes in ns. -/
def ptpTime (b : List Byte) (o : Nat) : Int := (beVal (slice b o 6) * 1000000000 + beVal (slice b (o + 6) 4) : Nat)

/-- The correction field in ns. -/
def ptpCorr (b : List Byte) : Int := signed 64 (beVal (slice b 8 8)) / 65536

/-- portState changes: event 0x05/0x0A. -/
def setPortState (v : Nat) : Prog := look fun s =>
  when (s.get TPort.portState ≠ v) (block [set TPort.portState v, raise 5 0x0A 1 (leBytes 1 v ++ leBytes 1 (s.get TPort.portState))])

/-- The servo (R262): OFFSET, the state, and a step or a slew. -/
def servo (offset : Int) : Prog := look fun s => block [
  setS TPort.offset (sat offset (-(2 ^ 31)) (2 ^ 31 - 1)), setPortState 9, setHoldover false,
  if (s.dev.ptp.threshold : Int) < offset.natAbs ∧ !(allStreams.any fun i => s.sState i = sStarted) then
    stepTime ((s.now : Int) - offset).toNat (s.get TimeReg.frac)
  else startSlew (-offset)]

/-- The offset once t1 and t2 are known. -/
def ptpOffset (t1 t2 corr : Int) : Prog := look fun s => block [
  setPtp fun p => { p with t1 := some t1, t2 := some t2, correction := corr, twoStepSeq := none },
  servo (t2 - t1 - s.get TPort.meanDelay - corr - s.dev.ptp.asym)]

/-- The data set of an announce message that the best master clock algorithm compares: priority 1, quality, priority 2, identity,
steps removed. -/
def announceData (b : List Byte) : List Byte := slice b 47 1 ++ slice b 48 4 ++ slice b 52 1 ++ slice b 53 8 ++ slice b 61 2

/-- This clock's own data set. -/
def State.ownData (s : State) : List Byte :=
  let c := s.dev.ptp.clock
  [BitVec.ofNat 8 c, BitVec.ofNat 8 (c / 0x10000), BitVec.ofNat 8 (c / 0x1000000), 0xFF, 0xFF, BitVec.ofNat 8 (c / 0x100)] ++ s.clockId ++ [0, 0]

/-- An announce message: a slave takes the better master's data; a grandmaster that hears a better one becomes passive. -/
def ptpAnnounce (b : List Byte) : Prog := look fun s =>
  let d := announceData b
  let from_ := slice b 20 10
  let p := s.dev.ptp
  if p.role = 1 then
    if p.best = [] ∨ from_ = p.parent ∨ beVal d < beVal p.best then block [
      setPtp fun p => { p with parent := from_, grandmaster := slice b 53 8, best := d },
      set TimeReg.utcOffset (beVal (slice b 44 2)), set TimeReg.timescale (if bit (leAt b 7 1) 3 then 0 else 1),
      when (s.get TPort.portState ≠ 9) (setPortState 8)]
    else .skip
  else when (2 ≤ p.role) (setPortState (if beVal d < beVal s.ownData then 7 else 6))

/-- A frame header and PTP header of this port. -/
def State.ptpFrame (s : State) (type flags seq control : Nat) (interval : Nat) (body : List Byte) : List Byte :=
  let p := s.dev.ptp
  let msg := [BitVec.ofNat 8 type, 2] ++ beBytes 2 (34 + body.length) ++ leBytes 1 p.domain ++ [0] ++ beBytes 2 flags ++ zeros 8 ++ zeros 4
    ++ s.portId ++ beBytes 2 seq ++ leBytes 1 control ++ leBytes 1 interval ++ body
  let src := slice (if p.mac = [] then s.dev.fuses.mac else p.mac) 0 6
  let peer := type = 2 ∨ type = 3 ∨ type = 0xA
  let vlan := if p.vlan = 0 then [] else [0x81, 0x00] ++ beBytes 2 p.vlan
  if p.transport = 0 then
    (if peer then [0x01, 0x80, 0xC2, 0x00, 0x00, 0x0E] else [0x01, 0x1B, 0x19, 0x00, 0x00, 0x00]) ++ src ++ vlan ++ [0x88, 0xF7] ++ msg
  else
    let dst : List Byte := if peer then [0xE0, 0x00, 0x00, 0x6B] else [0xE0, 0x00, 0x01, 0x81]
    let port := if type < 8 then 319 else 320
    let udp := beBytes 2 port ++ beBytes 2 port ++ beBytes 2 (8 + msg.length) ++ [0, 0] ++ msg
    [0x01, 0x00, 0x5E] ++ slice dst 1 3 ++ src ++ vlan ++ [0x08, 0x00] ++ [0x45, 0] ++ beBytes 2 (20 + udp.length) ++ zeros 4 ++ [1, 17, 0, 0]
      ++ beBytes 4 p.ipv4 ++ dst ++ udp

/-- A time as a PTP timestamp. -/
def ptpStamp (t : Nat) : List Byte := beBytes 6 (t / 1000000000) ++ beBytes 4 (t % 1000000000)

def sendPtp (bytes : List Byte) : Prog := block [emit (.timeFrame bytes), bump TPort.txPtp]

/-- A PTP message of the port's domain, received at t. -/
def ptpMessage (b : List Byte) (t : Nat) : Prog := look fun s =>
  let p := s.dev.ptp
  let ty := leAt b 0 1 % 16
  let seq := beVal (slice b 30 2)
  let fromParent := slice b 20 10 = p.parent
  let mine := slice b 44 10 = s.portId
  match ty with
  | 0 => when (p.role = 1 && fromParent) (
      if bit (leAt b 6 1) 1 then setPtp fun p => { p with t2 := some (t : Int), correction := ptpCorr b, twoStepSeq := some seq }
      else ptpOffset (ptpTime b 34) t (ptpCorr b))
  | 8 => (match p.t2 with
      | some t2 => when (p.role = 1 && fromParent && p.twoStepSeq = some seq) (ptpOffset (ptpTime b 34) t2 (p.correction + ptpCorr b))
      | none => .skip)
  | 9 => (match p.t1, p.t2, p.t3 with
      | some t1, some t2, some t3 => when (p.role = 1 && !p.peer && mine)
          (set TPort.meanDelay (satNat (sat (((t2 - t1) + (ptpTime b 34 - t3) - p.correction - ptpCorr b) / 2) 0 (2 ^ 32 - 1)).toNat 0xFFFFFFFF))
      | _, _, _ => .skip)
  | 1 => when (2 ≤ p.role && s.get TPort.portState = 6)
      (sendPtp (s.ptpFrame 9 0 seq 3 0 (ptpStamp t ++ slice b 20 10)))
  | 2 => block [sendPtp (s.ptpFrame 3 0x200 seq 5 0x7F (ptpStamp t ++ slice b 20 10)),
      sendPtp (s.ptpFrame 0xA 0 seq 5 0x7F (ptpStamp s.now ++ slice b 20 10))]
  | 3 => when (p.peer && mine) (setPtp fun p => { p with t1 := some (ptpTime b 34), t2 := some (t : Int), correction := ptpCorr b })
  | 0xA => (match p.t1, p.t2, p.t3 with
      | some t1, some t2, some t3 => when (p.peer && mine)
          (set TPort.meanDelay (sat (((t2 - t3) - (ptpTime b 34 - t1) - p.correction - ptpCorr b) / 2) 0 (2 ^ 32 - 1)).toNat)
      | _, _, _ => .skip)
  | 0xB => ptpAnnounce b
  | _ => .skip

/-- PTP_FRAME_RECEIVE (R261): a frame, whether its FCS is right, and its capture time. -/
def execPtpFrameReceive (frame : List Byte) (fcsOk : Bool) (t : Nat) (s : State) : Host.Outcome State Fault Refusal :=
  .next (run (look fun s =>
    if !s.on TPort.pcsLock then .skip
    else if !fcsOk then block [bump TPort.fcsErr, countDropped 1]
    else match ptpOf frame with
      | none => block [bump TPort.nonPtp, countDropped 1]
      | some b => block [bump TPort.rxPtp,
          when (s.dev.ptp.role ≠ 0 && leAt b 1 1 % 16 = 2 && leAt b 4 1 = s.dev.ptp.domain) (ptpMessage b t)]) s)

/-- PTP_ANNOUNCE_TIMEOUT (R258): a slave enters holdover; a passive grandmaster takes its role again. -/
def execPtpAnnounceTimeout (s : State) : Host.Outcome State Fault Refusal :=
  .next (run (look fun s =>
    if s.dev.ptp.role = 0 then .skip
    else block [bump TPort.announceTimeout, countCorrected 1,
      if s.dev.ptp.role = 1 then block [setPtp fun p => { p with best := [] }, setPortState 4, setHoldover true] else setPortState 6]) s)

/-- PTP_MESSAGE_TRANSMIT (R260): the interval of a kind of message ends: 0 announce, 1 sync, 2 delay or peer-delay request. -/
def execPtpMessageTransmit (kind : Fin 3) (s : State) : Host.Outcome State Fault Refusal :=
  .next (run (look fun s =>
    let p := s.dev.ptp
    let iv := fun (k : Nat) => p.intervals / 256 ^ k % 256
    if !s.on TPort.pcsLock then .skip
    else if kind.val = 2 then when (p.role = 1 || p.peer) (block [
      sendPtp (if p.peer then s.ptpFrame 2 0 p.delaySeq 5 0x7F (ptpStamp 0 ++ zeros 10) else s.ptpFrame 1 0 p.delaySeq 1 0x7F (ptpStamp s.now)),
      setPtp fun p => { p with delaySeq := (p.delaySeq + 1) % 65536, t3 := some (s.now : Int) }])
    else when (2 ≤ p.role && s.get TPort.portState = 6) (
      if kind.val = 0 then block [
        sendPtp (s.ptpFrame 0xB (if s.on TimeReg.timescale then 0 else 8) p.annSeq 5 (iv 1)
          (ptpStamp s.now ++ beBytes 2 (s.get TimeReg.utcOffset) ++ [0] ++ slice s.ownData 0 14 ++ beBytes 2 0 ++ [0xA0])),
        setPtp fun p => { p with annSeq := (p.annSeq + 1) % 65536 }]
      else block [
        sendPtp (s.ptpFrame 0 (if p.oneStep then 0 else 0x200) p.syncSeq 0 (iv 0) (ptpStamp s.now)),
        when (!p.oneStep) (sendPtp (s.ptpFrame 8 0 p.syncSeq 2 (iv 0) (ptpStamp s.now))),
        setPtp fun p => { p with syncSeq := (p.syncSeq + 1) % 65536 }])) s)

/-- TIME_PORT_PCS_LOCK (R260): the lane locks at 1 1000BASE-X or 2 10GBASE-R; a configured port starts listening, or is master. -/
def execTimePortPcsLock (tenG : Bool) (s : State) : Host.Outcome State Fault Refusal :=
  .next (run (look fun s => when (s.domainOn 11) (block [
    set TPort.pcsLock 1, set TPort.lineRate (if tenG then 2 else 1),
    when (s.dev.ptp.role ≠ 0) (setPortState (if s.dev.ptp.role = 1 then 4 else 6))])) s)

/-- TIME_PORT_PCS_LOCK_LOSS (R260). -/
def execTimePortPcsLockLoss (s : State) : Host.Outcome State Fault Refusal :=
  .next (run (block [set TPort.pcsLock 0, set TPort.lineRate 0]) s)

end Sys2Proof.Machine
end

