-- ==== Sys2Proof/Machine/AcqCommands.lean ====
section
/-! DEFINITION. The acquisition timing commands, class 0x05 (R243 to R249, R254, R255, R259, R263 to R268). -/

namespace Sys2Proof.Machine
open Reg

/-- The bytes of n register words from an address. -/
def State.words (s : State) (a n : Nat) : List Byte := s.peek a (4 * n)

/-- Is any stream started? -/
def State.anyStarted (s : State) : Bool := allStreams.any fun i => s.sState i = sStarted

/-- Is a channel the source of a started stream? -/
def State.driving (s : State) (e : Nat) : Bool := !(s.driven e).isEmpty

/-- The words of a register block written from a value's bytes. -/
def putWords (a : Nat) (bs : List Byte) : Prog :=
  forEach (List.range (bs.length / 4)) fun i => setReg (a + 4 * i) (BitVec.ofNat 32 (leAt bs (4 * i) 4))

/-- A field written where its key is given. -/
def setKey (c : Ctx) (k : Nat) (f : Fld) : Prog := when (c.has k) (set f (c.val k))

/-- Does a key name a stream that belongs to the other world (R402, R522)? -/
def streamDenied (k : Nat) (c : Ctx) (s : State) : Bool := !s.mbS c.mb && s.admitted (c.val k) && (s.stream (c.val k)).worldS

/-- A service block of the other world (Table 17-1, R522): 0 the encoder channels, 1 the timing pins and pulse units. -/
def serviceDenied (k : Nat) (c : Ctx) (s : State) : Bool := !s.mbS c.mb && s.serviceS k

/-- ENC_CONFIG (R231, R233). -/
def specEncConfig : CmdSpec where
  cls := 5
  code := 1
  bound := 100
  levels := [.device]
  denied := serviceDenied 0
  keys := [needAny 1 0 3, raw 2 4 4 1 false, optAny 3 100 16777215, raw 4 8 8 1 false, raw 5 8 8 1 false]
  mode := fun c s => c.has 2 && bit (c.val 2) 3 && s.driving (c.val 1)
  effect := fun c => look fun s =>
    let e := c.val 1
    let was := s.inWindow e (s.position e)
    block [
      when (c.has 2) (setReg (0x01501000 + 0x100 * e) (BitVec.ofNat 32 (c.val 2))),
      setKey c 3 (Enc.interpMax e),
      when (c.has 4) (block [set (Enc.winLoL e) (c.val 4), set (Enc.winLoH e) (c.val 4 / 0x100000000)]),
      when (c.has 5) (block [set (Enc.winHiL e) (c.val 5), set (Enc.winHiH e) (c.val 5 / 0x100000000)]),
      windowCheck e was]

/-- ENC_READ. -/
def specEncRead : CmdSpec where
  cls := 5
  code := 2
  bound := 50
  levels := [.device]
  denied := serviceDenied 0
  keys := [needAny 1 0 3]
  changes := false
  results := fun c s => [⟨6, s.words (0x01501000 + 0x100 * c.val 1 + 8) 16⟩]
  effect := fun _ => .skip

/-- ENC_SET (R231, R233). -/
def specEncSet : CmdSpec where
  cls := 5
  code := 3
  bound := 50
  levels := [.device]
  denied := serviceDenied 0
  keys := [needAny 1 0 3, raw 7 8 8 1 true]
  mode := fun c s => s.driving (c.val 1)
  effect := fun c => look fun s =>
    block [putPosition (c.val 1) (signed 48 (c.val 7)), windowCheck (c.val 1) (s.inWindow (c.val 1) (s.position (c.val 1)))]

/-- A head entry as TRIGGER_SET gives it. -/
def entryVal (e : List Byte) (o lo w : Nat) : Nat := bits (leAt e o 4) lo w

/-- The trigger latency of the hops to a device (R463), from this device's quads. -/
def State.hopLatency (s : State) (d : Nat) : Nat :=
  match s.quadTo d with
  | some q => s.get (Quad.trigHop q) * s.hops d
  | none => 0

/-- Is a valid head entry within the rules of R242 to R244 and R249? -/
def State.entryOk (s : State) (delay minPeriod pitch base : Nat) (e : List Byte) : Bool :=
  let v := entryVal e
  let dev := v 0 1 4
  let lead := if dev = s.dev.ownIndex then 64 else 64 + s.hopLatency dev
  let off : Int := (signed 32 (v 4 0 32) - signed 32 base) * 65536 + (v 8 16 16 : Nat)
  v 0 0 1 = 0 || (v 0 5 6 ≤ 55 && (v 0 16 1 = 1 || (v 0 5 6 < 48 && v 0 17 5 ≤ 7))
    && (if v 0 16 1 = 1 then 20 else 200) ≤ v 0xC 0 16
    && v 8 0 16 + lead ≤ delay && v 0x10 0 24 ≤ v 0x14 0 24 && v 0x14 0 24 - v 0x10 0 24 < minPeriod
    && decide (off * 65536 ≤ (4096 * pitch : Nat)))

/-- The smallest POS_OFFSET_INT of the valid entries of a list, as a 32-bit word. -/
def offsetBase (es : List (List Byte)) : Nat :=
  let vs := (es.filter fun e => entryVal e 0 0 1 = 1).map fun e => signed 32 (entryVal e 4 0 32)
  match vs.min? with | some z => unsigned 32 z | none => 0

/-- The head entries of a stream as they stand. -/
def State.entries (s : State) (i : Nat) : List (List Byte) :=
  (List.range 256).map fun h => s.words (0x01512000 + 0x4000 * i + 0x20 * h) 6 ++ zeros 8

/-- TRIGGER_SET (R238, R242 to R244, R249); refused from admission to close, which takes in R268's started stream (R401). -/
def specTriggerSet : CmdSpec where
  cls := 5
  code := 4
  bound := 500
  levels := [.device, .group]
  keys := [needAny 0x10 0 15, optAny 0x11 0 0xFFFFFFFF, raw 0x12 8 8 1 false, raw 0x13 8 8 1 false, optAny 0x14 64 65535, optAny 0x15 2500 16777215,
    raw 0x16 32 8192 32 false]
  fanout := true
  denied := fun c s => streamDenied 0x10 c s
    || (c.has 0x11 && ((bits (c.val 0x11) 1 3 < 4 && serviceDenied 0 c s) || (bits (c.val 0x11) 1 3 = 5 && serviceDenied 1 c s)))
    || (c.has 0x16 && serviceDenied 1 c s && (c.elems 0x16 32).any fun e => entryVal e 0 0 1 = 1 && entryVal e 0 16 1 = 1)
  params := fun c s =>
    let i := c.val 0x10
    let src := if c.has 0x11 then bits (c.val 0x11) 1 3 else s.get (Trig.source i)
    let pitch := if c.has 0x12 then c.val 0x12 else s.pitch i
    let es := if c.has 0x16 then c.elems 0x16 32 else s.entries i
    if 6 ≤ src then some 0x11
    else if pitch < 0x10000 ∨ (src = 4 ∧ pitch < 2500 * 0x100000000) then some 0x12
    else if es.all (s.entryOk (c.valD 0x14 (s.get (Trig.trigDelay i))) (c.valD 0x15 (s.get (Trig.minPeriod i))) pitch (offsetBase es)) then none
    else some 0x16
  mode := fun c s => s.admitted (c.val 0x10)
  node := fun c => 0x10000 + c.val 0x10
  effect := fun c =>
    let i := c.val 0x10
    block [
      when (c.has 0x11) (block [set (Trig.source i) (c.val 0x11 / 2), set (Trig.dir i) (c.val 0x11 / 16), set (Trig.pin i) (c.val 0x11 / 32)]),
      when (c.has 0x12) (block [set (Trig.pitchFrac i) (c.val 0x12), set (Trig.pitchInt i) (c.val 0x12 / 0x100000000)]),
      when (c.has 0x13) (block [set (Trig.phaseFrac i) (c.val 0x13), set (Trig.phaseInt i) (c.val 0x13 / 0x100000000)]),
      setKey c 0x14 (Trig.trigDelay i), setKey c 0x15 (Trig.minPeriod i),
      when (c.has 0x16) (block [
        resetRegs (0x01512000 + 0x4000 * i) 0x2000,
        forEach (numbered (c.elems 0x16 32)) fun e => putWords (0x01512000 + 0x4000 * i + 0x20 * e.2) (e.1.take 24),
        set (Trig.offsetBase i) (offsetBase (c.elems 0x16 32))])]

/-- TRIGGER_STATUS. -/
def specTriggerStatus : CmdSpec where
  cls := 5
  code := 5
  bound := 100
  levels := [.device, .group]
  keys := needAny 0x10 0 15 :: resultKeys
  denied := fun c s => resultDenied c s || streamDenied 0x10 c s
  params := fun c _ => resultBad c
  changes := false
  late := fun c s => resultFull c (4 + 68 + 4 + 8 * (s.heads (c.val 0x10)).length)
  results := fun c s =>
    let i := c.val 0x10
    [⟨0x17, s.words (0x01510000 + 0x4000 * i) 17⟩,
     ⟨0x18, (s.heads i).flatMap fun h => s.words (0x01512000 + 0x4000 * i + 0x20 * h + 0x18) 2⟩]
  effect := fun _ => .skip

/-- Does a port's head belong to a started stream, parked heads apart (R248, R560)? -/
def State.portStarted (s : State) (n : Nat) : Bool :=
  (allStreams.filter fun i => s.sState i = sStarted).any fun i =>
    (s.heads i).any fun h => s.headLocal i h && s.get (Head.port i h) = n && !s.isParked i h (s.next i)

/-- LINK_LATENCY (R248). -/
def specLinkLatency : CmdSpec where
  cls := 5
  code := 6
  bound := 100
  levels := [.cluster]
  keys := [needAny 1 0 47]
  powers := true
  params := fun c _ => if portCluster (c.val 1) = c.cluster then none else some 1
  mode := fun c s => s.portStarted (c.val 1)
  effect := fun c => emit (.latencyEcho (c.val 1))
  pends := some 10000

/-- LINK_LATENCY_DONE (R248): the round trip of the oldest measurement pending on a cluster; none where nothing loops back. -/
def execLinkLatencyDone (c : Fin 8) (roundTrip : Option Nat) (s : State) : Host.Outcome State Fault Refusal :=
  .next (run (finish 5 6 (nidCluster c.val) (fun e =>
    let ns := match roundTrip with | some t => (t + 1) / 2 | none => 0
    let port := e.val 1
    raise 5 0x10 1 (leBytes 1 port ++ leBytes 4 ns)) 0) s)

/-- TIME_READ. -/
def specTimeRead : CmdSpec where
  cls := 5
  code := 7
  bound := 20
  levels := [.device, .group]
  changes := false
  keys := []
  results := fun _ s => [⟨0x30, s.time12⟩, ⟨0x31, s.words 0x01500018 1⟩]
  effect := fun _ => .skip

/-- TIME_SET (R254, R255). -/
def specTimeSet : CmdSpec where
  cls := 5
  code := 8
  bound := 100
  levels := [.device, .group]
  sOnly := true
  fanout := true
  keys := [raw 0x30 12 12 1 false, raw 0x35 4 4 1 false]
  params := fun c _ => if c.has 0x30 && 1000000000 ≤ c.at 0x30 6 4 then some 0x30 else none
  mode := fun _ s => s.anyStarted
  effect := fun c => block [
    when (c.has 0x30) (stepTime (c.at 0x30 0 6 * 1000000000 + c.at 0x30 6 4) (c.at 0x30 10 2)),
    when (c.has 0x35) (block [set TimeReg.timescale (c.val 0x35 / 16), set TimeReg.utcOffset (c.val 0x35 / 65536)])]

/-- TIME_ADJUST (R254, R255): the range is 40 ns ± 500 ppm. -/
def specTimeAdjust : CmdSpec where
  cls := 5
  code := 9
  bound := 100
  levels := [.device, .group]
  sOnly := true
  fanout := true
  keys := [opt 0x32 8 171712792495 171884591185, raw 0x33 8 8 1 false]
  params := fun c _ => if c.has 0x32 && c.has 0x33 then some 0x33 else if !c.has 0x32 && !c.has 0x33 then some 0x32 else none
  effect := fun c => block [
    when (c.has 0x32) (block [setTime fun t => { t with slew := none }, putAddend (c.val 0x32)]),
    when (c.has 0x33) (startSlew (signed 64 (c.val 0x33)))]

/-- PTP_CONFIG (R260, R263). -/
def specPtpConfig : CmdSpec where
  cls := 5
  code := 0xA
  bound := 1000
  levels := [.device]
  sOnly := true
  keys := [optAny 0x40 0 3, optAny 0x41 1 2, optAny 0x42 0 1, optAny 0x43 0 1, optAny 0x44 0 127, raw 0x45 4 4 1 false, raw 0x46 4 4 1 false,
    raw 0x47 4 4 1 false, optAny 0x48 0 1, optAny 0x49 0 0xFFFFFFFF, raw 0x4A 6 6 1 false, optAny 0x4B 0 4094, optAny 0x4C 0 0xFFFFFFFF]
  params := fun c _ =>
    let iv := fun (o : Nat) => signed 8 (c.at 0x45 o 1)
    if c.has 0x45 ∧ !(decide (-7 ≤ iv 0 ∧ iv 0 ≤ 1 ∧ -3 ≤ iv 1 ∧ iv 1 ≤ 4 ∧ -7 ≤ iv 2 ∧ iv 2 ≤ 5) && 2 ≤ c.at 0x45 3 1) then some 0x45 else none
  mode := fun _ s => s.on BootReg.role
  effect := fun c => block [
    setPtp fun p => { p with
      role := c.valD 0x40 p.role, rate := c.valD 0x41 p.rate, transport := c.valD 0x42 p.transport, peer := c.valD 0x43 (boolNat p.peer) == 1
      domain := c.valD 0x44 p.domain, intervals := c.valD 0x45 p.intervals, clock := c.valD 0x46 p.clock
      asym := if c.has 0x47 then signed 32 (c.val 0x47) else p.asym, oneStep := c.valD 0x48 (boolNat p.oneStep) == 1
      ipv4 := c.valD 0x49 p.ipv4, mac := if c.has 0x4A then c.bytes 0x4A else p.mac, vlan := c.valD 0x4B p.vlan
      threshold := c.valD 0x4C p.threshold },
    when (c.has 0x40) (look fun s =>
      let role := c.val 0x40
      block [
        setDomain 11 (role ≠ 0) false, set TimeReg.source role,
        setPtp fun p => { p with best := [], t1 := none, t2 := none, t3 := none, twoStepSeq := none },
        when (role ≠ 1 ∧ role ≠ 3) (setHoldover false),
        when (role = 0) (block [set TPort.pcsLock 0, set TPort.lineRate 0]),
        setPortState (if role = 0 then 3 else if !s.on TPort.pcsLock then 1 else if role = 1 then 4 else 6)])]

/-- PTP_STATUS. -/
def specPtpStatus : CmdSpec where
  cls := 5
  code := 0xB
  bound := 50
  levels := [.device]
  keys := []
  changes := false
  results := fun _ s => [⟨0x50, s.words 0x01560000 9⟩, ⟨0x51, slice s.dev.ptp.parent 0 10⟩, ⟨0x52, slice s.dev.ptp.grandmaster 0 8⟩]
  effect := fun _ => .skip

/-- Is a pin named by a head with ROUTE = 1 of an admitted stream? -/
def State.pinUsed (s : State) (n : Nat) : Bool :=
  (allStreams.filter fun i => s.admitted i).any fun i =>
    (s.heads i).any fun h => s.headLocal i h && s.on (Head.route i h) && s.get (Head.line i h) = n

/-- PIN_CONFIG (R244, R264). -/
def specPinConfig : CmdSpec where
  cls := 5
  code := 0xC
  bound := 50
  levels := [.device]
  denied := serviceDenied 1
  keys := [optAny 0x60 0 31, optAny 0x61 0 0xFFFFFFFF, optAny 0x62 0 0x3FFFFFFF]
  params := fun c _ =>
    if c.has 0x61 && !c.has 0x60 then some 0x60
    else if c.has 0x61 && (4 < bits (c.val 0x61) 0 3 || (3 ≤ bits (c.val 0x61) 0 3 && bits (c.val 0x61) 4 2 = 0)) then some 0x61 else none
  mode := fun c s => c.has 0x61 && s.pinUsed (c.val 0x60) && bits (c.val 0x61) 0 3 ≠ s.get (Pin.func (c.val 0x60))
  effect := fun c => block [
    when (c.has 0x61) (setReg (0x01550000 + 4 * c.val 0x60) (BitVec.ofNat 32 (c.val 0x61))),
    setKey c 0x62 Pin.ppsWidth]

/-- PULSE_SET (R266, R267). -/
def specPulseSet : CmdSpec where
  cls := 5
  code := 0xD
  bound := 50
  levels := [.device]
  denied := serviceDenied 1
  keys := [needAny 0x63 0 15, raw 0x64 32 32 1 true]
  params := fun c _ =>
    let per := c.at 0x64 0x14 4 + 0x100000000 * c.at 0x64 0x10 4
    let w := bits (c.at 0x64 0x18 4) 0 30
    if w < 10 ∨ per ≤ w * 0x100000000 ∨ per < 20 * 0x100000000 then some 0x64 else none
  effect := fun c =>
    let u := c.val 0x63
    block [putWords (0x01551000 + 0x40 * u) (c.bytes 0x64), setPulseNo u 0,
      look fun s =>
        if !s.on (Pulse.enable u) then .skip
        else if s.on (Pulse.periodic u) then setPulseNo u (s.resumeNo u)
        else when (pulseAt s u 0 ≤ s.now) (pulseDone u true)]

/-- CAPTURE_READ (R264): as many of the oldest entries as the response holds are returned and consumed. -/
def specCaptureRead : CmdSpec where
  cls := 5
  code := 0xE
  bound := 50
  levels := [.device]
  denied := fun c s => c.val 0x60 < 32 && serviceDenied 1 c s
  keys := [needAny 0x60 0 32]
  results := fun c s => [⟨0x65, (Tbl.get [] s.dev.time.captures (c.val 0x60)).flatten⟩]
  effect := fun c => block [
    setTime fun t => { t with captures := Tbl.erase t.captures (c.val 0x60) }, set (Pin.capLevel (c.val 0x60)) 0]

/-- ALARM_SET (R259). -/
def specAlarmSet : CmdSpec where
  cls := 5
  code := 0xF
  bound := 50
  levels := [.device]
  keys := [raw 0x34 12 12 1 true]
  params := fun c _ => if 1000000000 ≤ c.at 0x34 6 4 then some 0x34 else none
  effect := fun c => block [
    set TimeReg.alarmSecLo (c.at 0x34 0 4), set TimeReg.alarmSecHi (c.at 0x34 4 2), set TimeReg.alarmNs (c.at 0x34 6 4),
    setTime fun t => { t with alarmArmed := true }]

/-! The commands of this class. -/

def execEncConfig (m : MbId) (r : Req) (s : State) : Host.Outcome State Fault Refusal := runCommand specEncConfig m r s
def execEncRead (m : MbId) (r : Req) (s : State) : Host.Outcome State Fault Refusal := runCommand specEncRead m r s
def execEncSet (m : MbId) (r : Req) (s : State) : Host.Outcome State Fault Refusal := runCommand specEncSet m r s
def execTriggerSet (m : MbId) (r : Req) (s : State) : Host.Outcome State Fault Refusal := runCommand specTriggerSet m r s
def execTriggerStatus (m : MbId) (r : Req) (s : State) : Host.Outcome State Fault Refusal := runCommand specTriggerStatus m r s
def execLinkLatency (m : MbId) (r : Req) (s : State) : Host.Outcome State Fault Refusal := runCommand specLinkLatency m r s
def execTimeRead (m : MbId) (r : Req) (s : State) : Host.Outcome State Fault Refusal := runCommand specTimeRead m r s
def execTimeSet (m : MbId) (r : Req) (s : State) : Host.Outcome State Fault Refusal := runCommand specTimeSet m r s
def execTimeAdjust (m : MbId) (r : Req) (s : State) : Host.Outcome State Fault Refusal := runCommand specTimeAdjust m r s
def execPtpConfig (m : MbId) (r : Req) (s : State) : Host.Outcome State Fault Refusal := runCommand specPtpConfig m r s
def execPtpStatus (m : MbId) (r : Req) (s : State) : Host.Outcome State Fault Refusal := runCommand specPtpStatus m r s
def execPinConfig (m : MbId) (r : Req) (s : State) : Host.Outcome State Fault Refusal := runCommand specPinConfig m r s
def execPulseSet (m : MbId) (r : Req) (s : State) : Host.Outcome State Fault Refusal := runCommand specPulseSet m r s
def execCaptureRead (m : MbId) (r : Req) (s : State) : Host.Outcome State Fault Refusal := runCommand specCaptureRead m r s
def execAlarmSet (m : MbId) (r : Req) (s : State) : Host.Outcome State Fault Refusal := runCommand specAlarmSet m r s

end Sys2Proof.Machine
end

