-- ==== Sys2Proof/Machine/Fault.lean ====
section
/-! DEFINITION. Contained faults, the automatic spare, and the latency that a pipeline's configuration gives it (R49, R282, R313, R337,
R407, R514, R555 to R559). -/

namespace Sys2Proof.Machine
open Reg

/-! Latency (Tables 8-2 and 9-4, R337, R407). -/

/-- The LATENCY of stage k of a pipeline that takes lines of a data type, in pclk cycles. -/
def State.stageLat (s : State) (p dt k : Nat) : Nat :=
  let c := s.pixCfg p none dt
  let quad := ceilDiv c.pixels 4
  match k with
  | 0 => 4
  | 1 => if c.bypass1 || c.threeIn then 1 else 3
  | 2 => if c.bypass2 || c.threeIn then 1 else if c.area then c.yp * quad + 10 else 8
  | 3 => if c.bypass3 || c.threeIn then 1 else if c.area then 6 else 4
  | 4 => if c.bypass4 || c.threeIn then 1 else 2
  | 5 => if c.threeIn then 1 else if c.mode = 1 then 2 * quad + 12 else if c.mode = 2 then 16 else if c.mode = 3 then 6 else 1
  | 6 => if c.bypass6 then 1 else 5
  | 7 => 3
  | 9 => 2
  | _ => 0

/-- The LATENCY of a pipeline (R407). -/
def State.pipeLat (s : State) (p dt : Nat) : Nat := sumNat ((List.range 12).map (s.stageLat p dt)) + 32

/-- Firmware writes the LATENCY of a pipeline and its stages (R49); COMPS3 follows the path (R298). -/
def writeLatency (p dt : Nat) : Prog := look fun s => block [
  set (Reg.Col.comps3 p) (boolNat (s.pixCfg p none dt).three),
  forEach (List.range 12) fun k => set (Node.stageLatency p k) (s.stageLat p dt k),
  set (Node.latency (nidPipe p)) (s.pipeLat p dt)]

/-- The data type that a pipeline's latency is for: that of the first entry steered to it. -/
def State.dtOf (s : State) (p : Nat) : Nat := (s.dtsOf p).headD 0

/-- The LATENCY after a change of a pipeline's configuration. -/
def updateLatency (p : Nat) : Prog := look fun s => writeLatency p (s.dtOf p)

/-! The alignment store (R307). -/

/-- The delays of a mode-3 pipeline. -/
def State.delaysOf (s : State) (p : Nat) : List Nat :=
  [s.get (Reg.Col.d0 p), s.get (Reg.Col.d1 p), s.get (Reg.Col.d2 p), s.get (Reg.Col.d3 p)]

/-- The bytes of a cluster's alignment store that its mode-3 pipelines take; one of them may have a line length and delays of its own. -/
def State.alignUse (s : State) (c p pixels mode : Nat) (ds : List Nat) : Nat :=
  sumNat (((List.range 8).map fun k => 8 * c + k).map fun q =>
    let own := fun (a b : Nat) => if q = p then a else b
    if own mode (s.get (Reg.Col.modeF q)) ≠ 3 then 0
    else (own (ds.foldl max 0) ((s.delaysOf q).foldl max 0)) * own pixels (s.get (Framer.linePixels q)) * 2)

/-- Status 0x32 for a configuration that exceeds the store of 2 MiB. -/
def alignFull (n : Nat) : Option (Nat × List Tlv) := if 0x200000 < n then some (0x32, []) else none

/-! The lead of R287. -/

/-- NEXT + LEAD of a stream. -/
def State.earliestN (s : State) (i : Nat) : Nat := s.next i + ceilDiv 500000 (s.get (Trig.minPeriod i))

/-- The least multiple of a number that is not below another. -/
def roundUp (n m : Nat) : Nat := if m = 0 then n else ceilDiv n m * m

/-- The smallest N at which a spare-pipeline swap of pipeline p may take effect (R556). -/
def State.earliestSwap (s : State) (i p : Nat) : Nat :=
  let n := if s.on (Asm.area i) then s.earliestN i else roundUp (s.earliestN i) (s.get (Asm.bandRows i))
  if s.on (Scr.enable p) && !s.on (Asm.area i) then roundUp n (Nat.lcm 16 (s.get (Asm.bandRows i))) else n

/-! Copies into the spare (R557, R558). -/

/-- The register ranges of a pipeline block that SPARE_COPY copies: framer, stages 0 to 6 and 8, and stage 9, without counters, flags,
banks and pending state. -/
def copiedWords (p : Nat) : List Nat :=
  let b := pipeBase p
  [b + 0x800, b + 0x804, b + 0x808, b + 0x80C, b + 0x810, b, b + 4]
    ++ (List.range 33).flatMap (fun i => [b + 0x100 + 4 * i, b + 0x200 + 4 * i])
    ++ (List.range 64).map (fun i => b + 0x300 + 4 * i)
    ++ [b + 0x1000, b + 0x1004, b + 0x1008, b + 0x2004, b + 0x3000]
    ++ [b + 0x4000, b + 0x4004, b + 0x4008, b + 0x5000, b + 0x5004, b + 0x5008, b + 0x500C, b + 0x6000]
    ++ (List.range 9).map (fun i => b + 0x6010 + 4 * i) ++ [b + 0x6040, b + 0x6044, b + 0x6048, b + 0x6050, b + 0x6054]
    ++ (List.range 5).map (fun i => b + 0x8000 + 4 * i)
    ++ [b + 0x9000, b + 0x9004, b + 0x9008, b + 0x900C]

/-- The configuration registers of one pipeline copied into another. -/
def copyWords (old new : Nat) : Prog := look fun s => block [
  forEach (copiedWords old) fun a => setReg (pipeBase new + (a - pipeBase old)) (s.reg a),
  forEach [Corr.bypass2, Corr.staticEn, Corr.hotEn, Corr.coldEn] fun f => set (f new) (s.get (f old)),
  updateLatency new]

/-- The bytes of a bank that its CRC covers, and that CRC (R285). -/
def State.bankBytes (s : State) (p b : Nat) : List Byte := s.bytes (gaugeBase p b) 0x10000 ++ s.bytes (mapBase p b) 0x1000
def State.bankCrc (s : State) (p b : Nat) : Nat := houseCrc (leBytes 2 (nidPipe p) ++ leBytes 1 (0x41 + b)) (s.bankBytes p b)
def crcReg (p b : Nat) : Fld := if b = 0 then Corr.crcA p else Corr.crcB p

/-- The Active gauge bank and static map of one pipeline copied into the Active bank of another. -/
def copyBank (old new : Nat) : Prog := look fun s =>
  let bo := s.get (Corr.active old)
  let bn := s.get (Corr.active new)
  block [
    store (gaugeBase new bn) (s.bytes (gaugeBase old bo) 0x10000), store (mapBase new bn) (s.bytes (mapBase old bo) 0x1000),
    look fun s => set (crcReg new bn) (s.bankCrc new bn),
    set (Corr.staticCount new) (s.get (Corr.staticCount old))]

def setSwaps (f : List (Nat × SwapSt) → List (Nat × SwapSt)) : Prog := dev fun d => { d with swaps := f d.swaps }

/-- A spare-pipeline swap is armed (R557): the spare takes the old pipeline's format, fill, wake policy and quota. -/
def armSwap (c i n old spare : Nat) (auto : Bool) (guard : Nat) : Prog := look fun s => block [
  set (Reg.Col.format spare) (s.get (Reg.Col.format old)), set (Reg.Col.fill spare) (s.get (Reg.Col.fill old)),
  set (Scr.quota spare) (s.get (Scr.quota old)), set (Scr.margin spare) (s.get (Scr.margin old)), set (Scr.cutout spare) (s.get (Scr.cutout old)),
  setPwr fun x => { x with
    policies := Tbl.set 0xFF x.policies spare (Tbl.get 0xFF x.policies old), resolved := Tbl.set 1 x.resolved spare (Tbl.get 1 x.resolved old) },
  writeLatency spare (s.dtOf old),
  setSwaps fun l => l ++ [(c, ⟨i, n, old, spare, auto, guard⟩)],
  set Live.swapPending (putBits (s.get Live.swapPending) c 1 1),
  set (Swap.swapIndexLo c) n, set (Swap.swapIndexHi c) (n / 0x100000000), set (Swap.swapFrom c) (old % 8), set (Swap.swapTo c) (spare % 8),
  set (Swap.suspending c) (boolNat (guard = 1))]

/-- A swap is cancelled: its command leaves the journal. -/
def cancelSwap (c : Nat) : Prog := block [
  setSwaps fun l => l.filter fun x => x.1 ≠ c,
  look fun s => set Live.swapPending (putBits (s.get Live.swapPending) c 1 0),
  set (Swap.swapIndexLo c) 0, set (Swap.swapIndexHi c) 0, set (Swap.swapFrom c) 0, set (Swap.swapTo c) 0, set (Swap.suspending c) 0,
  setJournal fun j => j.filter fun e => !(e.cls = 0x10 && e.code = 4 && e.node = nidCluster c
    && (match e.phase with | .armed _ _ => true | _ => false))]

/-- Firmware replaces a Faulted pipeline by the spare without a command (R559). -/
def autoSpare (p : Nat) : Prog := look fun s =>
  let c := p / 8
  let spare := 8 * c + s.get (Role.spareK c)
  let st := (s.streamsOf p).find? fun i => s.sState i = sStarted
  match st with
  | none => .skip
  | some i =>
    if bit (s.get Live.autoSpare) c && s.on (Role.spareValid c) && spare ≠ p && !(s.dev.swaps.any fun x => x.1 = c) then
      let b := s.get (Corr.active p)
      let whole := s.get (crcReg p b) = s.bankCrc p b
      block [
        powerPipe spare, copyWords p spare, when whole (copyBank p spare),
        look fun s => armSwap c i (s.earliestSwap i p) p spare true 0,
        raise 0x10 3 (nidCluster c) [BitVec.ofNat 8 (p % 8), BitVec.ofNat 8 (boolNat (!whole))]]
    else .skip

/-- The Faulted pipelines of a cluster that a spare may replace now. -/
def autoSpares (c : Nat) : Prog := look fun s =>
  forEach (((List.range 8).map fun k => 8 * c + k).filter fun p => s.get (Node.state (nidPipe p)) = stFaulted) autoSpare

/-! Faulted nodes (R514, Table 18-6). -/

/-- A head's slots are missing in every open row from now on. -/
def headMissing (i h : Nat) : Prog := look fun s =>
  let gone := (s.asm i).rows.filter fun r => r.closed.isNone && r.slots.any fun x => x.head = h && x.st < 2
  block [
    forEach gone fun r => block [
      bump (Geo.missingHead i h),
      updRow i r.index r.line fun r => r.setSlot h fun x => if x.st < 2 then { x with st := 5, status := 1 } else x],
    forEach gone fun r => closeIfResolved i r.index r.line]

/-- A pipeline's capture is aborted by its fault. -/
def abortCapture (p : Nat) : Prog := look fun s =>
  when (s.get (Corr.state p) = 1) (block [set (Corr.state p) 3, setPipe p fun t => { t with swatch := 0, capture := [] }])

/-- A node enters Faulted for the event code of its cause. -/
def nodeFault (nid cause : Nat) : Prog := look fun s =>
  if s.get (Node.state nid) = stFaulted ∨ s.get (Node.state nid) = stRetired then .skip
  else
    let ps := if nid < 0x100 then (List.range 8).map fun k => 8 * (nid - 0x10) + k else [nid - 0x100]
    block [
      setState nid stFaulted, countContained nid,
      raise 0x0E 5 nid (leBytes 2 nid ++ [BitVec.ofNat 8 cause]),
      forEach ps abortCapture,
      forEach ps fun p => setPipe p fun t => { t with line := none, frame := none, out := [] },
      forEach ps fun p => forEach (s.streamsOf p) fun i => forEach ((s.heads i).filter fun h => s.pipeOf i h = some p) fun h => headMissing i h,
      when (0x100 ≤ nid) (
        let p := nid - 0x100
        let c := p / 8
        if s.get (Role.spareK c) = p % 8 ∧ s.on (Role.spareValid c) then
          block [set (Role.spareValid c) 0, forEach (s.dev.swaps.filter fun x => x.1 = c) fun _ => cancelSwap c]
        else autoSpare p)]

/-- A functional read of a node's configuration finds its errors (Table 16-2): an uncorrectable one makes the node Faulted. -/
def configCheck (nid lo len : Nat) : Prog := look fun s =>
  let bad := (s.eccIn lo len 2).filter fun a => !isMemory a
  block [
    forEach ((s.eccIn lo len 1).filter fun a => !isMemory a) fun w => block [noteCe w, setEcc fun l => l.map fun e => if e.1 = w then (w, 3) else e],
    forEach bad fun w => block [look fun s => noteUe w (s.content w false) 4 false, setEcc fun l => l.filter fun e => e.1 ≠ w],
    when (!bad.isEmpty) (nodeFault nid 2)]

/-- ROW_CLOSE_PHASE (R357): a damaged word of a producer cluster's configuration makes the cluster Faulted first. -/
def execRowClosePhase (i : Fin 16) (s : State) : Host.Outcome State Fault Refusal :=
  .next (run (block [
    forEach ((List.range 8).filter fun c => (s.spans i.val).any fun sp => sp.1 = nidCluster c) fun c =>
      configCheck (nidCluster c) (0x10000000 + 0x01000000 * c) 0x400000,
    rowClosePhase i.val]) s)

end Sys2Proof.Machine
end

