-- ==== Sys2Proof/Machine/TwoWireBus.lean ====
section
/-! DEFINITION. Two-wire transfers: their segments, how they start and how they end (R495 to R500, R503). -/

namespace Sys2Proof.Machine
open Reg

/-- A segment of a transfer (R497): address, read or write, length, and the data of a write. -/
structure Segment where
  addr : Nat
  read : Bool
  len : Nat
  data : List Byte
  deriving DecidableEq, Repr

/-- The segments that TW_XFER's list spells: none where it does not keep the rules of R497. -/
def segments : Nat → List Byte → Option (List Segment)
  | 0, bs => if bs.isEmpty then some [] else none
  | f + 1, bs =>
    if bs.isEmpty then some []
    else
      let n := leAt bs 2 2
      let rd := leAt bs 1 1
      let own := if rd = 0 then (n + 3) / 4 * 4 else 0
      if leAt bs 0 1 ≥ 128 ∨ 1 < rd ∨ n = 0 ∨ 256 < n ∨ bs.length < 4 + own then none
      else (segments f (bs.drop (4 + own))).map fun rest => ⟨leAt bs 0 1, rd = 1, n, if rd = 1 then [] else slice bs 4 n⟩ :: rest

/-- A valid list: 1 to 8 segments, at most 256 bytes written and at most 256 read. -/
def segmentsOf (bs : List Byte) : Option (List Segment) :=
  let total := fun (l : List Segment) => sumNat (l.map Segment.len)
  match segments 8 bs with
  | some l => if l.isEmpty ∨ 256 < total (l.filter Segment.read) ∨ 256 < total (l.filter fun g => !g.read) then none else some l
  | none => none

def State.twc (s : State) (x : Nat) : TwCtl := Tbl.get TwCtl.reset s.dev.twc x
def setTwc (x : Nat) (f : TwCtl → TwCtl) : Prog := dev fun d => { d with twc := Tbl.set TwCtl.reset d.twc x (f (Tbl.get TwCtl.reset d.twc x)) }

/-- The node of a bus in the journal: its transfers conflict with each other alone. -/
def busNode (x : Nat) : Nat := 0x12000 + x

/-- A transfer ends with an outcome (Table 15-9): the segment and byte of a NACK, the bytes read; "transfer done". -/
def endTransfer (x outcome seg byte : Nat) (data : List Byte) : Prog := look fun s => when (s.on (TwC.busy x)) (block [
  set (TwC.busy x) 0, set (TwC.outcome x) outcome, set (TwC.segment x) seg, set (TwC.byte x) byte,
  setTwc x fun _ => ⟨[], 0, false, data⟩,
  bump (TwC.transfers x), when (outcome = 3 || outcome = 5) (bump (TwC.failed x)),
  raise 0xD 1 1 ([BitVec.ofNat 8 x, BitVec.ofNat 8 outcome, BitVec.ofNat 8 seg, 0] ++ leBytes 2 byte ++ leBytes 2 data.length),
  finish 0xD 4 (busNode x) (fun _ => .skip) 0])

/-- An attempt goes out on the bus from the first segment. -/
def startAttempt (x : Nat) : Prog := look fun s =>
  let segs := ((segmentsOf (s.twc x).segs).getD []).map fun g => leBytes 1 (2 * g.addr + boolNat g.read) ++ leBytes 2 g.len ++ g.data
  emit (.twoWireStart x (s.twc x).attempt segs)

/-- A port whose link is not locked reaches no bus (R500). -/
def tunnelDown (n : Nat) : Prog := when (decide (n < 48)) (endTransfer (16 + n) 5 0 0 [])

end Sys2Proof.Machine
end

