-- ==== Sys2Proof/Machine/Ports.lean ====
section
/-! DEFINITION. Camera ports: links, CSI-2 packets, steering, queues and embedded data (R190 to R215, R427). -/

namespace Sys2Proof.Machine
open Reg

/-! Queues (R209, R210). -/

/-- The 16-byte units an item takes (R429). -/
def QItem.units (x : QItem) : Nat := if x.kind = 0 then ceilDiv (x.data.length + 3) 16 else 1

def PortSt.queue (t : PortSt) (q : Nat) : List QItem := Tbl.get [] t.queues q

def setQueue (n q : Nat) (f : List QItem → List QItem) : Prog :=
  setPort n fun t => { t with queues := Tbl.set [] t.queues q (f (t.queue q)) }

def PortSt.units (t : PortSt) (q : Nat) : Nat := sumNat ((t.queue q).map QItem.units)

/-- Blocks of 64 bytes that queue q holds. -/
def PortSt.blocks (t : PortSt) (q : Nat) : Nat := ceilDiv (t.units q) 4

/-- The units that queue q can still take: its reserve and the unreserved blocks no other queue has taken. -/
def State.queueRoom (s : State) (n q : Nat) : Nat :=
  let t := s.port n
  let res := fun k => s.get (Port.queueReserve n k)
  let shared := 2048 - sumNat ((List.range 9).map res)
  let over_ := sumNat (((List.range 9).filter (· ≠ q)).map fun k => t.blocks k - res k)
  4 * (res q + (shared - over_)) - t.units q

/-- BUF_OCC and BUF_PEAK follow the queues. -/
def noteOcc (n : Nat) : Prog := look fun s =>
  let occ := satNat (sumNat ((List.range 9).map (s.port n).blocks)) 2048
  block [set (Port.bufOcc n) occ, when (s.get (Port.bufPeak n) < occ) (set (Port.bufPeak n) occ)]

/-- A unit of a waiting head is discarded whole (R210, R212): what of it is queued goes, and for an area pipeline what is still to come,
up to its frame end. -/
def dropUnit (p n vc : Nat) : Prog := look fun s =>
  let area := s.on (Framer.area p)
  let mine := ((s.port n).queue (p % 8)).filter fun x => x.vc = vc
  let rec ended : List QItem → Bool
    | [] => false
    | x :: xs => x.kind = 4 || ended xs
  let rec unit : Bool → List QItem → List QItem
    | _, [] => []
    | inside, x :: xs =>
      if x.vc ≠ vc then x :: unit inside xs
      else if !inside then x :: unit false xs
      else if area then (if x.kind = 4 then unit false xs else unit true xs)
      else if x.kind = 0 ∨ x.kind = 4 ∨ x.kind = 3 then unit false xs
      else unit true xs
  block [
    setQueue n (p % 8) (unit true),
    when (area && !ended mine) (setPort n fun t => { t with dropping := t.dropping ++ [0x100 + 32 * (p % 8) + vc] }),
    noteOcc n,
    bump (Framer.waitDrop p), countDropped (nidPipe p)]

/-- Is a pipeline busy with a unit of another head? -/
def State.busyElse (s : State) (p n vc : Nat) : Bool :=
  (match (s.pipe p).line with | some l => l.port ≠ n || l.vc ≠ vc | none => false)
  || (match (s.pipe p).frame with | some f => f.port ≠ n || f.vc ≠ vc | none => false)

/-- Has a line start of this virtual channel opened a line, or is it waiting to, without a long packet since? -/
def State.lineBegun (s : State) (p n vc : Nat) : Bool :=
  match (((s.port n).queue (p % 8)).filter fun x => x.vc = vc).getLast? with
  | some x => x.kind = 1
  | none => match (s.pipe p).line with | some l => l.port = n && l.vc = vc && l.byStart && l.dt = 0 | none => false

/-- An item enters the queue of pipeline p, or what of it finds a free block: the rest of its unit is discarded (R210). -/
def enqueueItem (n p : Nat) (x : QItem) : Prog := look fun s =>
  let q := p % 8
  let area := s.on (Framer.area p)
  let room := s.queueRoom n q
  let waitCode := 0x100 + 32 * q + x.vc
  if (s.port n).dropping.contains waitCode then
    when (x.kind = 4) (setPort n fun t => { t with dropping := t.dropping.filter (· ≠ waitCode) })
  else if (s.port n).dropping.contains q ∧ x.kind ≠ 3 then .skip
  else block [
    setPort n fun t => { t with dropping := t.dropping.filter (· ≠ q) },
    if x.units ≤ room then setQueue n q fun l => l ++ [x]
    else block [
      bump (Port.overflowDrops n), setFlag (Port.overflow n), countMarked (nidCluster (p / 8)),
      raiseLimited 4 5 (nidCluster (p / 8)) (16 * n + q) fun k => [BitVec.ofNat 8 n, BitVec.ofNat 8 q] ++ leBytes 4 k,
      if s.busyElse p n x.vc then dropUnit p n x.vc
      else block [
        when (if area then x.kind ≠ 3 else x.kind = 0 && (0 < room || s.lineBegun p n x.vc))
          (setQueue n q fun l => l ++ [{ x with kind := 0, data := x.data.take (16 * room - 3), cut := true }]),
        when area (setPort n fun t => { t with dropping := t.dropping ++ [q] })]],
    noteOcc n]

/-! Embedded data (R208, R427). -/

/-- The payload of an embedded-data record. -/
def State.embPayload (s : State) (n vc p : Nat) (bytes : List Byte) : List Byte :=
  let ix := match (s.port n).bound.find? fun b => b.1 = vc with | some b => b.2 | none => 0xFFFFFFFFFFFF
  leBytes 2 (nidPipe p) ++ leBytes 1 n ++ leBytes 1 vc ++ leBytes 4 bytes.length ++ leBytes 6 ix ++ [0, 0] ++ bytes

/-- Embedded data leaves as a record of the stream that owns its pipeline. -/
def sendEmbedded (n vc p : Nat) (trunc : Bool) (bytes : List Byte) : Prog := look fun s =>
  match (s.streamsOf p).find? fun i => !(s.stream i).fast with
  | some i =>
    let trig := match (s.port n).bound.find? fun b => b.1 = vc with | some b => s.trigOf i b.2 | none => s.now
    sendSide 1 i (boolNat trunc) trig (s.embPayload n vc p bytes)
  | none => .skip

/-- Embedded data of a virtual channel: collected within a frame, a record of its own outside one. -/
def embedded (n vc p : Nat) (bytes : List Byte) : Prog := look fun s =>
  let late := fun (was : List Byte) (trunc : Bool) =>
    when (!trunc && 65536 < was.length + bytes.length) (block [bump (Port.embTrunc n), countMarked (nidCluster (portCluster n))])
  match (s.port n).emb.find? fun e => e.1 = vc with
  | some (_, _, trunc, was) => block [
      late was trunc,
      setPort n fun t => { t with emb := t.emb.map fun e =>
        if e.1 = vc then (vc, p, trunc || decide (65536 < was.length + bytes.length), (was ++ bytes).take 65536) else e }]
  | none => block [late [] false, sendEmbedded n vc p (decide (65536 < bytes.length)) (bytes.take 65536)]

/-- A frame start or frame end of a virtual channel closes its collection. -/
def closeEmbedded (n vc : Nat) (start : Bool) : Prog := look fun s => block [
  match (s.port n).emb.find? fun e => e.1 = vc with
  | some (_, p, trunc, was) => when (!was.isEmpty) (sendEmbedded n vc p trunc was)
  | none => .skip,
  setPort n fun t => { t with emb := (t.emb.filter fun e => e.1 ≠ vc) ++ (if start then [(vc, 0, false, [])] else []) }]

/-! Links (R193 to R199). -/

/-- The pipelines that a port's steering entries feed. -/
def State.pipesOfPort (s : State) (n : Nat) : List Nat :=
  (((s.steers n).filter fun x => x.2.action = 0).map fun x => 8 * portCluster n + x.2.pipe).dedup

/-- RATE as the status page gives it: the gear, or the combo port's rate in units of 100 with bit 7 for C-PHY. -/
def State.rateCode (s : State) (n gear : Nat) : Nat :=
  if n < 48 then gear else 128 * s.get (Port.modeF n) + s.get (Port.comboRate n) / 100

/-- A port locks: RTX_TERM is computed, the reference packet goes, a relock puts its framers into resync, and the tunnel's latency is
measured, a free value (R193, R196, R214, R219, R500). -/
def portLock (n gear : Nat) (rtx : Bool) (rtt : Nat) : Prog := look fun s =>
  let active := decide (n < 48) && rtx && s.on (Port.rtxEn n)
  block [
    set (Port.link n) 2, set (Port.gear n) (if n < 48 then gear else 0), set (Port.rate n) (s.rateCode n gear), set (Port.rtxActive n) (boolNat active),
    set (Port.rtt n) (if active then rtt else 0), set (Port.rtxTerm n) (if active then s.get (Port.rtxLimit n) * rtt else 0),
    when (s.port n).lost (forEach (s.pipesOfPort n) fun p => setPipe p fun t => { t with resync := if t.resync = 0 then 1 else t.resync }),
    setPort n fun t => { t with lost := false, attempts := 0, ref := none },
    when (n < 48) (fresh fun v => set (TwC.tunLat (16 + n)) v),
    raise 4 1 (nidCluster (portCluster n)) [BitVec.ofNat 8 n, BitVec.ofNat 8 (if n < 48 then gear else s.rateCode n gear)],
    finishKey 4 2 1 n (fun _ => .skip) 0]

/-- A port's link is lost: start-up runs again (R195). -/
def portLose (n : Nat) : Prog := look fun s => block [
  set (Port.link n) 1, set (Port.gear n) 0, set (Port.rate n) 0, set (Port.rtxActive n) 0,
  setFlag (Port.linkLost n), countMarked (nidCluster (portCluster n)),
  setPort n fun t => { t with lost := true }, tunnelDown n,
  raise 4 2 (nidCluster (portCluster n)) ([BitVec.ofNat 8 n] ++ leBytes 4 (s.get (Port.linkErr n)))]

/-- PORT_LINK_LOCKED (R193): the highest gear the far end supports, whether it advertises retransmission, and the round trip measured. -/
def execPortLinkLocked (n : Fin 56) (gear : Fin 6) (rtx : Bool) (rtt : BitVec 20) (s : State) : Host.Outcome State Fault Refusal :=
  .next (run (look fun s =>
    let g := if s.get (Port.rateCap n.val) < gear.val then s.get (Port.rateCap n.val) else gear.val
    when (s.on (Port.enable n.val) && s.get (Port.link n.val) = 1) (portLock n.val g rtx rtt.toNat)) s)

/-- PORT_STARTUP_TIMEOUT (R193): the port goes on trying. -/
def execPortStartupTimeout (n : Fin 56) (s : State) : Host.Outcome State Fault Refusal :=
  .next (run (look fun s =>
    let k := (s.port n.val).attempts + 1
    when (n.val < 48 && s.on (Port.enable n.val) && s.get (Port.link n.val) = 1) (block [
      setPort n.val fun t => { t with attempts := k },
      raise 4 3 (nidCluster (portCluster n.val)) ([BitVec.ofNat 8 n.val] ++ leBytes 4 k),
      finishKey 4 2 1 n.val (fun _ => .skip) 0])) s)

/-- PORT_LINK_LOSS (R195): a locked A-PHY port loses its link. -/
def execPortLinkLoss (n : Fin 48) (s : State) : Host.Outcome State Fault Refusal :=
  .next (run (look fun s => when (s.get (Port.link n.val) = 2) (portLose n.val)) s)

/-- COMBO_BURST_TIMEOUT (R195): combo port 48 + k sees no valid burst for its longest LINE_TIMEOUT. -/
def execComboBurstTimeout (k : Fin 8) (s : State) : Host.Outcome State Fault Refusal :=
  .next (run (look fun s => when (s.get (Port.link (48 + k.val)) = 2) (portLose (48 + k.val))) s)

/-- APHY_PACKET_RECEIVE (R196 to R198): a packet that arrived damaged so many times in a row, the last of them included where it was given
up. -/
def execAphyPacketReceive (n : Fin 48) (damaged : Nat) (s : State) : Host.Outcome State Fault Refusal :=
  .next (run (look fun s =>
    let cl := nidCluster (portCluster n.val)
    let limit := if s.on (Port.rtxActive n.val) then s.get (Port.rtxLimit n.val) else 0
    let retries := if damaged < limit then damaged else limit
    let lost := limit < damaged
    let failed := if lost then limit + 1 else damaged
    when (s.get (Port.link n.val) = 2) (block [
      bumpBy (Port.linkErr n.val) failed, bumpBy (Port.retrans n.val) retries, bumpBy (Node.counter cl none 4) (failed + retries),
      when lost (block [bump (Port.lost n.val), countMarked cl,
        raiseLimited 4 8 cl n.val fun k => [BitVec.ofNat 8 n.val] ++ leBytes 4 k])])) s)

/-! Packets (R201 to R207, R213 to R215). -/

/-- Event 0x04/0x04 with the increments of CRC_ERR and HDR_UNCORR. -/
def checkEvent (n crc hdr : Nat) : Prog := block [
  setFlag (Port.checkErr n),
  raiseLimited 4 4 (nidCluster (portCluster n)) n (fun k => [BitVec.ofNat 8 n] ++ leBytes 4 (k % 0x100000000) ++ leBytes 4 (k / 0x100000000))
    (· + crc + 0x100000000 * hdr)]

/-- A long packet fails its CRC (R215). -/
def crcError (n : Nat) : Prog := block [bump (Port.crcErr n), countMarked (nidCluster (portCluster n)), checkEvent n 1 0]

/-- A header that cannot be corrected (R214). -/
def headerLost (n : Nat) (kept : Bool) : Prog := block [
  bump (Port.hdrUncorr n), setFlag (Port.headerLost n), checkEvent n 0 1,
  if kept then countMarked (nidCluster (portCluster n)) else countDropped (nidCluster (portCluster n))]

/-- Is a port receiving: enabled and locked, or a combo port ready for its first header? -/
def State.portUp (s : State) (n : Nat) (h : Hdr) : Bool :=
  s.on (Port.enable n) && (s.get (Port.link n) = 2 || (48 ≤ n && s.get (Port.link n) = 1 && h != .bad))

/-- A header that passed its check: a correction is counted, a combo port locks. -/
def headerPass (n : Nat) (h : Hdr) : Prog := look fun s => block [
  when (s.get (Port.link n) = 1) (portLock n 0 false 0),
  when (h == .corrected) (block [bump (Port.eccCorr n), countCorrected (nidCluster (portCluster n))])]

/-- Long-packet data types that the port supports (Table 6-4). -/
def supportedDt (dt : Nat) : Bool := (inFmt dt).isSome || dt = 0x12 || (0x30 ≤ dt && dt < 0x38)

/-- A long packet is steered (R206). -/
def steerLong (n vc dt t : Nat) (payload : List Byte) (bad crcOk : Bool) : Prog := look fun s =>
  let cl := nidCluster (portCluster n)
  match (s.steers n).find? fun x => x.2.vc = vc && x.2.dt = dt with
  | none => block [bump (Port.noMatchCount n), setFlag (Port.noMatch n), countDropped cl,
      raiseLimited 4 7 cl n fun k => [BitVec.ofNat 8 n, BitVec.ofNat 8 vc, BitVec.ofNat 8 dt] ++ leBytes 4 k]
  | some (_, e) =>
    let p := 8 * portCluster n + e.pipe
    if e.action = 0 then
      enqueueItem n p ⟨0, vc, if 0x30 ≤ dt then packDt e.pack else dt, t, payload, bad, crcOk, false, false⟩
    else if e.action = 1 then block [when (!crcOk) (crcError n), embedded n vc p payload]
    else .skip

/-- CSI2_LONG_PACKET (R202, R206, R214): the header's check, virtual channel, data type and capture time, the payload as it arrived, and
whether the CRC matches it. -/
def execCsi2LongPacket (n : Fin 56) (h : Hdr) (vc : Fin 32) (dt : Fin 64) (payload : List Byte) (crcOk : Bool) (t : Nat) (s : State) :
    Host.Outcome State Fault Refusal :=
  .next (run (look fun s =>
    let cl := nidCluster (portCluster n.val)
    if !s.portUp n.val h then .skip
    else if h == .bad then
      match (if payload.isEmpty then none else (s.port n.val).ref) with
      | some (v, d) => block [headerLost n.val true, steerLong n.val v d t payload true crcOk]
      | none => headerLost n.val false
    else block [
      headerPass n.val h, setPort n.val fun x => { x with ref := some (vc.val, dt.val) },
      if dt.val = 0x10 ∨ dt.val = 0x11 then .skip
      else if !supportedDt dt.val then block [bump (Port.unsupportedDt n.val), setFlag (Port.unsupDt n.val), countDropped cl,
        raiseLimited 4 6 cl n.val fun k => [BitVec.ofNat 8 n.val, BitVec.ofNat 8 vc.val, BitVec.ofNat 8 dt.val] ++ leBytes 4 k]
      else steerLong n.val vc.val dt.val t payload false crcOk]) s)

/-- CSI2_SHORT_PACKET (R201, R206, R214): frame and line starts and ends go to every pipeline of the virtual channel; starts ask a
sleeping one to wake (R73). -/
def execCsi2ShortPacket (n : Fin 56) (h : Hdr) (vc : Fin 32) (dt : Fin 16) (t : Nat) (s : State) : Host.Outcome State Fault Refusal :=
  .next (run (look fun s =>
    if !s.portUp n.val h then .skip
    else if h == .bad then headerLost n.val false
    else block [
      headerPass n.val h,
      if 8 ≤ dt.val then block [bump (Port.shortOther n.val), countDropped (nidCluster (portCluster n.val))]
      else if 4 ≤ dt.val then .skip
      else
        let kind := if dt.val = 0 then 3 else if dt.val = 1 then 4 else if dt.val = 2 then 1 else 2
        let pipes := (((s.steers n.val).filter fun x => x.2.action = 0 && x.2.vc = vc.val).map fun x => 8 * portCluster n.val + x.2.pipe).dedup
        block [
          when (dt.val < 2) (block [setPort n.val fun x => { x with ref := none }, closeEmbedded n.val vc.val (dt.val == 0)]),
          forEach pipes fun p => block [
            enqueueItem n.val p ⟨kind, vc.val, 0, t, [], false, true, false, false⟩,
            when ((kind = 1 ∨ kind = 3) && s.boundStarted p) (wakeRequest p)]]]) s)

end Sys2Proof.Machine
end

