-- ==== Sys2Proof/Machine/Framer.lean ====
section
/-! DEFINITION. The input framers: binding, geometry, timeouts and resync, and what a line becomes in its pipeline (R211, R212, R216 to
R221, R249 to R252, R270 to R311, R438, R512). -/

namespace Sys2Proof.Machine
open Reg

/-! Swatch capture (R288 to R291). -/

def swatchBase (c : Nat) : Nat := 0x10400000 + 0x01000000 * c

/-- Adding to a word of the accumulator. -/
def addSum (a v : Nat) : Prog := look fun s => store a (leBytes 4 (leVal (s.bytes a 4) + v))

/-- A line or frame of a capture is done: accumulated, or skipped; the capture ends at TARGET_LINES. -/
def swatchCount (p : Nat) (clean : Bool) (sums : Prog) : Prog :=
  if clean then block [sums, bump (Corr.used p), look fun s =>
    when (s.get (Corr.used p) = s.get (Corr.targetLines p)) (block [
      set (Corr.state p) 2, setPipe p fun t => { t with swatch := 2 },
      raiseStage 6 3 (nidPipe p) 10 (leBytes 4 (s.get (Corr.used p)) ++ leBytes 4 (s.get (Corr.skipped p)))])]
  else bump (Corr.skipped p)

/-- Is pipeline p under capture? -/
def State.capturing (s : State) (p : Nat) : Bool := s.get (Corr.state p) = 1 && s.get (Node.state (nidPipe p)) = stCalibrating

/-- A processed line of a pipeline under capture. -/
def swatchLine (p : Nat) (c : PixCfg) (tap : List Col) (mark : Nat) : Prog := look fun s =>
  if !s.capturing p then .skip
  else if c.area then setPipe p fun t => { t with capture := t.capture ++ [tap] }
  else swatchCount p (mark = 0 && tap.all fun x => !x.fill)
    (forEach (numbered tap) fun x => addSum (swatchBase (p / 8) + 4 * x.2) x.1.one)

def meanOf (l : List Nat) : Nat := if l.isEmpty then 0 else (roundHalfUp (sumNat l : Nat) l.length).toNat

/-- A frame of a pipeline under capture: column means and channel means by cell (Table 8-5). -/
def swatchFrame (p : Nat) (c : PixCfg) (marked : Bool) : Prog := look fun s =>
  let ls := (s.pipe p).capture
  let base := swatchBase (p / 8)
  let cols := (List.range c.pixels).map fun x => meanOf (ls.map fun l => (at1 l x).one)
  let cells := (List.range c.numCh).flatMap fun ch => (List.range (ceilDiv ls.length (2 ^ c.sy))).flatMap fun j =>
    (List.range (ceilDiv c.pixels (2 ^ c.sx))).map fun i =>
      let vs := (numbered ls).flatMap fun l => if l.2 / 2 ^ c.sy ≠ j then [] else
        (numbered l.1).filterMap fun x => if x.2 / 2 ^ c.sx = i && c.ch x.2 l.2 = ch then some x.1.one else none
      (0x8000 + ((64 * ch + j) * 64 + i) * 4, meanOf vs)
  when (s.capturing p) (block [
    swatchCount p (!marked && ls.all fun l => l.all fun x => !x.fill) (block [
      forEach (numbered cols) fun x => addSum (base + 4 * x.2) x.1, forEach cells fun x => addSum (base + x.1) x.2]),
    setPipe p fun t => { t with capture := [] }])

/-- A row or frame boundary: a pending move to or from Calibrating takes place (Table 2-7, R289). -/
def boundary (p : Nat) : Prog := look fun s =>
  if (s.pipe p).swatch = 1 then block [setPipe p fun t => { t with swatch := 0 }, setState (nidPipe p) stCalibrating]
  else if (s.pipe p).swatch = 2 then block [setPipe p fun t => { t with swatch := 0 }, setState (nidPipe p) stRunning]
  else .skip

/-! Damaged gauge words (R512). -/

/-- The bank word that an address names: the bank, then the column, grid node or map entry. -/
def gaugePlace (p a : Nat) (area : Bool) : Nat × Nat :=
  let o := a - pipeBase p
  if 0xA0000 ≤ o then ((o - 0xA0000) / 0x1000, (o % 0x1000) / 4)
  else ((o - 0x80000) / 0x10000, if area then (if o % 0x10000 < 0x4000 then o % 0x10000 / 2 else (o % 0x10000 - 0x4000) / 2) else o % 0x10000 / 4)

/-- A line reads its gauge bank: errors are corrected, or make the bank damaged. -/
def gaugeCheck (p : Nat) (n : Option Nat) : Prog := look fun s =>
  let b := s.bankFor p n
  let words := fun (k : Nat) => s.eccIn (gaugeBase p b) 0x10000 k ++ s.eccIn (mapBase p b) 0x1000 k
  block [
    forEach (words 1) fun w => block [noteCe w, setEcc fun l => l.map fun e => if e.1 = w then (w, 3) else e],
    forEach ((words 2).filter fun w => !(s.pipe p).damaged.contains w) fun w => block [
      noteUe w 4 2 false, setPipe p fun t => { t with damaged := t.damaged ++ [w] },
      let g := gaugePlace p w (s.on (Framer.area p))
      raise 0x0E 6 (nidPipe p) ([BitVec.ofNat 8 g.1] ++ leBytes 4 g.2)]]

/-! A line in its pipeline. -/

/-- The counts of the stages that a line passed. -/
def countStages (p : Nat) (marked head : Bool) : Prog := block [
  forEach [0, 1, 2, 3, 4, 5, 6, 7, 9] fun k => block [
    bump (Node.counter (nidPipe p) (some k) 0), bump (Node.counter (nidPipe p) (some k) 1), when marked (bump (Node.counter (nidPipe p) (some k) 2))],
  forEach [8, 10] fun k => bump (Node.counter (nidPipe p) (some k) 0),
  if head then countOut (nidPipe p) else countDropped (nidPipe p)]

/-- A framed line of an index (none where it has no head) passes stages 0 to 10; `raw` gives the framed lines of its unit. -/
def processLine (p n_ vc : Nat) (head : Option (Nat × Nat)) (n y dt : Nat) (raw : Nat → List Col) (mark0 : Nat) : Prog :=
  let ix := head.map fun _ => n
  block [configCheck (nidPipe p) (pipeBase p) 0x80000, gaugeCheck p ix, look fun s =>
    when (s.get (Node.state (nidPipe p)) ≠ stFaulted) (
    let c := s.pixCfg p ix dt
    let mark := if s.bankDamaged p ix then Nat.lor mark0 1 else mark0
    let r := c.mosaicLine raw y
    let k := r.2.2.2
    let v5 := c.stage5 (c.v4 raw) (fun m => if m = n then some r.2.2.1 else ((s.pipe p).store.find? fun x => x.1 = m).map Prod.snd) n y
    let v6 := c.stage6 v5.1
    let out := c.format (s.get (Reg.Col.format p)) (s.get (Reg.Col.fill p)) v6.1
    let cal := s.get (Node.state (nidPipe p)) = stCalibrating
    block [
      bumpBy (Corr.clipLow p) k.clipLow, bumpBy (Corr.staticReplaced p) k.defects.static, bumpBy (Corr.dynHot p) k.defects.hot,
      bumpBy (Corr.dynCold p) k.defects.cold, bumpBy (Corr.clipHigh p) k.clipHigh, bumpBy (Reg.Col.wbClip p) k.wbClip,
      forEach k.defects.bad fun x => block [bump (Corr.uncorrectable p), countCorrected (nidPipe p),
        raiseLimitedStage 6 5 (nidPipe p) 2 fun m => leBytes 2 x ++ leBytes 2 y ++ leBytes 4 m],
      when (c.mode = 3 && !c.threeIn) (setPipe p fun t => { t with store := (t.store.filter fun x => x.1 ≠ n && n < x.1 + 64) ++ [(n, r.2.2.1)] }),
      when v5.2 (block [bump (Reg.Col.alignMiss p),
        raiseLimitedStage 7 2 (nidPipe p) 5 fun m => leBytes 6 n ++ leBytes 4 m]),
      bumpBy (Reg.Col.matrixClip p) v6.2,
      swatchLine p c (if s.get (Corr.tap p) = 0 then r.1 else r.2.1) mark,
      when (mark ≠ 0) (countMarked (nidPipe p)), countStages p (mark ≠ 0) head.isSome,
      match head with
      | none => .skip
      | some (i, h) => block [
          setPipe p fun t => { t with out := t.out ++ [⟨i, h, n, y, out, mark, cal⟩] },
          measureLine p (headKey n_ vc) n y c v6.1 out mark]])]

/-! The fast path (R434, R438). -/

/-- The bits of a line mark that the fast path sets. -/
def fastMark (m : Nat) : Nat := Nat.land m 0x19

/-- A fast record (Table 13-10). -/
def fastRecord (seq i h : Nat) (l : OpenLine) (crop width fill pixels : Nat) : List Byte :=
  let px := ((unpackLine l.dt l.bytes).take pixels).drop crop
  let w := match inFmt l.dt with | some f => f.w | none => 8
  let codes := (List.range width).map fun x => match px[x]? with | some c => c.one | none => fill
  let head := leBytes 6 seq ++ [BitVec.ofNat 8 (i + 0x20), BitVec.ofNat 8 h] ++ leBytes 6 l.index ++ [BitVec.ofNat 8 l.dt, BitVec.ofNat 8 w]
    ++ leBytes 4 (l.time / 1000000000) ++ leBytes 4 (l.time % 1000000000) ++ leBytes 2 width ++ zeros 6
  let body := head ++ padTo 32 (packBits w codes) ++ leBytes 4 (if width < px.length then width else px.length) ++ [BitVec.ofNat 8 (fastMark l.mark)] ++ zeros 23
  body ++ leBytes 4 (houseCrc (leBytes 2 i ++ leBytes 6 seq) body)

/-- A fast line becomes its record, which leaves at once where the ring and the host take it. -/
def emitFast (i h : Nat) (l : OpenLine) (p : Nat) : Prog := look fun s =>
  let seq := (s.stream i).seq
  block [
    bump (Node.counter (nidPipe p) (some 11) 0), bump (Node.counter (nidPipe p) (some 11) 1), countOut (nidPipe p),
    when (fastMark l.mark ≠ 0) (block [countMarked (nidPipe p), bump (Node.counter (nidPipe p) (some 11) 2)]),
    setStream i fun t => { t with seq := (seq + 1) % 0x1000000000000 },
    enqueueRecord i ⟨false, seq, fastRecord seq i h l (s.get (Geo.cropStart i h)) (s.get (Geo.cropWidth i h)) (s.stream i).fill
      (s.get (Framer.linePixels p)), l.trig, decide (fastMark l.mark ≠ 0), 0⟩,
    departRecord i]

/-! Closing lines and frames (R216, R217). -/


/-- Event 0x04/0x09: the mark bits seen and the count since the code was last raised. -/
def raiseGeometry (p mark : Nat) : Prog :=
  raiseLimited 4 9 (nidPipe p) 0 (fun k => [BitVec.ofNat 8 p, BitVec.ofNat 8 (k % 256)] ++ leBytes 4 (k / 256))
    fun k => k / 256 * 256 + 256 + Nat.lor (k % 256) mark

/-- Lines of the open frame that no later line can change leave the stages; all of them where the frame is complete. -/
def leaveLines (p : Nat) (all : Bool) : Prog := look fun s =>
  match (s.pipe p).frame with
  | none => .skip
  | some f =>
    let lag := (s.pixCfg p (f.head.map fun _ => f.index) f.dt).lag
    let upto := if all then f.lines.length else f.lines.length - lag
    let raw := fun y => (f.lines.getD y ([], 0)).1
    block [
      setPipe p fun t => { t with frame := t.frame.map fun g => { g with sent := if g.sent < upto then upto else g.sent } },
      forEach ((List.range upto).drop f.sent) fun y =>
        processLine p f.port f.vc f.head f.index y f.dt raw (f.lines.getD y ([], 0)).2]

/-- The open line closes: cut or padded to LINE_PIXELS, marked, and processed or added to its frame. -/
def closeLine (p : Nat) (timeout : Bool) : Prog := look fun s =>
  match (s.pipe p).line with
  | none => .skip
  | some l =>
    let px := s.get (Framer.linePixels p)
    let area := s.on (Framer.area p)
    let got := (unpackLine l.dt l.bytes).length
    let over_ := px < got
    let under := got < px && !timeout && !bit l.mark 4
    let short := under && area && s.on (Framer.unpadded p)
    let mark := Nat.lor l.mark (2 * boolNat over_ + 4 * boolNat under + 8 * boolNat timeout + 0x20 * boolNat short)
    let cols := framed px short l.dt l.bytes
    let fast := match l.head with | some (i, _) => (s.stream i).fast | none => false
    block [
      setPipe p fun t => { t with line := none },
      when (l.fate = 0) (block [
        when over_ (bump (Framer.overLen p)), when under (bump (Framer.underLen p)), when timeout (bump (Framer.truncated p)),
        when (Nat.land mark 0x6E ≠ 0) (raiseGeometry p mark),
        if fast then (match l.head with | some (i, h) => emitFast i h { l with mark := mark } p | none => .skip)
        else if area then block [
          setPipe p fun t => { t with frame := t.frame.map fun f =>
            { f with lines := f.lines ++ [(cols, mark)], dt := l.dt, marked := f.marked || mark ≠ 0 || cols.any Col.fill } },
          leaveLines p false]
        else processLine p l.port l.vc l.head l.index 0 l.dt (fun _ => cols) mark]),
      when (l.fate = 2 && area) (setPipe p fun t => { t with frame := t.frame.map fun f =>
        { f with lines := f.lines ++ [(cols, mark)], marked := true } })]

/-- The open frame closes: fill lines to FRAME_LINES, what is left of it leaves the stages, its period and its capture end. -/
def closeFrame (p : Nat) (counted : Bool) : Prog := look fun s =>
  match (s.pipe p).frame with
  | none => .skip
  | some f =>
    let px := s.get (Framer.linePixels p)
    let short := s.get (Framer.frameLines p) - f.lines.length
    let fills := List.replicate short (List.replicate px (⟨true, [0]⟩ : Col), 0x40)
    if f.fate ≠ 0 then setPipe p fun t => { t with frame := none }
    else block [
      when (decide (0 < short)) (block [
        when counted (bump (Framer.underLines p)), raiseGeometry p 0x40,
        setPipe p fun t => { t with frame := t.frame.map fun g => { g with lines := g.lines ++ fills, marked := true } }]),
      leaveLines p true,
      look fun s => swatchFrame p (s.pixCfg p (f.head.map fun _ => f.index) f.dt) (match (s.pipe p).frame with | some g => g.marked | none => true),
      match f.head with
      | some _ => closePeriod p (headKey f.port f.vc) f.index false
      | none => .skip,
      setPipe p fun t => { t with frame := none }]

/-! Binding (R249, R250, R252). -/

/-- A line or frame in no window, or in the window of an index that is taken. -/
def unsolicited (p i h : Nat) : Prog := look fun s => block [
  bump (Head.unsolicited i h), countDropped (nidPipe p),
  when (!s.isParked i h (s.next i)) (raiseLimited 5 7 1 (0x100 * i + h) fun k => [BitVec.ofNat 8 i, BitVec.ofNat 8 h] ++ leBytes 4 k)]

/-- A line of a closed row (R220). -/
def lateLine (p : Nat) : Prog := block [bump (Framer.late p), countDropped (nidPipe p), lateEvent p 0 1]

/-- Binding a line, or a frame, that arrived at t; what follows is told the head, the index, the fate and the exposure time. -/
def bindUnit (p n vc t : Nat) (k : Option (Nat × Nat) → Nat → Nat → Nat → Prog) : Prog := look fun s =>
  let armed := fun (st : Nat) => st = 3 || st = 4 || st = 6
  match s.headOf n vc with
  | none => block [applyArmed p 0 armed, updateLatency p, k none 0 0 0]
  | some (i, h) =>
    let mine := (s.gen i).wins.filter fun w => w.head = h
    let fits := mine.filter fun w => w.lo ≤ t && t ≤ w.hi && !w.bound
    match (fits.map Win.index).max? with
    | none => block [unsolicited p i h, k (some (i, h)) 0 1 0]
    | some ix =>
      let exp := match fits.find? fun w => w.index = ix with | some w => w.lo - s.get (Head.hdrMin i h) | none => 0
      block [
        setGen i fun g =>
          let keep := fun (w : Win) =>
            if w.head ≠ h then some w
            else if w.index = ix then (if w.shut then none else some { w with bound := true })
            else if !w.bound ∧ w.index < ix then none else some w
          { g with wins := g.wins.filterMap keep },
        forEach (mine.filter fun w => !w.bound && w.index < ix) fun w => slotAbsent i h w.index,
        setPort n fun x => { x with bound := (x.bound.filter fun b => b.1 ≠ vc) ++ [(vc, ix)] },
        look fun s =>
          let open_ := (s.asm i).rows.filter fun r => r.index = ix && r.closed.isNone
          if (s.stream i).fast then k (some (i, h)) ix 0 exp
          else if open_.isEmpty then
            block [when (!s.on (Framer.area p)) (lateLine p), measureLost p (headKey n vc) ix false, k (some (i, h)) ix 2 exp]
          else block [
            forEach open_ fun r => updRow i ix r.line fun r => r.setSlot h fun x => if x.st = 0 then { x with st := 1 } else x,
            applyArmed p ix armed, updateLatency p, k (some (i, h)) ix 0 exp]]

/-! Taking items (R211, R217 to R220). -/

def portsOf (p : Nat) : List Nat := (List.range 6).map (fun k => 6 * (p / 8) + k) ++ [48 + p / 8]

/-- The first item of every head in the queues of pipeline p: port, virtual channel, item. -/
def State.fronts (s : State) (p : Nat) : List (Nat × Nat × QItem) :=
  (portsOf p).flatMap fun n =>
    let q := (s.port n).queue (p % 8)
    (q.map QItem.vc).dedup.filterMap fun v => (q.find? fun x => x.vc = v).map fun x => (n, v, x)

/-- The steering index of a head. -/
def State.steerIndex (s : State) (p n vc : Nat) : Nat :=
  match (s.steers n).find? fun x => x.2.action = 0 && x.2.vc = vc && x.2.pipe = p % 8 with | some x => x.1 | none => 32

/-- The item the framer takes next: of the head it is serving, else the one that has waited longest, then by steering index and port
(R211). -/
def State.nextItem (s : State) (p : Nat) : Option (Nat × Nat × QItem) :=
  let all := s.fronts p
  let of_ := fun (n v : Nat) => all.find? fun x => x.1 = n && x.2.1 = v
  if !s.awake p then none
  else match (s.pipe p).frame, (s.pipe p).line with
    | some f, _ => of_ f.port f.vc
    | none, some l => of_ l.port l.vc
    | none, none => leastBy (fun x => x.2.2.time * 4096 + s.steerIndex p x.1 x.2.1 * 64 + x.1) all

def mapVc (vc : Nat) (f : QItem → Option QItem) : List QItem → List QItem
  | [] => []
  | x :: xs => if x.vc = vc then (match f x with | some y => y :: xs | none => xs) else x :: mapVc vc f xs

def popItem (p n vc : Nat) : Prog := block [setQueue n (p % 8) (mapVc vc fun _ => none), noteOcc n]
def updItem (p n vc : Nat) (f : QItem → QItem) : Prog := block [setQueue n (p % 8) (mapVc vc fun x => some (f x)), noteOcc n]

/-- A packet, or the rest of one, is discarded in resync (R219). -/
def resyncDrop (p n vc : Nat) : Prog := block [
  popItem p n vc, bump (Framer.resyncDiscard p), countDropped (nidPipe p), lateEvent p 1 0]

/-- Does an item stand for a whole line lost to overflow? -/
def QItem.lostLine (x : QItem) : Bool := x.kind = 0 && x.cut && !x.taken && x.data.isEmpty

/-- A stray line start or line end. -/
def missingLe (p : Nat) : Prog := block [bump (Framer.missingLe p), countCorrected (nidPipe p)]

def setLine (p : Nat) (l : OpenLine) : Prog := setPipe p fun t => { t with line := some l }
def updLine (p : Nat) (f : OpenLine → OpenLine) : Prog := setPipe p fun t => { t with line := t.line.map f }

/-- A line header opens a line and binds it; in an area pipeline the line belongs to its frame. -/
def openLine (p n vc : Nat) (x : QItem) : Prog := look fun s =>
  let l : OpenLine := ⟨n, vc, x.time, none, 0, x.kind = 1, if x.kind = 1 then 0 else x.dt, [], if x.bad then 1 else 0, 0, 0, 0⟩
  let begin_ := if x.kind = 1 then popItem p n vc else updItem p n vc fun y => { y with taken := true }
  block [
    setPipe p fun t => { t with resync := 0 },
    match (s.pipe p).frame with
    | some f =>
      let y := f.lines.length
      let extra := decide (s.get (Framer.frameLines p) ≤ y)
      let closed := match f.head with | some (i, _) => (match s.row i f.index y with | some r => r.closed.isSome | none => true) | none => false
      let fate := if f.fate ≠ 0 || extra then 1 else if closed then 2 else 0
      block [
        begin_, setLine p { l with head := f.head, index := f.index, fate := fate, y := y },
        when (f.fate = 2 || fate = 2) (lateLine p),
        when (f.fate = 0 && extra) (block [
          countDropped (nidPipe p),
          when (!f.extra) (block [bump (Framer.overLines p), countMarked (nidPipe p), raiseGeometry p 2,
            setPipe p fun t => { t with frame := t.frame.map fun g => { g with extra := true } }])]),
        when (fate = 0) (countIn (nidPipe p))]
    | none => block [
        boundary p, begin_,
        bindUnit p n vc x.time fun head ix fate trig => block [
          setLine p { l with head := head, index := ix, fate := fate, trig := trig }, when (fate = 0) (countIn (nidPipe p))]]]

/-- FRAMER_TAKE_LINE_HEADER (R219). -/
def execFramerTakeLineHeader (p : Fin 64) (s : State) : Host.Outcome State Fault Refusal :=
  .next (run (look fun s =>
    match s.nextItem p.val with
    | none => .skip
    | some (n, vc, x) =>
      let pp := s.pipe p.val
      if !(x.kind = 1 || (x.kind = 0 && !x.taken)) || (x.lostLine && pp.frame.isSome) then .skip
      else match pp.line with
        | some l =>
          if x.kind = 1 then block [popItem p.val n vc, missingLe p.val, closeLine p.val false]
          else if l.byStart ∧ l.dt = 0 then .skip
          else block [closeLine p.val false, openLine p.val n vc x]
        | none =>
          if s.on (Framer.area p.val) && pp.frame.isNone then resyncDrop p.val n vc
          else openLine p.val n vc x) s)

/-- A line's data ends: the footer's check, and the close of a line that its header opened, or of the unit that overflow cut short. -/
def lineEnds (p n vc : Nat) (x : QItem) : Prog := block [
  popItem p n vc,
  when (!x.crcOk && !x.cut) (block [crcError n, updLine p fun l => { l with mark := Nat.lor l.mark 1 }]),
  look fun s =>
    let byStart := match (s.pipe p).line with | some l => l.byStart | none => false
    if x.cut then block [
      updLine p fun l => { l with mark := Nat.lor l.mark 0x10 }, closeLine p false, when (s.on (Framer.area p)) (closeFrame p false)]
    else when (!byStart) (closeLine p false)]

/-- FRAMER_TAKE_LINE_DATA (R218): up to so many bytes of the line. -/
def execFramerTakeLineData (p : Fin 64) (count : Nat) (s : State) : Host.Outcome State Fault Refusal :=
  .next (run (look fun s =>
    match s.nextItem p.val with
    | none => .skip
    | some (n, vc, x) =>
      if x.kind ≠ 0 then .skip
      else match (s.pipe p.val).line with
        | none =>
          if x.lostLine && (s.pipe p.val).frame.isSome then block [popItem p.val n vc, closeFrame p.val false]
          else when x.taken (resyncDrop p.val n vc)
        | some l =>
          if !x.taken ∧ ¬(l.byStart ∧ l.dt = 0) then .skip
          else block [
            updLine p.val fun l => { l with
              dt := x.dt, mark := Nat.lor l.mark (boolNat x.bad), bytes := if l.fate = 0 then l.bytes ++ x.data.take count else [] },
            if x.data.length ≤ count then lineEnds p.val n vc x
            else updItem p.val n vc fun y => { y with data := y.data.drop count, taken := true }]) s)

/-- FRAMER_TAKE_LINE_END (R217). -/
def execFramerTakeLineEnd (p : Fin 64) (s : State) : Host.Outcome State Fault Refusal :=
  .next (run (look fun s =>
    match s.nextItem p.val with
    | none => .skip
    | some (n, vc, x) =>
      if x.kind ≠ 2 then .skip
      else if (s.pipe p.val).resync ≠ 0 then resyncDrop p.val n vc
      else if (s.pipe p.val).line.isSome then block [popItem p.val n vc, closeLine p.val false]
      else block [popItem p.val n vc, missingLe p.val]) s)

/-- FRAMER_TAKE_FRAME_START (R217, R219). -/
def execFramerTakeFrameStart (p : Fin 64) (s : State) : Host.Outcome State Fault Refusal :=
  .next (run (look fun s =>
    match s.nextItem p.val with
    | none => .skip
    | some (n, vc, x) =>
      if x.kind ≠ 3 then .skip
      else if (s.pipe p.val).resync = 1 ∨ (!s.on (Framer.area p.val) ∧ (s.pipe p.val).resync ≠ 0) then resyncDrop p.val n vc
      else if !s.on (Framer.area p.val) then popItem p.val n vc
      else block [
        when (s.pipe p.val).frame.isSome (block [
          bump (Framer.missingFe p.val), countMarked (nidPipe p.val), raiseGeometry p.val 8, closeLine p.val false, closeFrame p.val true]),
        popItem p.val n vc, setPipe p.val fun t => { t with resync := 0 }, boundary p.val,
        bindUnit p.val n vc x.time fun head ix fate _ =>
          setPipe p.val fun t => { t with frame := some ⟨n, vc, head, ix, fate, [], 0, 0, false, false⟩ }]) s)

/-- FRAMER_TAKE_FRAME_END (R217). -/
def execFramerTakeFrameEnd (p : Fin 64) (s : State) : Host.Outcome State Fault Refusal :=
  .next (run (look fun s =>
    match s.nextItem p.val with
    | none => .skip
    | some (n, vc, x) =>
      if x.kind ≠ 4 then .skip
      else if (s.pipe p.val).resync ≠ 0 then resyncDrop p.val n vc
      else block [popItem p.val n vc, when (s.on (Framer.area p.val)) (block [closeLine p.val false, closeFrame p.val true])]) s)

/-- LINE_TIMEOUT_EXPIRY (R218). -/
def execLineTimeoutExpiry (p : Fin 64) (s : State) : Host.Outcome State Fault Refusal :=
  .next (run (look fun s =>
    when (s.pipe p.val).line.isSome (block [closeLine p.val true, setPipe p.val fun t => { t with resync := 1 }])) s)

/-- FRAME_TIMEOUT_EXPIRY (R218). -/
def execFrameTimeoutExpiry (p : Fin 64) (s : State) : Host.Outcome State Fault Refusal :=
  .next (run (look fun s =>
    when (s.pipe p.val).frame.isSome (block [
      closeLine p.val true, bump (Framer.frameTrunc p.val), countMarked (nidPipe p.val), raiseGeometry p.val 8, closeFrame p.val false,
      setPipe p.val fun t => { t with resync := 2 }])) s)

/-- TIME_SHARED_WAIT_EXPIRY (R212): the unit that has waited longest behind the one being served is dropped whole. -/
def execTimeSharedWaitExpiry (p : Fin 64) (s : State) : Host.Outcome State Fault Refusal :=
  .next (run (look fun s =>
    let served := match (s.pipe p.val).frame, (s.pipe p.val).line with
      | some f, _ => some (f.port, f.vc)
      | none, some l => some (l.port, l.vc)
      | none, none => none
    match served with
    | none => .skip
    | some (wn, wv) =>
      match leastBy (fun x => x.2.2.time * 4096 + s.steerIndex p.val x.1 x.2.1 * 64 + x.1)
          ((s.fronts p.val).filter fun x => !(x.1 = wn && x.2.1 = wv)) with
      | none => .skip
      | some (n, vc, _) => block [
          dropUnit p.val n vc,
          raiseLimited 4 0xB (nidPipe p.val) 0 fun k => [BitVec.ofNat 8 p.val, BitVec.ofNat 8 wn, BitVec.ofNat 8 wv] ++ leBytes 4 k]) s)

end Sys2Proof.Machine
end

