-- ==== Sys2Proof/Machine/PortCommands.lean ====
section
/-! DEFINITION. The camera-port commands, class 0x04, and the ends of equalizer work and eye scans (R193, R194, R199, R200, R207, R223,
R224), with the stale timeout and the flush of the queues (R432, R433). -/

namespace Sys2Proof.Machine
open Reg

/-- Does a command's port belong to its cluster (R224)? -/
def portParam (c : Ctx) : Option Nat := if portCluster (c.val 1) = c.cluster ∧ c.val 1 ≤ 55 then none else some 1

/-- The pipelines that the valid entries of a port name as a destination. -/
def State.destsOf (s : State) (n : Nat) : List Nat :=
  (((s.steers n).filter fun x => x.2.action < 2).map fun x => 8 * portCluster n + x.2.pipe).dedup

/-- Is a port bound to a pipeline of an admitted, or of a started, stream? -/
def State.portAdmitted (s : State) (n : Nat) : Bool := (s.destsOf n).any s.boundAdmitted
def State.portRunning (s : State) (n : Nat) : Bool := (s.destsOf n).any s.boundStarted

/-- RTX_TERM follows RTX_LIMIT and RTT (R196). -/
def rtxTerm (n : Nat) : Prog := look fun s => block [
  when (!s.on (Port.rtxEn n)) (set (Port.rtxActive n) 0),
  set (Port.rtxTerm n) (if s.on (Port.rtxActive n) then s.get (Port.rtxLimit n) * s.get (Port.rtt n) else 0)]

/-- Link start-up runs again without LINK_LOST (R194). -/
def portRestart (n : Nat) : Prog := look fun s => block [
  setPort n fun t => { t with lost := t.lost || s.get (Port.link n) = 2 },
  set (Port.link n) 1, set (Port.gear n) 0, set (Port.rate n) 0, set (Port.rtxActive n) 0, tunnelDown n]

/-- PORT_CONFIG (R194). -/
def specPortConfig : CmdSpec where
  cls := 4
  code := 1
  bound := 200
  levels := [.cluster]
  powers := true
  keys := [needAny 1 0 55, optAny 2 0 1, optAny 3 0 0xFFFF, optAny 4 0 2, raw 5 4 4 1 false, optAny 6 0 1, optAny 7 0 15]
  params := fun c s =>
    let n := c.val 1
    let mode := c.valD 2 (s.get (Port.modeF n))
    match portParam c with
    | some k => some k
    | none =>
      if c.has 3 && !(if n < 48 then 1 ≤ c.val 3 && c.val 3 ≤ 5 else 80 ≤ c.val 3 && c.val 3 ≤ (if mode = 1 then 6000 else 4500)) then some 3
      else if c.has 5 && ((List.range 3).any fun i => 5 < bits (c.val 5) (12 + 3 * i) 3) then some 5
      else if c.has 7 && 4 < bits (c.val 7) 1 3 then some 7 else none
  mode := fun c s => s.portAdmitted (c.val 1)
  effect := fun c => look fun s0 =>
    let n := c.val 1
    block [
      when (48 ≤ n) (setKey c 2 (Port.modeF n)),
      setKey c 3 (if n < 48 then Port.rateCap n else Port.comboRate n), setKey c 4 (Port.lanes n),
      when (c.has 5) (setReg (portBase n + 8) (BitVec.ofNat 32 (c.val 5))),
      setKey c 6 (Port.media n),
      when (c.has 7) (block [set (Port.rtxEn n) (c.val 7), set (Port.rtxLimit n) (c.val 7 / 2), rtxTerm n]),
      look fun s =>
        let phy := [Port.modeF n, Port.rateCap n, Port.lanes n, Port.media n, Port.comboRate n, Port.laneOrder n, Port.polarity n, Port.wireOrder n]
        when (s.on (Port.enable n) && phy.any fun f => s.get f ≠ s0.get f) (portRestart n)]

/-- A port is disabled. -/
def portOff (n : Nat) : Prog := block [
  set (Port.enable n) 0, setDomain (93 + n) false false, set (Port.link n) 0, set (Port.gear n) 0, set (Port.rate n) 0,
  set (Port.rtxActive n) 0, setPort n fun t => { t with attempts := 0, ref := none, lost := false }, tunnelDown n]

/-- PORT_ENABLE (R193): a port that starts completes with "link locked" or "start-up failed"; disabling one is complete at once. -/
def specPortEnable : CmdSpec where
  cls := 4
  code := 2
  bound := 50
  levels := [.cluster]
  powers := true
  keys := [needAny 1 0 55, needAny 8 0 1]
  params := fun c _ => portParam c
  mode := fun c s => s.portAdmitted (c.val 1)
  pends := some 30000
  past := fun _ _ => true
  undo := fun c => when (c.val 8 = 1) (portOff (c.val 1))
  effect := fun c => look fun s =>
    let n := c.val 1
    if c.val 8 = 1 then
      if s.on (Port.enable n) then finishKey 4 2 1 n (fun _ => .skip) 0
      else block [set (Port.enable n) 1, setDomain (93 + n) true false, set (Port.link n) 1,
        setPort n fun t => { t with attempts := 0, ref := none }]
    else block [portOff n, finishKey 4 2 1 n (fun _ => .skip) 0]

/-! Steering (R207). -/

/-- The entries of a table, as STEERING_SET gives it. -/
def steerList (bs : List Byte) : List Steer := (chunks 8 32 bs).map fun e => Steer.of (leAt e 0 4) (leAt e 4 4)

/-- The table that a STEERING_SET leaves, every entry in place. -/
def State.newSteers (s : State) (c : Ctx) : List Steer :=
  if c.has 0x10 then steerList (c.bytes 0x10) else (List.range 32).map (s.steer (c.val 1))

/-- The heads that feed pipeline k of a cluster under a new table of port n: port, VC, and whether a wait bound is 0. -/
def State.feeds (s : State) (n : Nat) (new : List Steer) (k : Nat) : List (Nat × Nat × Bool) :=
  let cl := portCluster n
  let of := fun (m : Nat) (es : List Steer) =>
    let mine := es.filter fun e => e.valid && e.action = 0 && e.pipe = k
    ((mine.map Steer.vc).dedup).map fun v => (m, v, mine.any fun e => e.vc = v && e.wait = 0)
  ((List.range 6).map (fun j => 6 * cl + j) ++ [48 + cl]).flatMap fun m =>
    of m (if m = n then new else (s.steers m).map Prod.snd)

/-- Does a table keep the rules of R207? -/
def State.steerOk (s : State) (n : Nat) (new : List Steer) : Bool :=
  let es := new.filter Steer.valid
  let user := fun (e : Steer) => 0x30 ≤ e.dt && e.dt < 0x38
  ((es.map fun e => (e.vc, e.dt)).dedup.length = es.length)
  && es.all (fun e => (e.action ≠ 0 || (inFmt e.dt).isSome || user e) && (e.action ≠ 1 || e.dt = 0x12) && e.action ≠ 3
      && !(e.action = 0 && user e && 5 ≤ e.pack))
  && (List.range 8).all fun k =>
    let f := s.feeds n new k
    f.length ≤ 1 || (f.length = 2 && !(f.any fun x => x.2.2))

/-- A second head on the spare of a cluster that has no valid one (R35). -/
def State.spareTwice (s : State) (n : Nat) (new : List Steer) : Bool :=
  let cl := portCluster n
  !s.on (Role.spareValid cl) && (s.feeds n new (s.get (Role.spareK cl))).length = 2

/-- Status 0x31 naming the spare term and the cluster (R35, Table 13-1). -/
def noSpare (cl : Nat) : Nat × List Tlv := (0x31, [tlv 0xF012 2 (0x0600 + cl)])

/-- BOUND_MASK and the stage-0 width of a cluster's pipelines follow its steering. -/
def rebind (cl : Nat) : Prog := look fun s => block [
  set (Role.bound cl) (sumNat ((List.range 8).map fun k => if (s.sourcesOf (8 * cl + k)).isEmpty then 0 else 2 ^ k)),
  forEach (List.range 8) fun k =>
    let p := 8 * cl + k
    let ws := (s.dtsOf p).filterMap fun d => (inFmt d).map InFmt.w
    block [when (!ws.isEmpty) (set (Corr.w p) (ws.foldl max 0)), updateLatency p]]

/-- STEERING_SET (R207, R209, R35). -/
def specSteeringSet : CmdSpec where
  cls := 4
  code := 3
  bound := 200
  levels := [.cluster]
  powers := true
  keys := [needAny 1 0 55, raw 0x10 256 256 1 false, raw 0x11 36 36 1 false]
  params := fun c s =>
    match portParam c with
    | some k => some k
    | none =>
      if !s.steerOk (c.val 1) (s.newSteers c) then some 0x10
      else if c.has 0x11 && ((c.elems 0x11 4).any (fun q => 2048 < leVal q) || 2048 < sumNat ((c.elems 0x11 4).map leVal)) then some 0x11 else none
  mode := fun c s =>
    let n := c.val 1
    let live := fun (e : Steer) => e.valid && e.action < 2 && s.boundStarted (8 * portCluster n + e.pipe)
    s.portAdmitted n || (numbered (s.newSteers c)).any fun e => e.1 ≠ s.steer n e.2 && (live e.1 || live (s.steer n e.2))
  late := fun c s => if s.spareTwice (c.val 1) (s.newSteers c) then some (noSpare c.cluster) else none
  effect := fun c =>
    let n := c.val 1
    block [
      when (c.has 0x10) (putWords (portBase n + 0x100) (c.bytes 0x10)),
      when (c.has 0x11) (putWords (portBase n + 0x200) (c.bytes 0x11)),
      rebind (portCluster n)]

/-! Framers (R223). -/

/-- FRAMER_SET. The flat-field spacing follows the geometry (Table 8-7). -/
def specFramerSet : CmdSpec where
  cls := 4
  code := 4
  bound := 100
  levels := [.pipeline]
  powers := true
  keys := [optAny 0x20 0 1, optAny 0x21 0 1, optAny 0x22 1 16384, optAny 0x23 1 65535, optAny 0x24 64 1048575, optAny 0x25 25 16777215]
  params := fun c s =>
    if c.valD 0x20 (s.get (Framer.area c.pipe)) = 1 ∧ 8192 < c.valD 0x22 (s.get (Framer.linePixels c.pipe)) then some 0x22 else none
  mode := fun c s => s.boundAdmitted c.pipe
  late := fun c s => alignFull (s.alignUse (c.pipe / 8) c.pipe (c.valD 0x22 (s.get (Framer.linePixels c.pipe)))
    (s.get (Reg.Col.modeF c.pipe)) (s.delaysOf c.pipe))
  effect := fun c =>
    let p := c.pipe
    let shift := fun (n lim cells : Nat) => ((List.range lim).find? fun k => ceilDiv n (2 ^ k) ≤ cells).getD lim
    block [
      setKey c 0x20 (Framer.area p), setKey c 0x21 (Framer.unpadded p), setKey c 0x22 (Framer.linePixels p), setKey c 0x23 (Framer.frameLines p),
      setKey c 0x24 (Framer.lineTimeout p), setKey c 0x25 (Framer.frameTimeout p),
      look fun s => block [
        set (Corr.sx p) (shift (s.get (Framer.linePixels p)) 7 64), set (Corr.sy p) (shift (s.get (Framer.frameLines p)) 10 64)],
      updateLatency p]

/-- PORT_STATUS. -/
def specPortStatus : CmdSpec where
  cls := 4
  code := 5
  bound := 50
  levels := [.cluster]
  powers := true
  changes := false
  keys := [needAny 1 0 55]
  params := fun c _ => portParam c
  results := fun c s => [⟨0x30, s.words (portBase (c.val 1) + 0x10) 5⟩, ⟨0x31, s.words (portBase (c.val 1) + 0x40) 11⟩]
  effect := fun _ => .skip

/-- FRAMER_STATUS. -/
def specFramerStatus : CmdSpec where
  cls := 4
  code := 6
  bound := 50
  levels := [.pipeline]
  powers := true
  changes := false
  keys := []
  results := fun c s => [⟨0x32, s.words (pipeBase c.pipe + 0x840) 11⟩]
  effect := fun _ => .skip

/-- CLEAR_PORT_COUNTERS: a cluster names the port; BUF_PEAK is the highest BUF_OCC since. -/
def specClearPortCounters : CmdSpec where
  cls := 4
  code := 7
  bound := 50
  levels := [.cluster, .pipeline]
  powers := true
  keys := [optAny 1 0 55]
  params := fun c _ => match c.tgt.kind with
    | .cluster _ => if c.has 1 then portParam c else some 1
    | _ => if c.has 1 then some 1 else none
  effect := fun c => match c.tgt.kind with
    | .cluster _ => look fun s => block [
        resetRegs (portBase (c.val 1) + 0x40) 44, set (Port.bufPeak (c.val 1)) (s.get (Port.bufOcc (c.val 1)))]
    | _ => resetRegs (pipeBase c.pipe + 0x840) 44

/-! Equalizers and eye scans (R199, R200). -/

/-- EQ_ADAPT: the port of a started stream refuses mode 1. -/
def specEqAdapt : CmdSpec where
  cls := 4
  code := 8
  bound := 50
  levels := [.cluster]
  powers := true
  keys := [needAny 1 0 55, needAny 0x40 0 1]
  params := fun c _ => portParam c
  mode := fun c s => c.val 0x40 = 1 && s.portRunning (c.val 1)
  pends := some 5000
  past := fun c _ => c.val 0x40 = 1
  effect := fun c => look fun s => when (c.val 0x40 = 1 && s.get (Port.link (c.val 1)) = 2) (portLose (c.val 1))

/-- EQ_ADAPT_DONE: the re-adaptation of a port that was started last ends. -/
def execEqAdaptDone (n : Fin 56) (s : State) : Host.Outcome State Fault Refusal :=
  .next (run (finishKey 4 8 1 n.val (fun e => block [
    when (e.val 0x40 = 1) (setFlag (Port.eqReadapt n.val)),
    raise 4 0x0C (nidCluster (portCluster n.val)) [BitVec.ofNat 8 n.val, BitVec.ofNat 8 (e.val 0x40)]]) 0) s)

/-- The bytes of an eye scan: three wire-pair differences for C-PHY. -/
def State.eyeBytes (s : State) (n : Nat) : Nat := if 48 ≤ n ∧ s.get (Port.modeF n) = 1 then 49152 else 16384

/-- EYE_SCAN: the lane or trio must be one of the port's. -/
def specEyeScan : CmdSpec where
  cls := 4
  code := 9
  bound := 50
  levels := [.cluster]
  powers := true
  changes := true
  keys := [needAny 1 0 55, needAny 0x41 0 3, needAny 0x42 20 30] ++ resultKeys
  denied := resultDenied
  params := fun c s =>
    match portParam c with
    | some k => some k
    | none =>
      let n := c.val 1
      let lanes := if n < 48 then 1 else if s.on (Port.modeF n) then s.get (Port.lanes n) + 1 else 2 ^ s.get (Port.lanes n)
      if lanes ≤ c.val 0x41 then some 0x41 else resultBad c
  mode := fun _ s => s.mode ≠ mMaintenance
  late := fun c s => resultFull c (s.eyeBytes (c.val 1))
  pends := some 60000000
  effect := fun _ => .skip

/-- EYE_SCAN_DONE: the error counts the scan found, row by row from the lowest voltage step. -/
def execEyeScanDone (n : Fin 56) (counts : List (BitVec 32)) (s : State) : Host.Outcome State Fault Refusal :=
  .next (run (look fun s =>
    let len := s.eyeBytes n.val
    finishKey 4 9 1 n.val (fun e => block [
      putResult e (slice (counts.flatMap fun w => leBytes 4 w.toNat) 0 len),
      raise 4 0x0D (nidCluster (portCluster n.val)) ([BitVec.ofNat 8 n.val, BitVec.ofNat 8 (e.val 0x41)] ++ leBytes 4 len)]) 0) s)

/-- GET_EQ: the settings are the port's own; the manual gives them no meaning, so each answer is a free value of sixteen bytes a lane. -/
def specGetEq : CmdSpec where
  cls := 4
  code := 0x0A
  bound := 50
  levels := [.cluster]
  powers := true
  changes := false
  keys := [needAny 1 0 55]
  params := fun c _ => portParam c
  results := fun c s =>
    let n := c.val 1
    let lanes := if n < 48 then 1 else if s.on (Port.modeF n) then s.get (Port.lanes n) + 1 else 2 ^ s.get (Port.lanes n)
    [⟨0x43, leBytes (16 * lanes) (Config.freeValue s.free)⟩]
  effect := fun _ => fresh fun _ => .skip

/-! Queues (R432, R433). -/

/-- The node that owns a queue (Table 13-7), and the pipelines whose lines pass it. -/
def queueOwner : QueueId → Nat
  | .port n _ => nidCluster (portCluster n.val)
  | .seam p => nidPipe p.val
  | .edge c _ => nidCluster c.val
  | .link c => nidCluster c.val
  | .side c => nidCluster c.val
  | .root _ => 1

/-- The queue's number in event 0x0B/0x07: sixteen times its row of Table 13-7 from 0, and its place in that row. -/
def queueCode : QueueId → Nat
  | .port _ q => q.val
  | .seam _ => 0x10
  | .edge _ d => 0x20 + boolNat d
  | .link _ => 0x30
  | .side _ => 0x40
  | .root c => 0x50 + c.val

/-- The streams whose path a queue is part of. -/
def State.queueStreams (s : State) (q : QueueId) : List Nat :=
  let ofCluster := fun (c : Nat) => allStreams.filter fun i => s.admitted i && (List.range 8).any fun k => (s.streamsOf (8 * c + k)).contains i
  match q with
  | .port n k => if k.val < 8 then s.streamsOf (8 * portCluster n.val + k.val) else ofCluster (portCluster n.val)
  | .seam p => s.streamsOf p.val
  | .edge c _ => ofCluster c.val
  | .link c => ofCluster c.val
  | .side c => ofCluster c.val
  | .root c => ofCluster c.val

/-- FLUSHES and STRANDED of a node. -/
def bumpQueue (nid flushes stranded : Nat) : Prog := dev fun d =>
  let old := Tbl.get (0, 0) d.qcounts nid
  { d with qcounts := Tbl.set (0, 0) d.qcounts nid (satNat (old.1 + flushes) 0xFFFFFFFFFFFFFFFF, satNat (old.2 + stranded) 0xFFFFFFFFFFFFFFFF) }

/-- QUEUE_STALE_TIMEOUT (R432, R446): a queue that holds a partial word unread; its tail is forced out, complete items only. The bytes
themselves stay in order, so what the consumer takes is unchanged. -/
def execQueueStaleTimeout (q : QueueId) (valid : Fin 4) (s : State) : Host.Outcome State Fault Refusal :=
  .next (run (look fun s =>
    let nid := queueOwner q
    let held := match q with | .port n k => !((s.port n.val).queue k.val).isEmpty | _ => true
    when held <| block [
      bumpQueue nid 0 1, countCorrected nid,
      forEach (s.queueStreams q) fun i => block [bump (Del.strandedCount i), setFlag (Del.stranded i)],
      raiseLimited 0x0B 7 nid 0 fun k => leBytes 2 nid ++ leBytes 1 (16 * valid.val) ++ leBytes 4 k]) s)

/-- A flush of one queue of a port: everything goes (R433). Packets enter whole, so no item is cut. -/
def flushPortQueue (n q : Nat) : Prog := 
  let nid := nidCluster (portCluster n)
  block [setQueue n q fun _ => [], noteOcc n, bumpQueue nid 1 0]

/-- Closing a stream flushes the queues of its pipelines (R443). -/
def flushStream (i : Nat) : Prog := look fun s =>
  let ps := (List.range 64).filter fun p => (s.streamsOf p) = [i]
  let qs := ps.flatMap fun p => (((s.sourcesOf p).map Prod.fst).dedup).map fun n => (n, p % 8)
  block [
    forEach qs fun x => flushPortQueue x.1 x.2,
    forEach ps fun p => block [setPipe p fun t => { t with line := none, frame := none, out := [] }, bumpQueue (nidPipe p) 1 0],
    bumpBy (Del.flushes i) (qs.length + ps.length)]

/-! The commands of this class. -/

def execPortConfig (m : MbId) (r : Req) (s : State) : Host.Outcome State Fault Refusal := runCommand specPortConfig m r s
def execPortEnable (m : MbId) (r : Req) (s : State) : Host.Outcome State Fault Refusal := runCommand specPortEnable m r s
def execSteeringSet (m : MbId) (r : Req) (s : State) : Host.Outcome State Fault Refusal := runCommand specSteeringSet m r s
def execFramerSet (m : MbId) (r : Req) (s : State) : Host.Outcome State Fault Refusal := runCommand specFramerSet m r s
def execPortStatus (m : MbId) (r : Req) (s : State) : Host.Outcome State Fault Refusal := runCommand specPortStatus m r s
def execFramerStatus (m : MbId) (r : Req) (s : State) : Host.Outcome State Fault Refusal := runCommand specFramerStatus m r s
def execClearPortCounters (m : MbId) (r : Req) (s : State) : Host.Outcome State Fault Refusal := runCommand specClearPortCounters m r s
def execEqAdapt (m : MbId) (r : Req) (s : State) : Host.Outcome State Fault Refusal := runCommand specEqAdapt m r s
def execEyeScan (m : MbId) (r : Req) (s : State) : Host.Outcome State Fault Refusal := runCommand specEyeScan m r s
def execGetEq (m : MbId) (r : Req) (s : State) : Host.Outcome State Fault Refusal := runCommand specGetEq m r s

end Sys2Proof.Machine
end

