-- ==== Sys2Proof/Machine/CorrCommands.lean ====
section
/-! DEFINITION. The correction commands, class 0x06: linearization, black levels, defects, gauge tables and swatch captures (R271 to R296). -/

namespace Sys2Proof.Machine
open Reg

/-! Values armed at an index for a list of pipelines (R286, R287, R312). -/

/-- Is a list of NIDs one of distinct pipelines of this device? -/
def State.listOk (s : State) (bs : List Byte) : Bool :=
  let ns := (chunks 2 bs.length bs).map leVal
  !ns.isEmpty && (nidPipes bs).dedup.length = ns.length
    && ns.all fun n => (n / 0x1000 = 0 || n / 0x1000 = s.dev.ownIndex) && 0x100 ≤ n % 0x1000 && n % 0x1000 < 0x140

/-- The started stream of a pipeline, if any. -/
def State.startedOf (s : State) (p : Nat) : Option Nat := (s.streamsOf p).find? fun i => s.sState i = sStarted

/-- The stream and index at which a change of a list of pipelines is armed: the earliest permitted for 0; at once without a started
stream. -/
def State.armAt (s : State) (ps : List Nat) (given : Nat) : Nat × Nat :=
  match s.startedOf (ps.headD 0) with
  | some i => (i, if given = 0 then s.earliestN i else given)
  | none => ((s.streamsOf (ps.headD 0)).headD 0xFF, 0)

/-- The index that is shown as pending. -/
def State.armShown (s : State) (ps : List Nat) (given : Nat) : Nat :=
  if (s.startedOf (ps.headD 0)).isSome then (s.armAt ps given).2 else given

/-- The checks of R287 on a list under key kl and an index under key kn. -/
def armParams (kl kn : Nat) (c : Ctx) (s : State) : Option Nat :=
  if !s.listOk (c.bytes kl) then some kl
  else match s.startedOf ((nidPipes (c.bytes kl)).headD 0) with
    | some i => if c.val kn ≠ 0 ∧ c.val kn < s.earliestN i then some kn else none
    | none => none

/-- Are the pipelines of a list not all bound to the same stream? -/
def armMode (kl : Nat) (c : Ctx) (s : State) : Bool :=
  let ps := nidPipes (c.bytes kl)
  ps.any fun p => s.streamsOf p ≠ s.streamsOf (ps.headD 0)

/-- Is a pipeline of a list in the other world? -/
def armDenied (kl : Nat) (c : Ctx) (s : State) : Bool := !s.mbS c.mb && (nidPipes (c.bytes kl)).any fun p => s.nodeS (nidPipe p)

/-- The wait of R593 for a change armed for a stage of a pipeline. -/
def State.armWait (s : State) (p st : Nat) : Option Nat :=
  ((s.pipe p).armed.find? fun a => a.stage = st).map fun a => match s.startedOf p with
    | some i => max 1 (ceilDiv ((a.n + 1 - s.next i) * s.get (Trig.minPeriod i)) 1000)
    | none => 0xFFFFFFFF

/-- The wait for a command pending on a pipeline of a list. -/
def armClash (kl : Nat) (c : Ctx) (s : State) : Option Nat :=
  (nidPipes (c.bytes kl)).findSome? fun p => (s.clash (nidPipe p)).map fun e => waitLeft s e.due

/-- Arming words of a stage for every pipeline of a list. -/
def armAll (kl kn st : Nat) (words : Nat → List (Nat × Nat)) (show_ : Nat → Nat → Prog) (c : Ctx) : Prog := look fun s =>
  let ps := nidPipes (c.bytes kl)
  block [
    forEach ps powerPipe,
    forEach ps fun p => block [
      setPipe p fun t => { t with armed := t.armed ++ [⟨st, (s.armAt ps (c.val kn)).2, words p⟩] }, show_ p (s.armShown ps (c.val kn))]]

/-- Taking the armed values of a stage back. -/
def disarmAll (kl st : Nat) (clear : Nat → Prog) (c : Ctx) : Prog :=
  forEach (nidPipes (c.bytes kl)) fun p => block [setPipe p fun t => { t with armed := t.armed.filter fun a => a.stage ≠ st }, clear p]

/-- Has any pipeline of a list passed N? -/
def armPast (kl st : Nat) (c : Ctx) (s : State) : Bool := (nidPipes (c.bytes kl)).any fun p => !s.armedFor p st

/-! Linearization, black levels, defects, shading. -/

/-- Do the data types steered to a pipeline include one with three components (R272, R300)? -/
def State.threeSteered (s : State) (p : Nat) : Bool :=
  (s.dtsOf p).any fun d => match inFmt d with | some f => f.comps == 3 | none => false

/-- The knots that a LIN_SET leaves: those given, or those in place. -/
def State.knots (s : State) (c : Ctx) : List (Nat × Nat) :=
  if c.has 2 then (List.range 33).map fun i => (c.at 2 (8 * i) 4, c.at 2 (8 * i + 4) 2)
  else (List.range 33).map fun i => (s.get (Corr.linX c.pipe i), s.get (Corr.linY c.pipe i))

/-- Do knots keep the rules of R274 for a width? -/
def knotsOk (w : Nat) (ks : List (Nat × Nat)) : Bool :=
  (ks.headD (1, 0)).1 = 0 && (ks.zip (ks.drop 1)).all (fun x => x.1.1 < x.2.1) && (ks.getLastD (0, 0)).1 < 2 ^ w

/-- LIN_SET (R274). -/
def specLinSet : CmdSpec where
  cls := 6
  code := 1
  bound := 100
  levels := [.pipeline]
  powers := true
  keys := [optAny 1 0 1, raw 2 264 264 1 false]
  params := fun c s =>
    let w := if s.get (Corr.w c.pipe) = 0 then 20 else s.get (Corr.w c.pipe)
    let pad := (List.range 33).any fun i => c.at 2 (8 * i + 6) 2 ≠ 0
    if (c.has 2 || c.valD 1 (s.get (Corr.linEn c.pipe)) = 1) && (pad || !knotsOk w (s.knots c)) then some 2 else none
  mode := fun c s => s.boundAdmitted c.pipe
  effect := fun c => look fun s =>
    let p := c.pipe
    let ks := s.knots c
    block [
      setKey c 1 (Corr.linEn p),
      when (c.has 2) (block [
        forEach (numbered ks) fun k => block [set (Corr.linX p k.2) k.1.1, set (Corr.linY p k.2) k.1.2],
        forEach (numbered (ks.zip (ks.drop 1))) fun k =>
          let m := unsigned 40 (knotSlope k.1.1 k.1.2)
          block [set (Corr.linSLo p k.2) m, set (Corr.linSHi p k.2) (m / 0x100000000)]])]

/-- BLACK_SET (R271). -/
def specBlackSet : CmdSpec where
  cls := 6
  code := 2
  bound := 100
  levels := [.pipeline]
  powers := true
  keys := [raw 0x10 3 3 1 false, raw 0x11 2 2 1 false, raw 0x12 8 8 1 false, optAny 0x13 0 1]
  params := fun c s =>
    let p := c.pipe
    let xp := if c.has 0x10 then c.at 0x10 0 1 else s.get (Corr.xpM1 p) + 1
    let yp := if c.has 0x10 then c.at 0x10 1 1 else s.get (Corr.ypM1 p) + 1
    let nch := if c.has 0x10 then c.at 0x10 2 1 else s.get (Corr.numChM1 p) + 1
    let cm := c.valD 0x11 (s.get (Corr.chMap p))
    if xp < 1 ∨ 4 < xp ∨ yp < 1 ∨ 2 < yp ∨ nch < 1 ∨ 4 < nch ∨ (yp = 2 ∧ !s.on (Framer.area p)) then some 0x10
    else if (List.range (xp * yp)).any fun i => nch ≤ bits cm (2 * i) 2 then some 0x11
    else if c.has 0x13 && c.val 0x13 = 0 && s.threeSteered p then some 0x13 else none
  mode := fun c s => s.boundAdmitted c.pipe
  effect := fun c =>
    let p := c.pipe
    block [
      when (c.has 0x10) (block [set (Corr.xpM1 p) (c.at 0x10 0 1 - 1), set (Corr.ypM1 p) (c.at 0x10 1 1 - 1), set (Corr.numChM1 p) (c.at 0x10 2 1 - 1)]),
      setKey c 0x11 (Corr.chMap p), when (c.has 0x12) (putWords (pipeBase p + 0x1004) (c.bytes 0x12)),
      setKey c 0x13 (Corr.bypass p), updateLatency p]

/-- DEFECT_SET (R278). -/
def specDefectSet : CmdSpec where
  cls := 6
  code := 3
  bound := 100
  levels := [.pipeline]
  powers := true
  keys := [optAny 0x20 0 15, optAny 0x21 0 65535]
  params := fun c s => if c.has 0x20 && c.val 0x20 % 2 = 0 && s.threeSteered c.pipe then some 0x20 else none
  mode := fun c s => s.boundAdmitted c.pipe
  effect := fun c =>
    let p := c.pipe
    block [
      when (c.has 0x20) (block [set (Corr.bypass2 p) (c.val 0x20), set (Corr.staticEn p) (c.val 0x20 / 2), set (Corr.hotEn p) (c.val 0x20 / 4),
        set (Corr.coldEn p) (c.val 0x20 / 8)]),
      setKey c 0x21 (Corr.dynThresh p), updateLatency p]

/-- FLAT_SET (R280). -/
def specFlatSet : CmdSpec where
  cls := 6
  code := 4
  bound := 50
  levels := [.pipeline]
  powers := true
  keys := [needAny 0x30 0 1]
  params := fun c s => if c.val 0x30 = 0 && s.threeSteered c.pipe then some 0x30 else none
  mode := fun c s => s.boundAdmitted c.pipe
  effect := fun c => block [set (Corr.bypass3 c.pipe) (c.val 0x30), updateLatency c.pipe]

/-! Gauge banks (R283 to R287). -/

/-- The bank that is not Active. -/
def State.spareBank (s : State) (p : Nat) : Nat := 1 - s.get (Corr.active p)

/-- May a bank be loaded? -/
def State.loadable (s : State) (p b : Nat) : Bool := s.get (bankState p b) < 2

/-- Is a static map of n entries sorted by (Y, X) without duplicates, with Y 0 on a line-scan pipeline (R279)? -/
def mapOk (area : Bool) (n : Nat) (bs : List Byte) : Bool :=
  let es := (List.range n).map fun k => leAt bs (4 * k) 4
  let at_ := fun (e : Nat) => bits e 14 16 * 0x4000 + bits e 0 14
  (es.zip (es.drop 1)).all (fun x => at_ x.1 < at_ x.2) && es.all fun e => area || bits e 14 16 = 0

/-- A bank takes its tables: it is Loaded with its CRC. -/
def fillBank (p b count : Nat) (gauge map_ : List Byte) : Prog := block [
  store (gaugeBase p b) gauge, store (mapBase p b) map_,
  set (bankState p b) 1, set (Corr.staticCountIn p) count, look fun s => set (crcReg p b) (s.bankCrc p b)]

/-- GAUGE_LOAD (R285): firmware keeps its copy of the region and the bank that is inactive now. -/
def specGaugeLoad : CmdSpec where
  cls := 6
  code := 5
  bound := 50
  levels := [.pipeline]
  powers := true
  keys := [needAny 0x31 1 3, optAny 0x33 0 1024] ++ stagingKeys
  denied := fun c s => regionDenied c s 0xF001 0xF002
  params := fun c _ =>
    match regionBad c 0xF001 0xF002 with
    | some k => some k
    | none =>
      if 2 ≤ c.val 0x31 ∧ !c.has 0x33 then some 0x33
      else if c.val 0xF002 ≠ 65536 + (if 2 ≤ c.val 0x31 then 4096 else 0) then some 0xF002 else none
  mode := fun c s => !s.loadable c.pipe (s.spareBank c.pipe)
  late := fun c s => if stagedOk c s then none else some (0x15, [])
  final := fun c s =>
    if 2 ≤ c.val 0x31 && !mapOk (s.on (Framer.area c.pipe)) (c.val 0x33) ((staged c s).drop 65536) then some (0x12, [tlv 0xF010 2 0x33]) else none
  effect := fun c => look fun s => keepParts c [staged c s, leBytes 1 (s.spareBank c.pipe)]
  pends := some 5000

/-- GAUGE_LOAD_DONE (R279, R285). -/
def execGaugeLoadDone (p : Fin 64) (s : State) : Host.Outcome State Fault Refusal :=
  .next (run (finishCtx 6 5 (nidPipe p.val)
    (fun c s =>
      if !s.loadable p.val (leVal (c.kept s 1)) then some (0x21, [])
      else if 2 ≤ c.val 0x31 && !mapOk (s.on (Framer.area p.val)) (c.val 0x33) ((c.kept s 0).drop 65536) then some (0x12, [tlv 0xF010 2 0x33])
      else none)
    (fun c _ => look fun s =>
      let b := leVal (c.kept s 1)
      let a := s.get (Corr.active p.val)
      block [
        fillBank p.val b (if 2 ≤ c.val 0x31 then c.val 0x33 else s.get (Corr.staticCount p.val))
          (if c.val 0x31 % 2 = 1 then (c.kept s 0).take 65536 else s.bytes (gaugeBase p.val a) 0x10000)
          (if 2 ≤ c.val 0x31 then (c.kept s 0).drop 65536 else s.bytes (mapBase p.val a) 0x1000),
        look fun s => raiseStage 6 1 (nidPipe p.val) 3 (leBytes 1 b ++ leBytes 4 (s.get (crcReg p.val b)))])) s)

/-- Showing a pending gauge swap. -/
def showSwap (p n : Nat) : Prog := block [set (Corr.swapPending p) 1, set (Corr.swapIndexLo p) n, set (Corr.swapIndexHi p) (n / 0x100000000)]
def hideSwap (p : Nat) : Prog := block [set (Corr.swapPending p) 0, set (Corr.swapIndexLo p) 0, set (Corr.swapIndexHi p) 0]

/-- GAUGE_SWAP (R286, R287). -/
def specGaugeSwap : CmdSpec where
  cls := 6
  code := 6
  bound := 300
  levels := [.device]
  keys := [raw 0x40 2 128 2 true, need 0x41 8 0 0xFFFFFFFFFFFF]
  denied := armDenied 0x40
  params := armParams 0x40 0x41
  mode := fun c s => armMode 0x40 c s || (nidPipes (c.bytes 0x40)).any fun p => s.get (bankState p (s.spareBank p)) ≠ 1
  busy := fun c s => (armClash 0x40 c s).orElse fun _ => (nidPipes (c.bytes 0x40)).findSome? fun p =>
    (s.armWait p 3).orElse fun _ => if s.get (Corr.state p) = 1 then some 0xFFFFFFFF else none
  node := fun _ => 0x20600
  effect := armAll 0x40 0x41 3 (fun _ => []) showSwap
  arms := fun c s => some (s.armAt (nidPipes (c.bytes 0x40)) (c.val 0x41))
  past := armPast 0x40 3
  undo := disarmAll 0x40 3 hideSwap

/-- GAUGE_READ: the bank's 69,632 bytes. -/
def specGaugeRead : CmdSpec where
  cls := 6
  code := 7
  bound := 50
  levels := [.pipeline]
  powers := true
  keys := need 0x42 1 0 1 :: resultKeys
  denied := resultDenied
  params := fun c _ => resultBad c
  late := fun c _ => resultFull c 69632
  effect := fun _ => .skip
  pends := some 5000

/-- GAUGE_READ_DONE. -/
def execGaugeReadDone (p : Fin 64) (s : State) : Host.Outcome State Fault Refusal :=
  .next (run (finishCtx 6 7 (nidPipe p.val) (fun _ _ => none) fun c e => look fun s =>
    putResult e (s.bankBytes p.val (c.val 0x42))) s)

/-! Swatch capture (R288 to R291). -/

/-- The pipeline of a cluster that holds the accumulator, and whether it is capturing. -/
def State.swatchOwner (s : State) (c : Nat) : Option Nat := ((List.range 8).map fun k => 8 * c + k).find? fun p => (s.pipe p).owns

/-- SWATCH_START. -/
def specSwatchStart : CmdSpec where
  cls := 6
  code := 8
  bound := 200
  levels := [.pipeline]
  powers := true
  keys := [needAny 0x50 0 1, needAny 0x51 0 1, need 0x57 4 1 65536]
  params := fun c s => if s.threeSteered c.pipe then some 0x50 else none
  mode := fun c s => (s.mode ≠ mArmed && s.mode ≠ mAcquire) || s.get (Node.state (nidPipe c.pipe)) = stRetired
  late := fun c s =>
    match s.swatchOwner (c.pipe / 8) with
    | some q => if q ≠ c.pipe ∧ s.get (Corr.state q) = 1 then some (0x30, [tlv 0xF013 2 (nidPipe q), tlv 0xF014 4 0xFFFFFFFF])
        else (s.armWait c.pipe 3).map fun w => (0x30, [tlv 0xF014 4 w])
    | none => (s.armWait c.pipe 3).map fun w => (0x30, [tlv 0xF014 4 w])
  effect := fun c =>
    let p := c.pipe
    block [
      clearMem (swatchBase (p / 8)) 0x20000, eccMend (swatchBase (p / 8)) 0x20000,
      forEach (List.range 8) fun k => setPipe (8 * (p / 8) + k) fun t => { t with owns := 8 * (p / 8) + k = p },
      set (Corr.state p) 1, set (Corr.tap p) (c.val 0x50), set (Corr.kind p) (c.val 0x51), set (Corr.targetLines p) (c.val 0x57),
      set (Corr.used p) 0, set (Corr.skipped p) 0,
      look fun s => setPipe p fun t => { t with swatch := if s.get (Node.state (nidPipe p)) = stCalibrating then 0 else 1, capture := [] }]

/-- SWATCH_ABORT. -/
def specSwatchAbort : CmdSpec where
  cls := 6
  code := 9
  bound := 200
  levels := [.pipeline]
  powers := true
  keys := []
  effect := fun c => look fun s =>
    let p := c.pipe
    when (s.get (Corr.state p) = 1) (block [
      set (Corr.state p) 3,
      setPipe p fun t => { t with swatch := if s.get (Node.state (nidPipe p)) = stCalibrating then 2 else 0, capture := [] },
      raiseStage 6 4 (nidPipe p) 10 (leBytes 4 (s.get (Corr.used p)) ++ leBytes 4 (s.get (Corr.skipped p)))])

/-- SWATCH_READ: the 128 KiB of the accumulator; the response of 0x01 names the capturing pipeline. -/
def specSwatchRead : CmdSpec where
  cls := 6
  code := 0x0A
  bound := 50
  levels := [.cluster]
  powers := true
  keys := resultKeys
  denied := resultDenied
  params := fun c _ => resultBad c
  late := fun c _ => resultFull c 131072
  early := fun c s => match s.swatchOwner c.cluster with | some p => [tlv 0xF013 2 (nidPipe p)] | none => []
  effect := fun _ => .skip
  pends := some 5000

/-- SWATCH_READ_DONE. -/
def execSwatchReadDone (c : Fin 8) (s : State) : Host.Outcome State Fault Refusal :=
  .next (run (finishCtx 6 0x0A (nidCluster c.val) (fun _ _ => none) fun _ e => look fun s =>
    putResult e (s.bytes (swatchBase c.val) 0x20000)) s)

/-! Standard tables (R292 to R294). -/

/-- A sum of the accumulator, and a mean of it over USED lines or frames. -/
def State.swatchSum (s : State) (p off : Nat) : Nat := leVal (s.bytes (swatchBase (p / 8) + off) 4)
def State.swatchMean (s : State) (p off : Nat) : Int := roundHalfUp (s.swatchSum p off : Nat) (s.get (Corr.used p))

/-- The dark offsets of R292. -/
def State.darkTable (s : State) (p : Nat) : List Int :=
  let c := s.pixCfg p none 0
  (List.range c.pixels).map fun x =>
    let bl := fun (y : Nat) => c.bl.getD (c.ch x y) 0
    let blc : Int := if c.area ∧ c.yp = 2 then roundHalfUp (bl 0 + bl 1 : Nat) 2 else (bl 0 : Nat)
    sat (s.swatchMean p (4 * x) - blc) (-32768) 32767

/-- The round_half_up mean of a list of responses. -/
def meanZ (l : List Int) : Int := if l.isEmpty then 0 else roundHalfUp (l.foldl (· + ·) 0) l.length

/-- The responses of R293, each with the channel it belongs to and where its gain stands in the bank; none where a node has no cell. -/
def State.responses (s : State) (p : Nat) : List (Nat × Nat × Option Int) :=
  let c := s.pixCfg p none 0
  if !c.area then (List.range c.pixels).map fun x => (c.ch x 0, 4 * x + 2, some (s.swatchMean p (4 * x)))
  else
    let nx := ceilDiv c.pixels (2 ^ c.sx)
    let ny := ceilDiv c.lines (2 ^ c.sy)
    (List.range c.numCh).flatMap fun ch => (List.range 65).flatMap fun j => (List.range 65).map fun i =>
      let cells := [(i - 1, j - 1), (i, j - 1), (i - 1, j), (i, j)].dedup.filter fun q => q.1 < nx && q.2 < ny && q.1 + 1 ≥ i && q.2 + 1 ≥ j
      (ch, 0x4000 + 0x2200 * ch + 2 * (65 * j + i),
        if cells.isEmpty then none else some (meanZ (cells.map fun q => s.swatchMean p (0x8000 + ((64 * ch + q.2) * 64 + q.1) * 4))))

/-- A gain and whether GAIN_MAX limited it. -/
def flatGain (t r : Int) (gmax : Nat) : Nat × Bool :=
  if r = 0 then (gmax, true)
  else
    let g := roundHalfUp (t * 16384) r.toNat
    if (gmax : Int) < g then (gmax, true) else (g.toNat, false)

/-- Replacing the 16-bit words of a bank. -/
def patch16 (bank : List Byte) (ws : List (Nat × Nat)) : List Byte :=
  ws.foldl (fun b w => (b.set w.1 (BitVec.ofNat 8 w.2)).set (w.1 + 1) (BitVec.ofNat 8 (w.2 / 256))) bank

/-- A static map of n entries with columns of a line-scan pipeline added in order: the entries, and the columns without room. -/
def addDefects (es : List Nat) : List Nat → List Nat × List Nat
  | [] => (es, [])
  | x :: xs =>
    if es.contains x then addDefects es xs
    else if 1024 ≤ es.length then ((addDefects es xs).1, x :: (addDefects es xs).2)
    else addDefects ((es.filter (· < x)) ++ [x] ++ es.filter (x < ·)) xs

/-- What GAUGE_COMPUTE forms: the gauge bank, the map's entries, how many gains were limited, and the columns without room. -/
def State.computed (s : State) (c : Ctx) : List Byte × List Nat × Nat × List Nat :=
  let p := c.pipe
  let a := s.get (Corr.active p)
  let bank := s.bytes (gaugeBase p a) 0x10000
  let map_ := (List.range (s.get (Corr.staticCount p))).map fun k => leVal (s.bytes (mapBase p a + 4 * k) 4)
  let area := s.on (Framer.area p)
  if c.val 0x58 = 0 then
    (patch16 bank ((numbered (s.darkTable p)).map fun d => ((if area then 2 else 4) * d.2, unsigned 16 d.1)), map_, 0, [])
  else
    let rs := s.responses p
    let target := fun (ch : Nat) => if c.val 0x52 ≠ 0 then (c.val 0x52 : Int) else meanZ ((rs.filter fun r => r.1 = ch).filterMap fun r => r.2.2)
    let gs := rs.map fun r => (r.2.1, match r.2.2 with | some v => flatGain (target r.1) v (c.valD 0x53 0xFFFF) | none => (0x4000, false))
    let bad := (gs.filter fun g => g.2.2).map fun g => g.1 / 4
    let m := if c.val 0x54 = 1 ∧ !area then addDefects map_ bad else (map_, [])
    (patch16 bank (gs.map fun g => (g.1, g.2.1)), m.1, bad.length, m.2)

/-- The results of R594: 0x0055 the gains limited, 0x0056 the columns without room (2 B each). -/
def computeResults (limited : Nat) (left : List Nat) : List Tlv := [tlv 0x55 4 limited, ⟨0x56, left.flatMap fun x => leBytes 2 x⟩]

/-- GAUGE_COMPUTE (R292, R293). -/
def specGaugeCompute : CmdSpec where
  cls := 6
  code := 0x0B
  bound := 50
  levels := [.pipeline]
  powers := true
  keys := [needAny 0x58 0 1, optAny 0x52 0 65535, optAny 0x53 0 65535, optAny 0x54 0 1] ++ resultKeys
  denied := resultDenied
  params := fun c _ => resultBad c
  mode := fun c s => !s.loadable c.pipe (s.spareBank c.pipe)
    || !((s.pipe c.pipe).owns && s.get (Corr.state c.pipe) = 2 && s.get (Corr.tap c.pipe) = c.val 0x58)
  late := fun c s =>
    let n := 12 + (if c.val 0x58 = 1 ∧ c.val 0x54 = 1 ∧ !s.on (Framer.area c.pipe) then (2 * s.get (Framer.linePixels c.pipe) + 3) / 4 * 4 else 0)
    if c.has 0xF004 then resultFull c n else none
  results := fun c s => computeResults (s.computed c).2.2.1 (s.computed c).2.2.2
  effect := fun c => look fun s => keepParts c [leBytes 1 (s.spareBank c.pipe)]
  pends := some 20000

/-- GAUGE_COMPUTE_DONE (R294). -/
def execGaugeComputeDone (p : Fin 64) (s : State) : Host.Outcome State Fault Refusal :=
  .next (run (finishCtx 6 0x0B (nidPipe p.val)
    (fun c s => if s.loadable p.val (leVal (c.kept s 0)) && (s.pipe p.val).owns && s.get (Corr.state p.val) = 2 then none else some (0x21, []))
    (fun c e => look fun s =>
      let r := s.computed c
      let b := leVal (c.kept s 0)
      block [
        fillBank p.val b r.2.1.length r.1 (slice (r.2.1.flatMap fun x => leBytes 4 x) 0 4096),
        putResult e (tlvBytes (computeResults r.2.2.1 r.2.2.2)),
        raiseStage 6 6 (nidPipe p.val) 3 (leBytes 1 (c.val 0x58) ++ leBytes 1 b ++ leBytes 4 r.2.2.1 ++ leBytes 4 r.2.2.2.length)])) s)

/-- CORR_STATUS. -/
def specCorrStatus : CmdSpec where
  cls := 6
  code := 0x0C
  bound := 50
  levels := [.pipeline]
  powers := true
  changes := false
  keys := []
  results := fun c s =>
    let b := pipeBase c.pipe
    [⟨0x60, s.words (b + 0x1040) 1 ++ s.words (b + 0x2040) 4 ++ s.words (b + 0x3040) 1⟩, ⟨0x61, s.words (b + 0x3010) 8⟩]
  effect := fun _ => .skip

/-! The commands of this class. -/

def execLinSet (m : MbId) (r : Req) (s : State) : Host.Outcome State Fault Refusal := runCommand specLinSet m r s
def execBlackSet (m : MbId) (r : Req) (s : State) : Host.Outcome State Fault Refusal := runCommand specBlackSet m r s
def execDefectSet (m : MbId) (r : Req) (s : State) : Host.Outcome State Fault Refusal := runCommand specDefectSet m r s
def execFlatSet (m : MbId) (r : Req) (s : State) : Host.Outcome State Fault Refusal := runCommand specFlatSet m r s
def execGaugeLoad (m : MbId) (r : Req) (s : State) : Host.Outcome State Fault Refusal := runCommand specGaugeLoad m r s
def execGaugeSwap (m : MbId) (r : Req) (s : State) : Host.Outcome State Fault Refusal := runCommand specGaugeSwap m r s
def execGaugeRead (m : MbId) (r : Req) (s : State) : Host.Outcome State Fault Refusal := runCommand specGaugeRead m r s
def execSwatchStart (m : MbId) (r : Req) (s : State) : Host.Outcome State Fault Refusal := runCommand specSwatchStart m r s
def execSwatchAbort (m : MbId) (r : Req) (s : State) : Host.Outcome State Fault Refusal := runCommand specSwatchAbort m r s
def execSwatchRead (m : MbId) (r : Req) (s : State) : Host.Outcome State Fault Refusal := runCommand specSwatchRead m r s
def execGaugeCompute (m : MbId) (r : Req) (s : State) : Host.Outcome State Fault Refusal := runCommand specGaugeCompute m r s
def execCorrStatus (m : MbId) (r : Req) (s : State) : Host.Outcome State Fault Refusal := runCommand specCorrStatus m r s

end Sys2Proof.Machine
end

