-- ==== Sys2Proof/Machine/ColourCommands.lean ====
section
/-! DEFINITION. The colour and statistics commands, class 0x07, and the screen commands, class 0x08 (R298 to R319, R327 to R339). -/

namespace Sys2Proof.Machine
open Reg

/-- The register words that keys of a request give: address and value. -/
def keyWords (c : Ctx) (k a : Nat) : List (Nat × Nat) :=
  (numbered (c.elems k 4)).map fun e => (a + 4 * e.2, leVal e.1)

/-- Is a pipeline's path three-component (R298)? -/
def State.threePath (s : State) (p : Nat) : Bool := s.threeSteered p || s.get (Reg.Col.modeF p) ≠ 0

/-- Showing and hiding a pending colour change. -/
def showUpdate (p n : Nat) : Prog := block [
  set (Reg.Col.updatePending p) 1, set (Reg.Col.updateIndexLo p) n, set (Reg.Col.updateIndexHi p) (n / 0x100000000)]
def hideUpdate (p : Nat) : Prog := block [
  set (Reg.Col.updatePending p) 0, set (Reg.Col.updateIndexLo p) 0, set (Reg.Col.updateIndexHi p) 0]

/-- A colour change pending on a pipeline of a list, or a command pending there. -/
def colourBusy (c : Ctx) (s : State) : Option Nat := (armClash 1 c s).orElse fun _ =>
  (nidPipes (c.bytes 1)).findSome? fun p => (s.armWait p 4).orElse fun _ => s.armWait p 6

/-- WB_SET (R301, R312). -/
def specWbSet : CmdSpec where
  cls := 7
  code := 1
  bound := 300
  levels := [.device]
  keys := [raw 1 2 128 2 true, raw 2 8 8 1 false, optAny 3 0 1, need 4 8 0 0xFFFFFFFFFFFF]
  denied := armDenied 1
  params := fun c s => (armParams 1 4 c s).orElse fun _ =>
    if c.has 3 && c.val 3 = 0 && (nidPipes (c.bytes 1)).any s.threeSteered then some 3 else none
  mode := armMode 1
  busy := colourBusy
  node := fun _ => 0x20701
  effect := fun c => armAll 1 4 4
    (fun p => keyWords c 2 (pipeBase p + 0x4004) ++ (if c.has 3 then [(pipeBase p + 0x4000, c.val 3)] else [])) showUpdate c
  arms := fun c s => some (s.armAt (nidPipes (c.bytes 1)) (c.val 4))
  past := armPast 1 4
  undo := disarmAll 1 4 hideUpdate

/-- The colours of phases 0 to n − 1 under a COLOUR value. -/
def State.phaseColours (s : State) (p colour n : Nat) : List Nat :=
  (List.range n).map fun k => bits colour (2 * bits (s.get (Corr.chMap p)) (2 * k) 2) 2

/-- Does a pipeline's geometry meet the requirements of a mode (Table 9-1)? -/
def State.modeOk (s : State) (p mode colour : Nat) : Bool :=
  let xp := s.get (Corr.xpM1 p) + 1
  let yp := s.get (Corr.ypM1 p) + 1
  let px := s.get (Framer.linePixels p)
  let area := s.on (Framer.area p)
  let ph := s.phaseColours p colour
  if mode = 0 then true
  else if s.threeSteered p then false
  else if mode = 1 then
    area && xp = 2 && yp = 2 && 4 ≤ px && 4 ≤ s.get (Framer.frameLines p)
      && [[1, 0, 2, 1], [1, 2, 0, 1], [0, 1, 1, 2], [2, 1, 1, 0]].contains (ph 4)
  else if mode = 2 then
    !area && xp = 4 && yp = 1 && 8 ≤ px && [[1, 0, 1, 2], [0, 1, 2, 1], [1, 2, 1, 0], [2, 1, 0, 1]].contains (ph 4)
  else
    !area && (xp = 3 || xp = 4) && yp = 1 && (ph xp).count 0 = 1 && (ph xp).count 2 = 1 && px % xp = 0
      && (((s.sourcesOf p).map fun x => (x.1, x.2.1)).dedup.length ≤ 1)

/-- DEMOSAIC_SET (R302, R307, R308). -/
def specDemosaicSet : CmdSpec where
  cls := 7
  code := 2
  bound := 100
  levels := [.pipeline]
  powers := true
  keys := [optAny 0x10 0 3, optAny 0x11 0 255, optAny 0x12 0 65535]
  params := fun c s =>
    let p := c.pipe
    let colour := c.valD 0x11 (s.get (Reg.Col.colour p))
    if (List.range 4).any fun k => bits colour (2 * k) 2 = 3 then some 0x11
    else if s.modeOk p (c.valD 0x10 (s.get (Reg.Col.modeF p))) colour then none else some 0x10
  mode := fun c s => s.boundAdmitted c.pipe
  late := fun c s => alignFull (s.alignUse (c.pipe / 8) c.pipe (s.get (Framer.linePixels c.pipe))
    (c.valD 0x10 (s.get (Reg.Col.modeF c.pipe))) (s.delaysOf c.pipe))
  effect := fun c =>
    let p := c.pipe
    block [
      setKey c 0x10 (Reg.Col.modeF p), setKey c 0x11 (Reg.Col.colour p), setKey c 0x12 (Reg.Col.edgeT p),
      look fun s => when (!s.threePath p) (set (Reg.Col.bypass6000 p) 1), updateLatency p]

/-- The stream whose head entries name a pipeline, admitted or not: the lowest. -/
def State.streamFor (s : State) (p : Nat) : Option Nat := allStreams.find? fun i => (s.heads i).any fun h => s.pipeOf i h = some p

/-- The delays that an ALIGN_SET gives: D[k], or round_half_up(SPACING_k × 2^16 / P). -/
def State.newDelays (s : State) (c : Ctx) : List Nat :=
  if c.has 0x20 then (c.elems 0x20 1).map leVal
  else match s.streamFor c.pipe with
    | some i => if s.pitch i = 0 then [64] else (c.elems 0x21 4).map fun v => (roundHalfUp (leVal v * 0x10000 : Nat) (s.pitch i)).toNat
    | none => [64]

/-- ALIGN_SET (R306, R307). -/
def specAlignSet : CmdSpec where
  cls := 7
  code := 3
  bound := 200
  levels := [.pipeline]
  powers := true
  keys := [raw 0x20 4 4 1 false, raw 0x21 16 16 1 false]
  params := fun c s =>
    if c.has 0x20 && c.has 0x21 then some 0x21
    else if !c.has 0x20 && !c.has 0x21 then some 0x20
    else if (s.newDelays c).any fun d => 63 < d then some (if c.has 0x20 then 0x20 else 0x21) else none
  mode := fun c s => s.boundAdmitted c.pipe
  late := fun c s => alignFull (s.alignUse (c.pipe / 8) c.pipe (s.get (Framer.linePixels c.pipe)) (s.get (Reg.Col.modeF c.pipe)) (s.newDelays c))
  effect := fun c => look fun s =>
    let ds := s.newDelays c
    block [set (Reg.Col.d0 c.pipe) (ds.getD 0 0), set (Reg.Col.d1 c.pipe) (ds.getD 1 0), set (Reg.Col.d2 c.pipe) (ds.getD 2 0),
      set (Reg.Col.d3 c.pipe) (ds.getD 3 0)]

/-- MATRIX_SET (R308, R309, R312). -/
def specMatrixSet : CmdSpec where
  cls := 7
  code := 4
  bound := 300
  levels := [.device]
  keys := [raw 1 2 128 2 true, raw 0x10 18 18 1 false, raw 0x11 12 12 1 false, raw 0x13 6 6 1 false, optAny 0x14 0 1, needAny 4 0 0xFFFFFFFFFFFF]
  denied := armDenied 1
  params := fun c s => (armParams 1 4 c s).orElse fun _ =>
    if (c.elems 0x11 4).any fun v => signed 32 (leVal v) < -65536 || 65535 < signed 32 (leVal v) then some 0x11
    else if c.has 0x14 && c.val 0x14 = 0 && !(nidPipes (c.bytes 1)).all s.threePath then some 0x14 else none
  mode := armMode 1
  busy := colourBusy
  node := fun _ => 0x20704
  effect := fun c => armAll 1 4 6
    (fun p => ((numbered (c.elems 0x10 2)).map fun e => (pipeBase p + 0x6010 + 4 * e.2, leVal e.1)) ++ keyWords c 0x11 (pipeBase p + 0x6040)
      ++ (if c.has 0x13 then [(pipeBase p + 0x6050, c.at 0x13 0 4), (pipeBase p + 0x6054, c.at 0x13 4 2)] else [])
      ++ (if c.has 0x14 then [(pipeBase p + 0x6000, c.val 0x14)] else [])) showUpdate c
  arms := fun c s => some (s.armAt (nidPipes (c.bytes 1)) (c.val 4))
  past := armPast 1 6
  undo := disarmAll 1 6 hideUpdate

/-- STATS_SET (R314 to R316). -/
def specStatsSet : CmdSpec where
  cls := 7
  code := 5
  bound := 100
  levels := [.pipeline]
  powers := true
  keys := [optAny 0x30 0 0xFFFFFFFF, optAny 0x31 0 0xFFFFFFFF, optAny 0x32 0 0xFFFFFFFF, optAny 0x33 0 0xFFFFFFFF, optAny 0x34 0 65535]
  params := fun c s =>
    let p := c.pipe
    let b := pipeBase p
    let area := s.on (Framer.area p)
    let v := fun (k a : Nat) => c.valD k (s.reg (b + a)).toNat
    let xp := if s.threePath p then 1 else s.get (Corr.xpM1 p) + 1
    let yp := if s.threePath p then 1 else s.get (Corr.ypM1 p) + 1
    if area && 31 < bits (v 0x31 0x8004) 0 6 then some 0x31
    else if (if area then 31 else 0) < bits (v 0x31 0x8004) 8 5 then some 0x31
    else if bits (v 0x32 0x8008) 0 15 = 0 ∨ 16384 < bits (v 0x32 0x8008) 0 15 ∨ bits (v 0x32 0x8008) 16 16 = 0
      ∨ bits (v 0x32 0x8008) 0 15 % xp ≠ 0 ∨ bits (v 0x32 0x8008) 16 16 % yp ≠ 0 then some 0x32
    else if bits (v 0x33 0x800C) 0 14 % xp ≠ 0 ∨ bits (v 0x33 0x800C) 16 16 % yp ≠ 0 then some 0x33 else none
  mode := fun c s => s.boundAdmitted c.pipe
  effect := fun c =>
    let b := pipeBase c.pipe
    let w := fun (k a : Nat) => when (c.has k) (setReg (b + a) (BitVec.ofNat 32 (c.val k)))
    block [w 0x30 0x8000, w 0x31 0x8004, w 0x32 0x8008, w 0x33 0x800C, setKey c 0x34 (Reg.Col.clipLevel c.pipe)]

/-- The last statistics record of head 0 or 1 of a pipeline. -/
def State.lastRecord (s : State) (p head : Nat) : List Byte :=
  match (s.pipe p).heads.find? fun x => s.headNo p x.1 = head with | some x => x.2.lastStat | none => []

/-- STATS_READ. -/
def specStatsRead : CmdSpec where
  cls := 7
  code := 6
  bound := 50
  levels := [.pipeline]
  powers := true
  keys := needAny 0x35 0 1 :: resultKeys
  denied := resultDenied
  params := fun c _ => resultBad c
  late := fun c s => resultFull c (s.lastRecord c.pipe (c.val 0x35)).length
  effect := fun _ => .skip
  pends := some 2000

/-- STATS_READ_DONE: the record of that time, as much of it as the region holds. -/
def execStatsReadDone (p : Fin 64) (s : State) : Host.Outcome State Fault Refusal :=
  .next (run (finishCtx 7 6 (nidPipe p.val) (fun _ _ => none) fun c e => look fun s =>
    putResult e ((s.lastRecord p.val (c.val 0x35)).take (e.val 0xF005))) s)

/-- COLOUR_STATUS. -/
def specColourStatus : CmdSpec where
  cls := 7
  code := 7
  bound := 50
  levels := [.pipeline]
  powers := true
  changes := false
  keys := []
  results := fun c s =>
    let b := pipeBase c.pipe
    [⟨0x40, s.words (b + 0x4040) 1 ++ s.words (b + 0x5040) 1 ++ s.words (b + 0x6080) 1 ++ s.words (b + 0x8040) 2⟩, ⟨0x41, s.words (b + 0x4010) 4⟩]
  effect := fun _ => .skip

/-! The screen (R327 to R339). -/

/-- SCREEN_SET. -/
def specScreenSet : CmdSpec where
  cls := 8
  code := 1
  bound := 100
  levels := [.pipeline]
  powers := true
  keys := [optAny 0x10 0 1, optAny 0x11 0 1]
  mode := fun c s => s.boundAdmitted c.pipe
  effect := fun c => block [setKey c 0x10 (Scr.enable c.pipe), setKey c 0x11 (Scr.holdFlagged c.pipe)]

/-- Showing and hiding a pending tuning change. -/
def showTune (p n : Nat) : Prog := block [set (Scr.tunePending p) 1, set (Scr.tuneIndexLo p) n, set (Scr.tuneIndexHi p) (n / 0x100000000)]
def hideTune (p : Nat) : Prog := block [set (Scr.tunePending p) 0, set (Scr.tuneIndexLo p) 0, set (Scr.tuneIndexHi p) 0]

/-- SCREEN_TUNE (R339): weights and threshold share a word; what a key leaves out keeps the value in force. -/
def specScreenTune : CmdSpec where
  cls := 8
  code := 2
  bound := 300
  levels := [.device]
  keys := [raw 1 2 128 2 true, raw 0x12 3 3 1 false, optAny 0x13 0 255, raw 0x14 6 6 1 false, need 4 8 0 0xFFFFFFFFFFFF]
  denied := armDenied 1
  params := fun c s => (armParams 1 4 c s).orElse fun _ => if (c.elems 0x14 2).any fun v => leVal v = 0 then some 0x14 else none
  mode := armMode 1
  busy := fun c s => (armClash 1 c s).orElse fun _ => (nidPipes (c.bytes 1)).findSome? fun p => s.armWait p 9
  node := fun _ => 0x20802
  effect := fun c => look fun s => armAll 1 4 9
    (fun p =>
      let w := (s.reg (pipeBase p + 0x9004)).toNat
      let w := if c.has 0x12 then putBits w 0 24 (c.val 0x12) else w
      [(pipeBase p + 0x9004, if c.has 0x13 then putBits w 24 8 (c.val 0x13) else w)]
        ++ (if c.has 0x14 then [(pipeBase p + 0x9008, c.at 0x14 0 4), (pipeBase p + 0x900C, c.at 0x14 4 2)] else [])) showTune c
  arms := fun c s => some (s.armAt (nidPipes (c.bytes 1)) (c.val 4))
  past := armPast 1 9
  undo := disarmAll 1 9 hideTune

/-- SCREEN_STREAM_SET (R330). -/
def specScreenStreamSet : CmdSpec where
  cls := 8
  code := 3
  bound := 100
  levels := [.device, .group]
  keys := [needAny 0x20 0 15, optAny 0x21 0 1, opt 0x22 2 0 4096, optAny 0x23 0 2, opt 0x24 2 1 65535]
  fanout := true
  denied := streamDenied 0x20
  mode := fun c s => s.admitted (c.val 0x20)
  node := fun c => 0x10000 + c.val 0x20
  effect := fun c => setAsm (c.val 0x20) fun a => { a with
    cutout := c.valD 0x21 (boolNat a.cutout) == 1, cap := c.valD 0x22 a.cap, margin := c.valD 0x23 a.margin, audit := c.valD 0x24 a.audit }

/-- SCREEN_STATUS. -/
def specScreenStatus : CmdSpec where
  cls := 8
  code := 4
  bound := 50
  levels := [.pipeline]
  powers := true
  changes := false
  keys := []
  results := fun c s => [⟨0x30, s.words (pipeBase c.pipe + 0x9040) 7⟩, ⟨0x31, s.words (pipeBase c.pipe + 0x9010) 4⟩]
  effect := fun _ => .skip

/-- HISTORY_RESET (R328): at the next tile-row boundary. -/
def specHistoryReset : CmdSpec where
  cls := 8
  code := 5
  bound := 100
  levels := [.pipeline]
  powers := true
  keys := []
  effect := fun c => setPipe c.pipe fun t => { t with histReset := true }

/-! The commands of this class. -/

def execWbSet (m : MbId) (r : Req) (s : State) : Host.Outcome State Fault Refusal := runCommand specWbSet m r s
def execDemosaicSet (m : MbId) (r : Req) (s : State) : Host.Outcome State Fault Refusal := runCommand specDemosaicSet m r s
def execAlignSet (m : MbId) (r : Req) (s : State) : Host.Outcome State Fault Refusal := runCommand specAlignSet m r s
def execMatrixSet (m : MbId) (r : Req) (s : State) : Host.Outcome State Fault Refusal := runCommand specMatrixSet m r s
def execStatsSet (m : MbId) (r : Req) (s : State) : Host.Outcome State Fault Refusal := runCommand specStatsSet m r s
def execStatsRead (m : MbId) (r : Req) (s : State) : Host.Outcome State Fault Refusal := runCommand specStatsRead m r s
def execColourStatus (m : MbId) (r : Req) (s : State) : Host.Outcome State Fault Refusal := runCommand specColourStatus m r s
def execScreenSet (m : MbId) (r : Req) (s : State) : Host.Outcome State Fault Refusal := runCommand specScreenSet m r s
def execScreenTune (m : MbId) (r : Req) (s : State) : Host.Outcome State Fault Refusal := runCommand specScreenTune m r s
def execScreenStreamSet (m : MbId) (r : Req) (s : State) : Host.Outcome State Fault Refusal := runCommand specScreenStreamSet m r s
def execScreenStatus (m : MbId) (r : Req) (s : State) : Host.Outcome State Fault Refusal := runCommand specScreenStatus m r s
def execHistoryReset (m : MbId) (r : Req) (s : State) : Host.Outcome State Fault Refusal := runCommand specHistoryReset m r s

end Sys2Proof.Machine
end

