-- ==== Sys2Proof/Machine/RowCommands.lean ====
section
/-! DEFINITION. The row assembly commands, class 0x09, and the coding commands of streams, class 0x0A (R343, R368, R372, R373, R392, R393, R399). -/

namespace Sys2Proof.Machine
open Reg

/-- Commands of a stream act on a node of the model's own, so that each stream is busy by itself (R148). -/
def streamNode (c : Ctx) : Nat := 0x10000 + c.val 1

/-! Shape of a row (R343, R350, R363). -/

/-- The segments of a stream's rows: first column, width, budget, producer. -/
def State.segMap (s : State) (i : Nat) : List (Nat × Nat × Nat × Nat) :=
  let d := s.depth i
  let w := rowWidth ((s.heads i).map fun h => s.geo i h 0)
  let total := rowBudget w d.1 d.2 (s.get (Cod.ratio i))
  if s.get (Cod.ratio i) = 0 then (if w = 0 then [] else [(0, w, total, 1)])
  else
    let sp := s.spans i
    (sp.zip (segmentBudgets total w (sp.map fun x => x.2.2))).map fun x => (x.1.2.1, x.1.2.2, x.2, x.1.1)

/-- The budget of a stream's rows. -/
def State.streamBudget (s : State) (i : Nat) : Nat :=
  rowBudget (rowWidth ((s.heads i).map fun h => s.geo i h 0)) (s.depth i).1 (s.depth i).2 (s.get (Cod.ratio i))

/-- WIDTH, SEGMENTS, RECORD_BYTES and BUDGET follow geometry, format and ratio. -/
def noteShape (i : Nat) : Prog := look fun s => block [
  set (Asm.width i) (rowWidth ((s.heads i).map fun h => s.geo i h 0)), set (Asm.segments i) (s.segMap i).length,
  set (Cod.budget i) (s.streamBudget i), set (Asm.recordBytes i) (64 + s.streamBudget i)]

/-! Class 0x09. -/

/-- ASSEMBLY_SET. -/
def specAssemblySet : CmdSpec where
  cls := 9
  code := 1
  bound := 100
  levels := [.device, .group]
  keys := [needAny 1 0 15, optAny 2 0 1, optAny 3 1 65535, opt 4 4 1000 1000000000, opt 5 4 0 0xFFFFFF]
  fanout := true
  denied := streamDenied 1
  mode := fun c s => s.admitted (c.val 1)
  node := streamNode
  effect := fun c =>
    let i := c.val 1
    block [setKey c 2 (Asm.area i), setKey c 3 (Asm.bandRows i), setKey c 4 (Asm.deadline i), setKey c 5 (Asm.areaLineNs i)]

/-- A geometry entry as GEOMETRY_SET stages it (Table 11-7). -/
def entryGeo (e : List Byte) : HeadGeo :=
  let v := fun (o lo w : Nat) => bits (leAt e o 4) lo w
  ⟨v 0 0 21, v 4 0 14, v 4 16 15, v 8 0 15, v 8 15 1 = 1, v 8 16 1 = 1, v 8 17 9,
    ⟨signed 32 (v 16 0 32), signed 32 (v 20 0 32), signed 32 (v 24 0 32), signed 32 (v 28 0 32)⟩, [v 32 0 16, v 32 16 16, v 36 0 16]⟩

/-- An entry that GEOMETRY_SET does not give stands at its reset values. -/
def HeadGeo.reset : HeadGeo := ⟨0, 0, 1, 1, false, false, 0, ⟨0, 0x01000000, 0, 0⟩, [0x1000, 0x1000, 0x1000]⟩

/-- The seam bands of heads in order: widths, as integers. -/
def seamBands : List HeadGeo → List Int
  | a :: b :: rest => ((a.col0 + a.outWidth : Nat) - (b.col0 : Nat) : Int) :: seamBands (b :: rest)
  | _ => []

/-- Does a head's own entry keep the rules of R343 and R345 on its pipeline's line? A head that is not steered has no line to check. -/
def State.entryFits (s : State) (i h : Nat) (g : HeadGeo) : Bool :=
  1 ≤ g.cropWidth && g.cropWidth ≤ 16384 && 1 ≤ g.outWidth && g.outWidth ≤ 16384 && g.cut ≤ 256
    && (g.resample || g.outWidth = g.cropWidth)
    && (match s.pipeOf i h with
      | none => true
      | some p =>
        let xp := s.get (Corr.xpM1 p) + 1
        let line := if s.get (Reg.Col.modeF p) = 3 then s.get (Framer.linePixels p) / xp else s.get (Framer.linePixels p)
        g.cropStart + g.cropWidth ≤ line && !(g.resample && 1 < xp && !s.threePath p))

/-- Does a staged geometry keep the rules of R343? Without a valid head entry, every entry given counts as a head. -/
def State.geometryOk (s : State) (i : Nat) (es : List (List Byte)) : Bool :=
  let hs := if (s.heads i).isEmpty then List.range es.length else s.heads i
  let gs := hs.map fun h => match es[h]? with | some e => entryGeo e | none => HeadGeo.reset
  let ls := seamBands gs
  (match gs with | g :: _ => g.col0 = 0 | [] => false)
    && ls.all (fun l => decide (0 ≤ l ∧ l ≤ 256))
    && (gs.zip ls).all (fun x => decide ((x.1.cut : Int) ≤ x.2))
    && (gs.zip ((0 :: ls).zip (ls ++ [0]))).all (fun x => decide (x.2.1 + x.2.2 ≤ (x.1.outWidth : Int)))
    && rowWidth gs ≤ 1048576
    && (hs.zip gs).all fun x => s.entryFits i x.1 x.2

/-- The entries of a staged table of n entries. -/
def geoEntries (bs : List Byte) (n : Nat) : List (List Byte) := chunks 64 n (slice bs 0 (64 * n))

/-- GEOMETRY_SET (R343): firmware keeps its copy of the region. -/
def specGeometrySet : CmdSpec where
  cls := 9
  code := 2
  bound := 50
  levels := [.device, .group]
  keys := [needAny 1 0 15, needAny 0x10 1 256] ++ stagingKeys
  fanout := true
  denied := fun c s => regionDenied c s 0xF001 0xF002 || streamDenied 1 c s
  params := fun c _ => (regionBad c 0xF001 0xF002).orElse fun _ => if c.val 0xF002 ≠ 64 * c.val 0x10 then some 0xF002 else none
  mode := fun c s => s.admitted (c.val 1)
  node := streamNode
  late := fun c s => if stagedOk c s then none else some (0x15, [])
  final := fun c s => if s.geometryOk (c.val 1) (geoEntries (staged c s) (c.val 0x10)) then none else some (0x12, [tlv 0xF010 2 0x10])
  effect := fun c => look fun s => keepParts c [staged c s]
  pends := some 5000

/-- GEOMETRY_SET_DONE: entries in place with counters zero, the others at reset. -/
def execGeometrySetDone (i : Fin 16) (s : State) : Host.Outcome State Fault Refusal :=
  .next (run (finishCtx 9 2 (0x10000 + i.val)
    (fun c s =>
      if s.admitted i.val then some (0x21, [])
      else if s.geometryOk i.val (geoEntries (c.kept s 0) (c.val 0x10)) then none else some (0x12, [tlv 0xF010 2 0x10]))
    (fun c _ => look fun s => block [
      resetRegs (0x01204000 + 0x8000 * i.val) 0x4000,
      forEach (numbered (geoEntries (c.kept s 0) (c.val 0x10))) fun e => putWords (0x01204000 + 0x8000 * i.val + 0x40 * e.2) (e.1.take 0x28),
      setAsm i.val fun t => { t with armedMatch := none, oldMatch := [] },
      set (Asm.matchPending i.val) 0, set (Asm.matchIndexLo i.val) 0, set (Asm.matchIndexHi i.val) 0,
      noteShape i.val,
      look fun s => raise 9 4 1 (leBytes 1 i.val ++ leBytes 4 (s.get (Asm.width i.val)) ++ leBytes 1 (s.get (Asm.segments i.val))
        ++ leBytes 4 (s.get (Asm.recordBytes i.val)))])) s)

/-- The index at which a change of a stream is armed: 0 while it is not started, so that it holds from its next row on. -/
def State.streamAt (s : State) (i given : Nat) : Nat :=
  if s.sState i = sStarted then (if given = 0 then s.earliestN i else given) else 0

/-- The index shown as pending. -/
def State.streamShown (s : State) (i given : Nat) : Nat := if s.sState i = sStarted then s.streamAt i given else given

/-- An index below the lead of R287. -/
def leadBad (kn : Nat) (c : Ctx) (s : State) : Option Nat :=
  if s.sState (c.val 1) = sStarted ∧ c.val kn ≠ 0 ∧ c.val kn < s.earliestN (c.val 1) then some kn else none

/-- The wait of R593 for a change armed at an index of a stream. -/
def State.streamWait (s : State) (i n : Nat) : Nat :=
  if s.sState i = sStarted then max 1 (ceilDiv ((n + 1 - s.next i) * s.get (Trig.minPeriod i)) 1000) else 0xFFFFFFFF

/-- The gains of a MATCH_SET by head. -/
def Ctx.gains (c : Ctx) : List (Nat × Nat × Nat × Nat) := (c.elems 0x20 8).map fun e => (leAt e 0 2, leAt e 2 2, leAt e 4 2, leAt e 6 2)

/-- Showing a pending change of match gains. -/
def showMatch (i on n : Nat) : Prog := block [
  set (Asm.matchPending i) on, set (Asm.matchIndexLo i) n, set (Asm.matchIndexHi i) (n / 0x100000000)]

/-- MATCH_SET (R312, R368). -/
def specMatchSet : CmdSpec where
  cls := 9
  code := 3
  bound := 300
  levels := [.device, .group]
  keys := [needAny 1 0 15, raw 0x20 8 1008 8 true, need 0x21 8 0 0xFFFFFFFFFFFF]
  fanout := true
  denied := streamDenied 1
  params := fun c s =>
    let hs := c.gains.map fun g => g.1
    if hs.dedup.length ≠ hs.length ∨ !(hs.all fun h => (s.heads (c.val 1)).contains h) then some 0x20 else leadBad 0x21 c s
  busy := fun c s => (s.asm (c.val 1)).armedMatch.map fun a => s.streamWait (c.val 1) a.1
  node := streamNode
  effect := fun c => look fun s =>
    let i := c.val 1
    block [setAsm i fun t => { t with armedMatch := some (s.streamAt i (c.val 0x21), c.gains) }, showMatch i 1 (s.streamShown i (c.val 0x21))]
  arms := fun c s => some (c.val 1, s.streamAt (c.val 1) (c.val 0x21))
  past := fun c s => (s.asm (c.val 1)).armedMatch.isNone
  undo := fun c => block [setAsm (c.val 1) fun t => { t with armedMatch := none }, showMatch (c.val 1) 0 0]

/-- ASSEMBLY_STATUS. -/
def specAssemblyStatus : CmdSpec where
  cls := 9
  code := 4
  bound := 100
  levels := [.device, .group]
  keys := needAny 1 0 15 :: resultKeys
  denied := fun c s => resultDenied c s || streamDenied 1 c s
  params := fun c _ => resultBad c
  changes := false
  late := fun c s => resultFull c (52 + 60 + 4 + 16 * (s.segMap (c.val 1)).length)
  results := fun c s =>
    let b := 0x01200000 + 0x8000 * c.val 1
    [⟨0x30, s.words b 12⟩, ⟨0x31, s.words (b + 0x40) 14⟩,
     ⟨0x32, (s.segMap (c.val 1)).flatMap fun g => leBytes 4 g.1 ++ leBytes 4 g.2.1 ++ leBytes 4 g.2.2.1 ++ leBytes 2 g.2.2.2 ++ [0, 0]⟩]
  effect := fun _ => .skip

/-! Class 0x0A, streams. -/

/-- CODING_SET (R392). -/
def specCodingSet : CmdSpec where
  cls := 0x0A
  code := 1
  bound := 100
  levels := [.device, .group]
  keys := [needAny 1 0 15, optAny 2 0 4, optAny 3 0 3, optAny 4 0 1]
  fanout := true
  denied := streamDenied 1
  mode := fun c s => s.admitted (c.val 1)
  node := streamNode
  effect := fun c =>
    let i := c.val 1
    block [setKey c 2 (Cod.ratio i), setKey c 3 (Cod.effort i), setKey c 4 (Cod.independent i), noteShape i]

/-- Showing a pending change of effort. -/
def showEffort (i on n : Nat) : Prog := block [
  set (Cod.effortPending i) on, set (Cod.effortIndexLo i) n, set (Cod.effortIndexHi i) (n / 0x100000000)]

/-- EFFORT_SET (R393): only an admitted stream has an admitted effort. -/
def specEffortSet : CmdSpec where
  cls := 0x0A
  code := 2
  bound := 300
  levels := [.device, .group]
  keys := [needAny 1 0 15, needAny 3 0 3, need 5 8 0 0xFFFFFFFFFFFF]
  fanout := true
  denied := streamDenied 1
  params := fun c s => if s.admitted (c.val 1) ∧ s.get (Cod.effort (c.val 1)) < c.val 3 then some 3 else leadBad 5 c s
  mode := fun c s => !s.admitted (c.val 1)
  busy := fun c s =>
    if s.on (Cod.effortPending (c.val 1)) then some (s.streamWait (c.val 1) (s.index2 (Cod.effortIndexLo (c.val 1)) (Cod.effortIndexHi (c.val 1))))
    else none
  node := streamNode
  effect := fun c => look fun s =>
    let i := c.val 1
    block [setAsm i fun t => { t with effortNext := c.val 3, effortAt := s.streamAt i (c.val 5) }, showEffort i 1 (s.streamShown i (c.val 5))]
  arms := fun c s => some (c.val 1, s.streamAt (c.val 1) (c.val 5))
  past := fun c s => !s.on (Cod.effortPending (c.val 1))
  undo := fun c => showEffort (c.val 1) 0 0

/-- CODING_STATUS: the stream key names a stream of a device or group, and a cluster has none. -/
def specCodingStatus : CmdSpec where
  cls := 0x0A
  code := 3
  bound := 50
  levels := [.device, .group, .cluster]
  powers := true
  keys := [optAny 1 0 15]
  denied := streamDenied 1
  params := fun c _ => if (c.tgt.kind.level = .cluster) = c.has 1 then some 1 else none
  changes := false
  results := fun c s =>
    match c.tgt.kind with
    | .cluster k => [⟨0x11, s.words (0x10300000 + 0x01000000 * k) 2 ++ s.words (0x10300040 + 0x01000000 * k) 4⟩]
    | _ => [⟨0x10, s.words (0x01200100 + 0x8000 * c.val 1) 5 ++ s.words (0x01200140 + 0x8000 * c.val 1) 10⟩]
  effect := fun _ => .skip

/-! The commands of this class. -/

def execAssemblySet (m : MbId) (r : Req) (s : State) : Host.Outcome State Fault Refusal := runCommand specAssemblySet m r s
def execGeometrySet (m : MbId) (r : Req) (s : State) : Host.Outcome State Fault Refusal := runCommand specGeometrySet m r s
def execMatchSet (m : MbId) (r : Req) (s : State) : Host.Outcome State Fault Refusal := runCommand specMatchSet m r s
def execAssemblyStatus (m : MbId) (r : Req) (s : State) : Host.Outcome State Fault Refusal := runCommand specAssemblyStatus m r s
def execCodingSet (m : MbId) (r : Req) (s : State) : Host.Outcome State Fault Refusal := runCommand specCodingSet m r s
def execEffortSet (m : MbId) (r : Req) (s : State) : Host.Outcome State Fault Refusal := runCommand specEffortSet m r s
def execCodingStatus (m : MbId) (r : Req) (s : State) : Host.Outcome State Fault Refusal := runCommand specCodingStatus m r s

end Sys2Proof.Machine
end

