-- ==== Sys2Proof/Machine/Jobs.lean ====
section
/-! DEFINITION. Memory jobs and their rings (R107, R394 to R397, R399, R400, R428). -/

namespace Sys2Proof.Machine
open Reg

/-! Reads of host memory (R106, R107, R128). -/

/-- The lowest tag that no outstanding read uses. -/
def State.freeTag (s : State) : Nat := ((List.range 256).find? fun t => !(s.dev.host.reads.any fun r => r.1 = t)).getD 0

/-- The length of a request from an address: at most Max_Read_Request_Size, within a 4 KiB page. -/
def State.readLen (s : State) (fn addr need : Nat) : Nat :=
  let n := if need < (s.pci fn).maxRead then need else (s.pci fn).maxRead
  if 0x1000 < addr % 0x1000 + n then 0x1000 - addr % 0x1000 else n

/-- A read request of a function; with Bus Master Enable 0 it is discarded and counted, and the other meaning follows. -/
def hostReadFor (fn addr len : Nat) (use : ReadFor) (refused : Prog) : Prog := look fun s =>
  if (s.pci fn).busMaster then
    block [setHost fun h => { h with reads := h.reads ++ [(s.freeTag, use)] }, emit (.hostRead fn addr len s.freeTag)]
  else block [bump (Bridge.outDiscards fn), bridgeFlag fn Bridge.bmeDiscard, countDropped 1, refused]

/-! The descriptor (Table 12-6). -/

structure JobDesc where
  op : Nat
  format : Nat
  ratio : Nat
  flags : Nat
  width : Nat
  rows : Nat
  stride : Nat
  src : Nat
  srcLen : Nat
  dstLen : Nat
  dst : Nat
  statusAddr : Nat
  prefixId : Nat
  row0 : Nat
  tag : Nat
  deriving DecidableEq, Repr

def jobDesc (b : List Byte) : JobDesc :=
  ⟨leAt b 0 1, leAt b 1 1, leAt b 2 1, leAt b 3 1, leAt b 4 4, leAt b 8 4, leAt b 12 4, leAt b 16 5, leAt b 24 4, leAt b 28 4, leAt b 32 5,
    leAt b 40 5, leAt b 48 2, leAt b 50 6, leAt b 56 4⟩

def JobDesc.n (d : JobDesc) : Nat := (formatOf d.format).1
def JobDesc.c (d : JobDesc) : Nat := (formatOf d.format).2
/-- Bytes of a packed row and of a coded row. -/
def JobDesc.packed (d : JobDesc) : Nat := ceilDiv (d.width * d.n * d.c) 8
def JobDesc.coded (d : JobDesc) : Nat := budgetOf d.width d.n d.c d.ratio
/-- Bytes read for a row, and from one source row to the next. -/
def JobDesc.inBytes (d : JobDesc) : Nat := if d.op = 1 then d.packed else d.coded
def JobDesc.inStep (d : JobDesc) : Nat := if d.op = 1 then d.stride else d.coded
/-- Bytes a row needs in the destination, and from one row to the next. -/
def JobDesc.outBytes (d : JobDesc) : Nat := if d.op = 1 then d.coded else d.packed
def JobDesc.outStep (d : JobDesc) : Nat := if d.op = 1 then d.coded else d.stride

/-- The check that binds a token to its job. RESUME itself is taken as 0, so that a resubmitted descriptor can match (DEDUCED). -/
def descCheck (b : List Byte) : Nat :=
  houseCrc [] ((slice b 0 16).set 3 (BitVec.ofNat 8 (leAt b 3 1 / 2 * 2)) ++ slice b 48 8)

/-- Are the fields of a descriptor within their rules (Table 12-6, Table 12-9, R375)? -/
def descOk (b : List Byte) : Bool :=
  let d := jobDesc b
  (d.op = 1 || d.op = 2) && d.format < 10 && 1 ≤ d.ratio && d.ratio ≤ 4 && d.flags < 4 && 1 ≤ d.width && d.width ≤ 1048576 && 1 ≤ d.rows
    && d.stride % 4 = 0 && d.packed ≤ d.stride && segmentOk d.width d.c d.coded
    && leAt b 60 4 = 0 && leAt b 96 32 = 0 && leAt b 21 3 = 0 && leAt b 37 3 = 0 && leAt b 45 3 = 0
    && (bit d.flags 0 || leAt b 64 32 = 0)

/-- Is the token of a descriptor with RESUME good (Table 12-7)? -/
def tokenOk (b : List Byte) : Bool :=
  let t := slice b 64 32
  leAt t 0 1 = 1 && leAt t 1 1 = leAt b 0 1 && leAt t 28 4 = houseCrc [] (slice t 0 28) && leAt t 16 4 = descCheck b

/-- A resume token. -/
def token (b : List Byte) (next off : Nat) : List Byte :=
  let t := [1] ++ leBytes 1 (leAt b 0 1) ++ [0, 0] ++ leBytes 4 next ++ leBytes 4 off ++ zeros 4 ++ leBytes 4 (descCheck b) ++ zeros 8
  t ++ leBytes 4 (houseCrc [] t)

/-! The running job. -/

def State.job (s : State) (j : Nat) : Option JobSt := (s.dev.jobs.find? fun x => x.1 = j).map Prod.snd
def setJob (j : Nat) (f : JobSt → JobSt) : Prog :=
  dev fun d => { d with jobs := d.jobs.map fun x => if x.1 = j then (j, f x.2) else x }

/-- The row it would do next, that row's source offset, and its destination offset. -/
def JobSt.next (t : JobSt) : Nat := t.row0 + t.rows
def JobSt.inOff (t : JobSt) : Nat := t.off0 + t.rows * (jobDesc t.desc).inStep
def JobSt.outOff (t : JobSt) : Nat := t.rows * (jobDesc t.desc).outStep

def jobEnds (j st : Nat) : Prog := block [setJob j fun t => { t with ended := some st }]

/-- The world and function of a job ring. -/
def State.jobWorld (s : State) (j : Nat) : Bool := s.on (Ring.world (34 + j))

/-- Is a range inside the outbound window? -/
def inWindow (a len : Nat) : Bool := isOutWindow a && a + len ≤ 0x8000000000

/-- The first address of a range that a job of a world may not read, or write; none where it may. A job's data is memory or the
outbound window: any other address faults. -/
def State.jobBad (s : State) (ws : Bool) (a len : Nat) (write : Bool) : Option Nat :=
  if len = 0 then none
  else (a :: ((List.range ((a + len - 1) / 0x1000 - a / 0x1000)).map fun i => (a / 0x1000 + 1 + i) * 0x1000)).find? fun x =>
    !((isMemory x || isOutWindow x) && s.reach ws x && (s.offNode x).isNone && (!write || s.writable x))

/-- PCIe address of an outbound-window address for a function (R116). -/
def State.outAddr (s : State) (fn a : Nat) : Nat :=
  s.get (Bridge.outBaseLo fn) * 0x1000 + 0x100000000 * s.get (Bridge.outBaseHi fn) + (a - 0x4000000000)

/-- The next request of a fetch; one that Bus Master Enable discards is an access fault of the job. -/
def fetchMore (j : Nat) : Prog := look fun s =>
  match s.job j with
  | none => .skip
  | some t =>
    let fn := boolNat (s.jobWorld j)
    let n := s.readLen fn t.src t.need
    hostReadFor fn t.src n (.job j n) (setJob j fun t => { t with ended := some 3, fault := (jobDesc t.desc).src })

/-- The next row begins, or the job ends: aborted, done, input short, output full, or not accessible. A row in host memory is fetched
first. -/
def jobNext (j : Nat) : Prog := look fun s =>
  match s.job j with
  | none => .skip
  | some t =>
    let d := jobDesc t.desc
    let a := d.src + t.inOff
    if t.ended.isSome then .skip
    else if t.abort then jobEnds j 4
    else if d.rows ≤ t.next then jobEnds j 0
    else if d.srcLen < t.inOff + d.inBytes then jobEnds j 5
    else if s.get (RootCod.jobState j) = 2 then .skip
    else if d.dstLen < t.outOff + d.outBytes then jobEnds j 1
    else match s.jobBad (s.jobWorld j) a d.inBytes false with
      | some x => setJob j fun t => { t with ended := some 3, fault := x }
      | none =>
        if inWindow a d.inBytes then
          block [setJob j fun t => { t with data := [], need := d.inBytes, src := s.outAddr (boolNat (s.jobWorld j)) a }, fetchMore j]
        else .skip

/-- The descriptor has arrived: it is checked, and the job runs. -/
def jobStart (j : Nat) (b : List Byte) : Prog := block [
  setJob j fun t => { t with desc := b, data := [] },
  set (RootCod.jobTag j) (jobDesc b).tag, set (RootCod.jobRows j) 0,
  if descOk b && (leAt b 3 1 % 2 = 0 || tokenOk b) then
    block [when (leAt b 3 1 % 2 = 1) (setJob j fun t => { t with row0 := leAt b 68 4, off0 := leAt b 72 4 }), jobNext j]
  else jobEnds j 2]

/-- Bytes of a job's read arrive. -/
def jobData (j : Nat) (bs : List Byte) : Prog := look fun s =>
  match s.job j with
  | none => .skip
  | some t =>
    if t.ended.isSome then .skip
    else
      let got := t.data ++ bs
      block [
        setJob j fun t => { t with data := got, need := t.need - bs.length, src := t.src + bs.length },
        if bs.length < t.need then fetchMore j else when t.desc.isEmpty (jobStart j got)]

/-- JOB_DESCRIPTOR_TAKE (R419, R428): the ring's next descriptor is read once no job runs on it. -/
def jobTake (j : Nat) : Prog := look fun s =>
  let i := 34 + j
  let k := s.get (Ring.devIndex i)
  let fn := s.ringFn i
  let a := s.ringBase i + (k % s.get (Ring.count i)) * 128
  if !s.on (Ring.enable i) || (s.job j).isSome || k = s.get (Ring.hostIndex i) || s.dev.pwr.inEffect.contains 1 then .skip
  else if !(s.pci fn).busMaster then hostReadFor fn a 128 (.job j 128) .skip
  else block [
    advanceDev i 1, set (RootCod.jobState j) 1,
    dev fun d => { d with jobs := d.jobs ++ [(j, { JobSt.reset with need := 128, src := a })] },
    fetchMore j]

/-! Rows (R395). -/

/-- Writing a job's output: memory, or host memory through the outbound window. -/
def jobWrite (j a : Nat) (bs : List Byte) : Prog := look fun s =>
  let fn := boolNat (s.jobWorld j)
  if isOutWindow a then hostWriteFor (34 + j) ⟨fn, s.outAddr fn a, bs, false, 4⟩ else store a bs

/-- What a row gives: the bytes written, what counts A and B take, and its status byte. -/
def jobRow (d : JobDesc) (r : Nat) (bs : List Byte) (room : Nat) : List Byte × Nat × Nat × Nat :=
  let pre := leBytes 2 d.prefixId ++ leBytes 6 ((d.row0 + r) % 0x1000000000000)
  let spec : SegSpec := ⟨d.n, d.c, d.width, d.coded, true, 0⟩
  if d.op = 1 then
    let x := unpackBits d.n (d.width * d.c) bs
    let comps := (List.range d.c).map fun k => (List.range d.width).map fun i => x.getD (i * d.c + k) 0
    let e := encodeSegment spec pre comps []
    (e.bytes, e.lossy, e.held, 0)
  else
    let r := decodeSegment spec pre none bs
    let st := match r.1 with | .verified => 0 | .unverified => 1 | _ => 2
    (slice (packBits d.n (interleave (if r.1 = .unreferenced then [] else r.2.1 ) d.width)) 0 (if room < d.stride then room else d.stride),
      boolNat (st == 1), boolNat (st == 2), st)

/-- A row is done: read, coded or decoded, written and counted; an access that fails ends the job at that row. -/
def jobRowDone (j : Nat) : Prog := look fun s =>
  match s.job j with
  | none => .skip
  | some t =>
    let d := jobDesc t.desc
    let w := s.jobWorld j
    let a := d.src + t.inOff
    let host := inWindow a d.inBytes
    if t.desc.isEmpty ∨ t.ended.isSome ∨ s.get (RootCod.jobState j) = 2 ∨ (host ∧ t.need ≠ 0) then .skip
    else block [
      when (!host) (eccRead a d.inBytes true),
      let bs := if host then t.data else s.bytes a d.inBytes
      let o := jobRow d t.next bs (d.dstLen - t.outOff)
      let list := bit d.flags 1
      let bad := (if host then none else (s.eccIn a d.inBytes 2).head?).orElse fun _ =>
        (s.jobBad w (d.dst + t.outOff) o.1.length true).orElse fun _ =>
          if list then s.jobBad w (d.statusAddr + t.next) 1 true else none
      match bad with
      | some x => setJob j fun t => { t with ended := some 3, fault := x }
      | none => block [
          jobWrite j (d.dst + t.outOff) o.1,
          when list (jobWrite j (d.statusAddr + t.next) [BitVec.ofNat 8 o.2.2.2]),
          setJob j fun t => { t with
            rows := t.rows + 1, made := t.made + o.1.length, countA := t.countA + o.2.1, countB := t.countB + o.2.2.1, data := [] },
          bump (RootCod.jobRows j), jobNext j]]

/-! The end of a job (R397, R428). -/

/-- The completion of a job (Table 12-8). -/
def completionOf (t : JobSt) (st : Nat) : List Byte :=
  let d := jobDesc t.desc
  let used := t.rows * d.inStep
  leBytes 4 d.tag ++ leBytes 1 st ++ leBytes 1 d.op ++ [0, 0] ++ leBytes 4 t.rows
    ++ leBytes 4 (if d.srcLen - t.off0 < used then d.srcLen - t.off0 else used) ++ leBytes 4 t.made ++ leBytes 4 t.countA ++ leBytes 4 t.countB
    ++ zeros 4 ++ (if (st = 1 ∨ st = 3 ∨ st = 4) ∧ !t.desc.isEmpty then token t.desc t.next t.inOff else zeros 32)

/-- An ended job gives its completion once the completion ring has room; until then it holds its ring. -/
def jobEnd (j : Nat) : Prog := look fun s =>
  let i := 38 + j
  match s.job j with
  | none => .skip
  | some t =>
    match t.ended with
    | none => .skip
    | some st =>
      if !s.on (Ring.enable i) ∨ s.ringFree i = 0 then when (s.on (Ring.enable i) && !s.on (Ring.stalled i)) (setFlag (Ring.stalled i))
      else block [
        hostWriteFor i ⟨s.ringFn i, s.ringBase i + 64 * (s.get (Ring.devIndex i) % s.get (Ring.count i)), completionOf t st, false, 4⟩,
        advanceDev i 1,
        bump (if st = 0 ∨ st = 5 then RootCod.jobsDone else if st = 1 ∨ st = 4 then RootCod.jobsStopped else RootCod.jobsFailed),
        when (st = 3) (block [setFlag RootCod.jobFault, countDropped 1,
          raiseIn (s.jobWorld j) 0x0A 5 1 (leBytes 1 j ++ leBytes 4 (jobDesc t.desc).tag ++ leBytes 5 t.fault)]),
        set (RootCod.jobState j) 0, dev fun d => { d with jobs := d.jobs.filter fun x => x.1 ≠ j }]

/-- Throttle step 1 takes effect: running jobs pause; undone, they go on (Table 2-17, Table 12-9). -/
def pauseJobs : Prog := forEach (List.range 4) fun j => look fun s =>
  when ((s.job j).isSome && s.get (RootCod.jobState j) = 1) (set (RootCod.jobState j) 2)
def resumeJobs : Prog := forEach (List.range 4) fun j => look fun s =>
  when (s.get (RootCod.jobState j) = 2) (block [set (RootCod.jobState j) 1,
    match s.job j with | some t => when (!t.desc.isEmpty && t.need = 0) (jobNext j) | none => .skip])

/-! Rows of the table. -/

/-- JOB_DESCRIPTOR_TAKE (R428). -/
def execJobDescriptorTake (j : Fin 4) (s : State) : Host.Outcome State Fault Refusal := .next (run (jobTake j.val) s)

/-- JOB_ROW_DONE (R395). -/
def execJobRowDone (j : Fin 4) (s : State) : Host.Outcome State Fault Refusal := .next (run (jobRowDone j.val) s)

/-- JOB_END (R397). -/
def execJobEnd (j : Fin 4) (s : State) : Host.Outcome State Fault Refusal := .next (run (jobEnd j.val) s)

/-- JOB_ABORT: a paused job ends at once, at its last whole row; without a running job there is nothing to stop (R399). -/
def specJobAbort : CmdSpec where
  cls := 0x0A
  code := 4
  bound := 200
  levels := [.device]
  keys := [needAny 0x20 0 3]
  denied := fun c s => !s.mbS c.mb && s.jobWorld (c.val 0x20)
  effect := fun c => look fun s =>
    let j := c.val 0x20
    match s.job j with
    | none => .skip
    | some t =>
      if t.ended.isSome then .skip
      else if s.get (RootCod.jobState j) = 2 then block [setJob j fun t => { t with abort := true }, set (RootCod.jobState j) 3, jobEnds j 4]
      else block [setJob j fun t => { t with abort := true }, set (RootCod.jobState j) 3]

/-- JOB_STATUS. -/
def specJobStatus : CmdSpec where
  cls := 0x0A
  code := 5
  bound := 50
  levels := [.device]
  changes := false
  keys := [needAny 0x20 0 3]
  denied := fun c s => !s.mbS c.mb && s.jobWorld (c.val 0x20)
  results := fun c s => [⟨0x21, s.words (0x01280100 + 16 * c.val 0x20) 3⟩, ⟨0x22, s.words 0x01280040 12⟩]
  effect := fun _ => .skip

/-! The commands of this class. -/

def execJobAbort (m : MbId) (r : Req) (s : State) : Host.Outcome State Fault Refusal := runCommand specJobAbort m r s
def execJobStatus (m : MbId) (r : Req) (s : State) : Host.Outcome State Fault Refusal := runCommand specJobStatus m r s

end Sys2Proof.Machine
end

