-- ==== Sys2Proof/Machine/Admission.lean ====
section
/-! DEFINITION. Evaluating a stream contract: the admission terms, the delivery bound and what admission allocates (R192, R210, R330 to
R335, R341 to R344, R358, R367, R375, R391, R403 to R416, R423, R424, R434 to R439, R471 to R473). Times are in half nanoseconds:
2 a ns or fclk cycle, 5 a pclk cycle, 80 an aclk cycle. -/

namespace Sys2Proof.Machine
open Reg

/-! Ports (R192). -/

/-- Seven times a port's usable payload rate in bit/s. -/
def State.usable7 (s : State) (n : Nat) : Nat :=
  let gear := fun (g : Nat) => match g with | 1 => 1950 | 2 => 3900 | 3 => 7800 | 4 => 11700 | 5 => 15600 | _ => 0
  let l := s.get (Port.lanes n)
  let r := s.get (Port.comboRate n)
  if n < 48 then 7000000 * gear (if s.get (Port.link n) = 2 then s.get (Port.gear n) else s.get (Port.rateCap n))
  else min 109200000000 (if s.get (Port.modeF n) = 1 then 950000 * (l + 1) * r * 16 else 950000 * 2 ^ l * r * 7)

/-- Bits per pixel of an image data type, as bits and pixels of one packing group. -/
def groupBits (dt : Nat) : Nat × Nat := match inFmt dt with | some f => (8 * f.bytes, f.pixels) | none => (8, 1)

/-- The data type that a (port, VC) sends to its pipeline. -/
def State.dtOfVc (s : State) (n vc : Nat) : Nat :=
  match (s.steers n).find? fun x => x.2.action = 0 && x.2.vc = vc with
  | some x => if 0x30 ≤ x.2.dt ∧ x.2.dt < 0x38 then packDt x.2.pack else x.2.dt
  | none => 0x2A

/-- Does a pipeline serve two heads? -/
def State.timeShared (s : State) (p : Nat) : Bool := 1 < ((s.sourcesOf p).map fun x => (x.1, x.2.1)).dedup.length

/-- WAIT_BOUND of a (port, VC) on a time-shared pipeline, 0 otherwise, in half ns. -/
def State.waitTerm (s : State) (p n vc : Nat) : Nat :=
  if s.timeShared p then
    match (s.steers n).find? fun x => x.2.action = 0 && x.2.vc = vc with | some x => 5 * x.2.wait | none => 0
  else 0

/-- The guaranteed capacity in bytes of queue q of a port: its reserve and an equal share of the unreserved blocks among the queues
that an entry feeds (R210). -/
def State.guaranteed (s : State) (n q : Nat) : Nat :=
  let all := (List.range 9).map fun k => s.get (Port.queueReserve n k)
  let active := (((s.steers n).filter fun x => x.2.action < 2).map fun x => if x.2.action = 1 then 8 else x.2.pipe).dedup.length
  64 * (s.get (Port.queueReserve n q) + (2048 - sumNat all) / max 1 active)

/-- The worst-case wake of a policy in half ns (Table 2-12). -/
def wakeTerm (policy : Nat) : Nat := match policy with | 0 => 0 | 1 => 50 | 2 => 6450 | _ => 36450

/-! Side volumes (R335, R408, R414). -/

/-- A side record's size for a payload. -/
def sideSize (n : Nat) : Nat := 64 * ceilDiv (32 + n) 64

/-- A head's tile map, with its cutouts up to a number. -/
def mapSize (pixels : Nat) : Nat := sideSize (32 + (2 * tileCount pixels + 3) / 4 * 4)
def cutSize (n c : Nat) : Nat := sideSize (64 + 128 * n * c)

/-- A head's statistics record. -/
def State.statSize (s : State) (p : Nat) : Nat :=
  let c := s.statCfg p (s.pixCfg p none ((s.dtsOf p).headD 0))
  sideSize (64 + sumNat (c.comps.map fun k => if c.wide k then 4096 else 1024) + 48 * c.zx * c.zy)

/-- The rows of a statistics or tag period (R314, R365). -/
def State.bandSpan (s : State) (i : Nat) : Nat := if s.on (Asm.area i) then s.frameLines i else s.get (Asm.bandRows i)

/-- The quota of each pipeline of a stream (R332): CAP divided by tile columns, the remainder to the lowest head entries. -/
def State.quotas (s : State) (i : Nat) : List (Nat × Nat) :=
  let ps := ((s.heads i).filterMap fun h => s.pipeOf i h).dedup
  let cols := ps.map fun p => tileCount (s.get (Framer.linePixels p))
  let cap := (s.asm i).cap
  let base := cols.map fun c => if sumNat cols = 0 then 0 else cap * c / sumNat cols
  ((ps.zip base).zip (List.range ps.length)).map fun x => (x.1.1, x.1.2 + boolNat (decide (x.2 < cap - sumNat base)))

/-- What a head hands over in a tile row (map and, in cutout mode, its quota), and in a statistics period. -/
def State.headSides (s : State) (i h take : Nat) : Nat × Nat :=
  let d := s.depth i
  match s.pipeOf i h with
  | some p =>
    let q := if (s.asm i).cutout then (match (s.quotas i).find? fun x => x.1 = p with | some x => x.2 | none => 0) else 0
    ((if s.on (Scr.enable p) then mapSize (s.get (Framer.linePixels p)) else 0) + q * cutSize d.1 d.2,
      if s.on (Reg.Col.enable p) then s.statSize p else 0)
  | none => if s.headLocal i h then (0, 0)
    else (Config.memberReport (s.get (Head.device i h)) 10 h take, Config.memberReport (s.get (Head.device i h)) 11 h take)

/-- The same over a stream: tile volume, statistics volume, and the band tag's record. -/
def State.sides (s : State) (i take : Nat) : Nat × Nat :=
  let all := (s.heads i).map fun h => s.headSides i h take
  (sumNat (all.map Prod.fst), sumNat (all.map Prod.snd) + (if (s.asm i).tagEn then sideSize 80 else 0))

/-- The head-status record of a stream (Table 11-5). -/
def State.statusSize (s : State) (i : Nat) : Nat :=
  let n := match (s.heads i).getLast? with | some h => h + 1 | none => 0
  sideSize (24 + (n + 3) / 4 * 4)

/-! Producers (R367, R391). -/

/-- Candidates at an effort. -/
def effortCost (e : Nat) : Nat := if e < 2 then 1 else if e = 2 then 2 else 4

/-- Close phase and coding of a span of w columns: in pclk cycles for a cluster, in fclk cycles for the root. -/
def closePart (root : Bool) (w c : Nat) : Nat := 64 + ceilDiv (w * c) (if root then 64 else 32)
def codePart (w c effort : Nat) : Nat := 40 + ceilDiv (blocksOf w c * effortCost effort) 3

/-- The production time of a span in half ns, for its producer. -/
def State.spanTime (s : State) (i : Nat) (sp : Nat × Nat × Nat) : Nat :=
  let c := (s.depth i).2
  let n := closePart (sp.1 = 1) sp.2.2 c + (if s.get (Cod.ratio i) = 0 then 0 else codePart sp.2.2 c (s.get (Cod.effort i)))
  (if sp.1 = 1 then 2 else 5) * n

/-- The largest production time of a stream in half ns. -/
def State.prodTime (s : State) (i : Nat) : Nat := ((s.spans i).map (s.spanTime i)).foldl max 0

def headOp (resample : Bool) : Nat := if resample then 12 else 4

/-- LATENCY of the clusters and of the device in fclk cycles: head operations, close phase and coding of what they produce. -/
def noteLatency : Prog := look fun s =>
  let worst := fun (nid : Nat) =>
    ((allStreams.filter fun i => s.admitted i && !(s.stream i).fast).flatMap fun i =>
      let hop := 5 * ((s.heads i).map fun h => headOp (s.on (Geo.resample i h))).foldl max 0
      ((s.spans i).filter fun x => x.1 = nid).map fun x => ceilDiv (hop + s.spanTime i x) 2).foldl max 0
  forEach (1 :: (List.range 8).map nidCluster) fun nid => set (Node.latency nid) (worst nid)

/-! Satellites (R471 to R473). -/

/-- A satellite's upstream link as the root knows it: up, its time locked, payload capacity in Mb/s, RTT, OW, cascade ratio. What
lies behind the first link its firmware reports (log entry 13). -/
structure SatLink where
  up : Bool
  locked : Bool
  rate : Nat
  rtt : Nat
  ow : Nat
  ratio : Nat
  deriving DecidableEq, Repr

/-- Payload capacity of a link in Mb/s (Table 14-1). -/
def linkRate (rate width : Nat) : Nat :=
  match rate, width with
  | 1, w => 10000 * 2 ^ w
  | 2, 0 => 15515 | 2, 1 => 31030 | 2, _ => 62061
  | 3, w => 25000 * 2 ^ w
  | 4, 0 => 31030 | 4, 1 => 62061 | 4, _ => 124121
  | _, _ => 0

def State.satLink (s : State) (d take : Nat) : SatLink :=
  let far := fun (k : Nat) => Config.memberReport d k 0 take
  match s.dev.group.find? fun m => m.index = d && m.leftSeq = 0 with
  | none => ⟨false, false, 0, 0, 0, 0⟩
  | some m =>
    if m.parent = s.dev.ownIndex then
      ⟨s.get (Quad.lstate m.quad) = lUp, m.locked, linkRate (s.get (Quad.rate m.quad)) (s.get (Quad.width m.quad)),
        s.get (Quad.rtt m.quad), s.get (Quad.ow m.quad), s.get (Quad.cascRatio m.quad)⟩
    else ⟨s.pathUp d && far 0 % 2 = 1, far 1 % 2 = 1, far 2, far 3, far 4, far 5 % 5⟩

/-- Is device x satellite d or below it? -/
def State.under (s : State) (d x : Nat) : Bool :=
  let rec go : Nat → Nat → Bool
    | 0, y => y = d
    | f + 1, y => y = d || (match s.dev.group.find? fun m => m.index = y with | some m => m.index ≠ m.parent && go f m.parent | none => false)
  go 16 x

/-- The satellites that carry heads of a stream or lie between them and this device, in ascending order. -/
def State.satsOf (s : State) (i : Nat) : List Nat :=
  (List.range 16).filter fun d => d ≠ s.dev.ownIndex && (s.dev.group.any fun m => m.index = d)
    && (s.heads i).any fun h => !s.headLocal i h && s.under d (s.get (Head.device i h))

/-- The part of a row that a satellite sends: first head, heads, first column and width of its span, left and right band. -/
structure PartShape where
  firstHead : Nat
  heads : Nat
  col : Nat
  width : Nat
  left : Nat
  right : Nat
  deriving DecidableEq, Repr

def State.partShape (s : State) (i d : Nat) : PartShape :=
  let hs := (s.heads i).filter fun h => s.under d (s.get (Head.device i h))
  let g := fun (h : Nat) => s.geo i h 0
  match hs, hs.getLast? with
  | h :: _, some l =>
    let left := match ((s.heads i).filter (· < h)).getLast? with | some a => (g a).col0 + (g a).outWidth - (g h).col0 | none => 0
    let right := match (s.heads i).find? (l < ·) with | some b => (g l).col0 + (g l).outWidth - (g b).col0 | none => 0
    let lo := (g h).col0 + left
    ⟨h, l + 1 - h, lo, (g l).col0 + (g l).outWidth - right - lo, left, right⟩
  | _, _ => ⟨0, 0, 0, 0, 0, 0⟩

/-- The span's bytes at a cascade ratio: its budget, or its packed length. -/
def spanBytes (w n c ratio : Nat) : Nat := if ratio = 0 then ceilDiv (w * n * c) 8 else budgetOf w n c ratio

/-- The bytes of a part (Table 14-8) and of anything on the wire (R455). -/
def State.partBytes (s : State) (i : Nat) (p : PartShape) (ratio : Nat) : Nat :=
  let d := s.depth i
  let pad8 := fun (x : Nat) => ceilDiv x 8 * 8
  let band := fun (l : Nat) => pad8 (ceilDiv (l * d.1 * d.2) 8)
  32 + pad8 p.heads + pad8 (spanBytes p.width d.1 d.2 ratio) + band p.left + band p.right

def onWire (n : Nat) : Nat := n + 24 * ceilDiv n 4096

/-- Bytes of a stream's side records on the wire from a satellite: in one period, and on the average a row. -/
def State.satSides (s : State) (i d take : Nat) : Nat × Nat :=
  let hs := (s.heads i).filter fun h => s.under d (s.get (Head.device i h))
  let all := hs.map fun h => s.headSides i h take
  let tile := sumNat (all.map fun x => onWire x.1)
  let stat := sumNat (all.map fun x => onWire x.2)
  (tile + stat, ceilDiv tile 16 + ceilDiv stat (max 1 (s.bandSpan i)))

/-- Q_d over the streams given. -/
def State.satVolume (s : State) (is : List Nat) (d take : Nat) : Nat :=
  sumNat (is.map fun i => onWire (s.partBytes i (s.partShape i d) (s.satLink d take).ratio) + (s.satSides i d take).1) + 4120

/-- CASC_d in fclk cycles (R472). -/
def cascTerm (q rate rtt ow blocks : Nat) : Nat :=
  ceilDiv (q * 8 * 10001) (10 * rate) + ow + 3 * (2 * rtt + 256 + ceilDiv 32960000 rate) + (32 + ceilDiv blocks 3) + 64

/-- LEAD_d of a satellite for a stream in fclk cycles. -/
def State.lead (s : State) (is : List Nat) (i d take : Nat) : Nat :=
  let l := s.satLink d take
  let p := s.partShape i d
  let c := (s.depth i).2
  let coded := if l.ratio = 0 then 0 else codePart p.width c (s.get (Cod.effort i))
  closePart true p.width c + coded + cascTerm (s.satVolume is d take) l.rate l.rtt l.ow (if l.ratio = 0 then 0 else blocksOf p.width c)

/-! The contract. -/

/-- What STREAM_ADMIT names. -/
structure Contract where
  stream : Nat
  fast : Bool
  rate : Nat
  readouts : List (Nat × Nat)
  format : Nat
  fill : Nat
  accept : Nat
  slotsMin : Nat
  flits : Option Nat
  maxBound : Option Nat
  worldS : Bool
  deriving DecidableEq, Repr

def Ctx.contract (c : Ctx) (s : State) : Contract where
  stream := c.val 1
  fast := c.val 2 = 1
  rate := c.val 3
  readouts := (c.elems 4 8).map fun e => (leAt e 0 2, leAt e 4 4)
  format := c.val 5
  fill := c.val 6
  accept := c.val 7
  slotsMin := c.val 8
  flits := if c.has 9 then some (c.val 9) else none
  maxBound := if c.has 0xA then some (c.val 0xA) else none
  worldS := s.mbS c.mb

/-- MIN_PERIOD of a declared rate (R238), held at the width of its register. -/
def minPeriodOf (rate : Nat) : Nat := satNat (max 2500 (ceilDiv 1000000000 rate)) 0xFFFFFF

def Contract.readout (k : Contract) (h : Nat) : Nat := match k.readouts.find? fun x => x.1 = h with | some x => x.2 | none => 0

/-- The state as the contract would have it: the terms are evaluated over it. -/
def State.asIf (s : State) (k : Contract) : State :=
  let t : StreamSt := { StreamSt.reset with worldS := k.worldS, fast := k.fast, format := k.format, fill := k.fill, rate := k.rate }
  { s with dev := { s.dev with streams := Tbl.set StreamSt.reset s.dev.streams k.stream t } }

/-- What a contract that passes every term gets. -/
structure Grant where
  minPeriod : Nat
  bound : Nat
  terms : List Nat
  arrival : List Nat
  slots : Nat
  slack : Nat
  sigma : Nat
  avg : Nat
  store : List Nat
  egress : List Nat
  recordBytes : Nat
  policies : List (Nat × Nat)
  flits : Nat
  leads : List (Nat × Nat)
  deriving DecidableEq, Repr

/-- The first failure of a list of checks. -/
def firstFail : List (Option (Nat × Nat)) → Option (Nat × Nat)
  | [] => none
  | some x :: _ => some x
  | none :: rest => firstFail rest

/-- The first element that fails a check, under a term code. -/
def failAt {α : Type} (code : Nat) (detail : α → Nat) (xs : List α) (bad : α → Bool) : Option (Nat × Nat) :=
  (xs.find? bad).map fun x => (code, detail x)

def failIf (code detail : Nat) (bad : Bool) : Option (Nat × Nat) := if bad then some (code, detail) else none

/-- A local head of a stream: entry, port, VC and pipeline. -/
def State.localHeads (s : State) (i : Nat) : List (Nat × Nat × Nat × Nat) :=
  (s.heads i).filterMap fun h => (s.pipeOf i h).map fun p => (h, s.get (Head.port i h), s.get (Head.vc i h), p)

/-- The bits that a stream's heads put on a port each second, over a thousandth. -/
def State.portDemand (s : State) (i n : Nat) : Nat :=
  sumNat (((s.localHeads i).filter fun x => x.2.1 = n).map fun x =>
    let b := groupBits (s.dtOfVc n x.2.2.1)
    ceilDiv (s.get (Framer.linePixels x.2.2.2) * (if s.on (Asm.area i) then s.get (Framer.frameLines x.2.2.2) else 1) * b.1) b.2 * (s.stream i).rate)

/-- The wake policy that a pipeline would have in the contract (R73, R75). -/
def State.policyFor (s : State) (k : Contract) (p n vc : Nat) : Nat :=
  let own := Tbl.get 0xFF s.dev.pwr.policies p
  let b := groupBits (s.dtOfVc n vc)
  let px := s.get (Framer.linePixels p) * (if s.on (Asm.area k.stream) then s.get (Framer.frameLines p) else 1)
  if k.fast then 0
  else if own ≠ 0xFF then own
  else if s.boundAdmitted p then Tbl.get 1 s.dev.pwr.resolved p
  else if 24200 ≤ 2 * minPeriodOf k.rate
      ∧ px * b.1 * 14000000000 ≤ (2 * minPeriodOf k.rate - 24200) * s.usable7 n * b.2 then 2 else 1

/-- Free granules of a world for row stores and egress buffers (R344, R424). -/
def State.freeGranules (s : State) (worldS : Bool) : List Nat :=
  let used := (allStreams.filter s.admitted).flatMap fun i => (s.stream i).rowGranules ++ (s.stream i).egressGranules
  ((List.range 640).drop 16).filter fun g => s.granuleS g = worldS && !used.contains g

/-- Line slots of a head (R344). -/
def State.lineSlots (s : State) (i h minPeriod : Nat) : Nat :=
  let top := ((s.heads i).map (s.headOff i)).foldl max 0
  if s.on (Asm.area i) then 4
  else (if 4 ≤ s.get (Trig.source i) then 0 else ceilDiv (top - s.headOff i h) (s.pitch i))
    + ceilDiv (s.get (Trig.trigDelay i) + s.get (Asm.deadline i)) minPeriod + 1

/-- The bytes of a stream's row store. -/
def State.storeBytes (s : State) (i minPeriod : Nat) : Nat :=
  let d := s.depth i
  sumNat (((s.heads i).filter (s.headLocal i)).map fun h =>
    s.lineSlots i h minPeriod * (64 * ceilDiv (s.get (Geo.outWidth i h) * (d.1 * d.2 + 1)) 512))

/-- What a cluster hands over in one row of a stream: segment bytes, and side bytes of one period and on the average (R408). In a bypass
row each cluster hands over its own columns. -/
def State.linkVolume (s : State) (i c take : Nat) : Nat × Nat × Nat :=
  let d := s.depth i
  let seg := if s.get (Cod.ratio i) = 0 then
      sumNat (((s.spans i).filter fun x => x.1 = nidCluster c).map fun x => ceilDiv (x.2.2 * d.1 * d.2) 8)
    else sumNat (((s.segMap i).filter fun x => x.2.2.2 = nidCluster c).map fun x => x.2.2.1)
  let all := ((s.localHeads i).filter fun x => x.2.2.2 / 8 = c).map fun x => s.headSides i x.1 take
  let tile := sumNat (all.map Prod.fst)
  let stat := sumNat (all.map Prod.snd)
  (seg, tile + stat, ceilDiv tile 16 + ceilDiv stat (max 1 (s.bandSpan i)))

/-- The row's share of the average: one in AUDIT_PERIOD in cutout mode. -/
def State.auditOf (s : State) (i : Nat) : Nat := if (s.asm i).cutout then (s.asm i).audit else 1

/-- The size of a fast stream's largest record. -/
def State.fastSize (s : State) (i : Nat) : Nat :=
  ((s.localHeads i).map fun x =>
    let w := match inFmt (s.dtOfVc x.2.1 x.2.2.1) with | some f => f.w | none => 8
    64 + 32 * ceilDiv (s.get (Geo.cropWidth i x.1) * w) 256).foldl max 0

/-- Does the ring in a slot serve a stream of a world? -/
def State.ringFits (s : State) (slot : Nat) (worldS : Bool) (least : Nat) : Bool :=
  s.on (Ring.enable slot) && s.on (Ring.world slot) = worldS && least ≤ s.get (Ring.count slot)

/-- The largest side record of a stream in 64-byte units. -/
def State.sideUnits (s : State) (i : Nat) : Nat :=
  let d := s.depth i
  let emb := (s.localHeads i).any fun x => (portsOf x.2.2.2).any fun n =>
    (s.steers n).any fun e => e.2.action = 1 && e.2.pipe = x.2.2.2 % 8
  let sizes := (s.localHeads i).flatMap fun x =>
    (if s.on (Scr.enable x.2.2.2) then [mapSize (s.get (Framer.linePixels x.2.2.2))] else [])
      ++ (if s.on (Reg.Col.enable x.2.2.2) then [s.statSize x.2.2.2] else [])
  let more := (if (s.asm i).cutout then [cutSize d.1 d.2] else []) ++ (if (s.asm i).tagEn then [sideSize 80] else [])
    ++ (if emb then [sideSize (16 + 65536)] else [])
  (s.statusSize i :: sizes ++ more).foldl max 0 / 64

/-- Terms 0x01 to 0x06 (Table 13-1). -/
def State.earlyTerms (s : State) (k : Contract) : Option (Nat × Nat) :=
  let i := k.stream
  let hs := s.heads i
  let lh := s.localHeads i
  let live := (allStreams.filter fun j => s.admitted j && j ≠ i)
  let triple := fun (j h : Nat) => (s.get (Head.device j h), s.get (Head.port j h), s.get (Head.vc j h))
  let ports := (lh.map fun x => x.2.1).dedup
  let pipes := (lh.map fun x => x.2.2.2).dedup
  firstFail [
    failAt 1 id hs (fun h => (hs.any fun g => g < h && triple i g = triple i h)
      || (live.any fun j => (s.heads j).any fun g => triple j g = triple i h)
      || (s.headLocal i h && (s.pipeOf i h).isNone)),
    failAt 2 id pipes (fun p =>
      if k.fast then (s.dtsOf p).any fun d => !(0x2A ≤ d && d ≤ 0x2E)
      else !(7 ≤ k.format || (4 ≤ k.format && k.format ≤ 6) = s.threePath p)),
    failAt 3 id ports (fun n => s.usable7 n < 7 * sumNat ((i :: live).map fun j => s.portDemand j n)),
    failAt 4 id pipes (fun p =>
      let ns := ((lh.filter fun x => x.2.2.2 = p).map fun x => (x.2.1, groupBits (s.dtOfVc x.2.1 x.2.2.1))).dedup
      let one := fun (n : Nat) => (ns.filter fun x => x.1 = n).map fun x => s.usable7 n * x.2.2 * 1000 / x.2.1
      9800000000000 < sumNat ((ns.map Prod.fst).dedup.map fun n => (one n).foldl max 0)),
    failAt 5 (fun x => x.2.1) lh (fun x =>
      14000000000 * 8 * s.guaranteed x.2.1 (x.2.2.2 % 8)
        < (wakeTerm (s.policyFor k x.2.2.2 x.2.1 x.2.2.1) + s.waitTerm x.2.2.2 x.2.1 x.2.2.1) * s.usable7 x.2.1),
    failAt 6 (fun p => p / 8) pipes (fun p => !s.on (Role.spareValid (p / 8)) && s.get (Role.spareK (p / 8)) = p % 8)]

/-- ARRIVAL_h by its terms in half ns (Table 13-3). -/
def State.arrival (s : State) (k : Contract) (is : List Nat) (h take : Nat) : List Nat :=
  let i := k.stream
  let hop := 5 * headOp (s.on (Geo.resample i h))
  let n := s.get (Head.port i h)
  let vc := s.get (Head.vc i h)
  match s.pipeOf i h with
  | some p => [2 * k.readout h, if n < 48 then 2 * s.get (Port.rtxTerm n) else 0, wakeTerm (s.policyFor k p n vc), s.waitTerm p n vc,
      5 * s.get (Node.latency (nidPipe p)), hop, 0]
  | none =>
    let d := s.get (Head.device i h)
    let far := fun (x : Nat) => Config.memberReport d x h take
    let leads := ((s.satsOf i).filter fun x => s.under x d).map fun x => s.lead is i x take
    [2 * k.readout h, 2 * far 6, wakeTerm (far 7 % 4), 5 * far 8, 5 * far 9, hop, 2 * sumNat leads]

/-- The arrival checks of a head: R249 and R244. -/
def State.headBad (s : State) (k : Contract) (h : Nat) : Bool :=
  let i := k.stream
  minPeriodOf k.rate ≤ s.get (Head.hdrMax i h) - s.get (Head.hdrMin i h) || k.readout h < s.get (Head.hdrMax i h)
    || (s.headLocal i h && s.on (Head.route i h) && s.get (Pin.func (s.get (Head.line i h))) ≠ 1)

/-- Terms in half ns as whole ns, rounded up. -/
def wholeNs (x : Nat) : Nat := ceilDiv x 2

/-- Half ns to the terms of Table 13-2 in ns. -/
def State.boundTerms (s : State) (k : Contract) (prod link carousel : Nat) : List Nat :=
  [s.get (Asm.deadline k.stream), wholeNs prod, link, carousel, 48, s.get Car.replayTerm, k.accept]

/-- A processed stream: terms 0x07 to 0x10. -/
def State.gradeProcessed (s : State) (k : Contract) (take : Nat) : (Nat × Nat) ⊕ Grant :=
  let i := k.stream
  let mp := minPeriodOf k.rate
  let d := s.depth i
  let hs := s.heads i
  let lh := s.localHeads i
  let live := i :: (allStreams.filter fun j => s.admitted j && j ≠ i && !(s.stream j).fast)
  let pipes := (lh.map fun x => x.2.2.2).dedup
  let clusters := (pipes.map (· / 8)).dedup
  let gs := hs.map fun h => s.geo i h 0
  let bands := seamBands gs
  let deadline := 2 * s.get (Asm.deadline i)
  let prod := s.prodTime i
  let area := s.on (Asm.area i)
  let arr := hs.map fun h => s.arrival k live h take
  let sums := arr.map sumNat
  let worst := sums.foldl max 0
  let period := if area then s.get (Asm.areaLineNs i) else mp
  let t1 := firstFail [
    failIf 7 0 ((s.asm i).cutout && pipes.any fun p => !s.on (Scr.enable p) || s.timeShared p
      || 393216 < 16 * s.get (Framer.linePixels p) * d.1 * d.2 / 8),
    failIf 8 0 ((pipes.any fun p => s.on (Framer.area p) ≠ area || (area && s.get (Framer.frameLines p) ≠ s.frameLines i))
      || !((match gs with | g :: _ => g.col0 = 0 | [] => false)
        && bands.all (fun l => decide (0 ≤ l ∧ l ≤ 256))
        && (gs.zip bands).all (fun x => decide ((x.1.cut : Int) ≤ x.2))
        && (gs.zip ((0 :: bands).zip (bands ++ [0]))).all (fun x => decide (x.2.1 + x.2.2 ≤ (x.1.outWidth : Int)))
        && rowWidth gs ≤ 1048576 && (hs.zip gs).all fun x => s.entryFits i x.1 x.2)
      || ((hs.zip arr).any fun x => deadline < 2 * k.readout x.1 + x.2.getD 4 0 + x.2.getD 5 0)
      || 2 * period < prod),
    failAt 9 id (List.range (s.segMap i).length) (fun j =>
      s.get (Cod.ratio i) ≠ 0 && (match (s.segMap i)[j]? with | some g => !segmentOk g.2.1 d.2 g.2.2.1 | none => false)),
    failAt 0xA (fun x => x.1) (hs.zip sums) (fun x => s.headBad k x.1 || deadline < x.2)]
  match t1 with
  | some e => .inl e
  | none =>
    let free := s.freeGranules k.worldS
    let need := ceilDiv (s.storeBytes i mp) 65536
    let volume := fun (c : Nat) => live.map fun j => (j, s.linkVolume j c take)
    let q := fun (c : Nat) => sumNat ((volume c).map fun x => x.2.1 + x.2.2.1)
    let long := fun (c : Nat) => sumNat ((volume c).map fun x => (ceilDiv x.2.1 (s.auditOf x.1) + x.2.2.2) * (s.stream x.1).rate)
    let link := (clusters.map fun c => ceilDiv (q c) 64 + 16).foldl max 0
    let sv := s.sides i take
    let rec' := 64 + s.streamBudget i
    let st := s.statusSize i
    let sigma := rec' + sv.1 + sv.2 + st
    let avg := ceilDiv rec' (s.auditOf i) + ceilDiv sv.1 16 + ceilDiv sv.2 (max 1 (s.bandSpan i)) + st
    let dd := ceilDiv (avg * 16384) mp
    let sb := slotBytes s.rawBpc (s.get Car.fastFlits)
    let n := max (max k.slotsMin 1) (ceilDiv (11 * dd) (10 * sb))
    let egress := ceilDiv (2 * sigma + avg * ceilDiv k.accept mp) 65536
    let terms := s.boundTerms k prod link (carouselTerm sigma n sb)
    let bound := sumNat terms
    let t2 := firstFail [
      failIf 0xB 0 (free.length < need),
      failAt 0xC id clusters (fun c => 56000000000 < long c),
      failIf 0xD 0 (sb = 0 || s.freeSlots.length < n),
      failIf 0xE 0 (free.length < need + egress),
      failIf 0xF i (!s.ringFits i k.worldS 2),
      failIf 0xF (16 + i) (!s.ringFits (16 + i) k.worldS (2 * s.sideUnits i)),
      failAt 0x10 id (s.satsOf i) (fun x =>
        let l := s.satLink x take
        let p := s.partShape i x
        let mb := sumNat (live.map fun j =>
          (onWire (s.partBytes j (s.partShape j x) l.ratio) + (s.satSides j x take).2) * 8 * (s.stream j).rate)
        !l.up || !l.locked || (l.ratio ≠ 0 && !segmentOk p.width d.2 (spanBytes p.width d.1 d.2 l.ratio)) || 7 * l.rate * 1000000 < 8 * mb),
      failIf 0x12 0 (match k.maxBound with | some m => m < bound | none => false)]
    match t2 with
    | some e => .inl e
    | none => .inr {
        minPeriod := mp, bound := bound, terms := terms
        arrival := ((arr.zip sums).find? fun x => x.2 = worst).elim [] (fun x => x.1.map wholeNs)
        slots := n, slack := satNat ((deadline - worst) / 5) 0xFFFFFF, sigma := sigma, avg := avg
        store := free.take need, egress := (free.drop need).take egress, recordBytes := rec'
        policies := lh.map fun x => (x.2.2.2, s.policyFor k x.2.2.2 x.2.1 x.2.2.1), flits := s.get Car.fastFlits
        leads := (s.satsOf i).map fun x => (x, s.lead live i x take) }

/-- Would a FAST_FLITS break a processed stream's bound or share (R436)? -/
def State.fastBreaks (s : State) (flits : Nat) : Option Nat :=
  let sb := slotBytes s.rawBpc flits
  (allStreams.filter fun j => s.admitted j && !(s.stream j).fast).find? fun j =>
    let t := s.stream j
    let n := s.get (Del.slots j)
    sb = 0 || s.get (Del.boundNs j) < sumNat t.terms - t.terms.getD 3 0 + carouselTerm t.sigma n sb
      || n * sb * 10 < 11 * ceilDiv (t.avg * 16384) (s.get (Trig.minPeriod j))

/-- A fast stream (R434 to R439). Its egress buffer is sized from its records (DEDUCED, log entry 14). -/
def State.gradeFast (s : State) (k : Contract) : (Nat × Nat) ⊕ Grant :=
  let i := k.stream
  let mp := minPeriodOf k.rate
  let hs := s.heads i
  let lh := s.localHeads i
  let others := allStreams.filter fun j => s.admitted j && j ≠ i && (s.stream j).fast
  let flits := if others.isEmpty then k.flits.getD 0 else s.get Car.fastFlits
  let ports := ((i :: others).flatMap fun j => (s.localHeads j).map fun x => x.2.1).dedup
  let pipes := (lh.map fun x => x.2.2.2).dedup
  let size := s.fastSize i
  let avg := hs.length * size
  let free := s.freeGranules k.worldS
  let egress := ceilDiv (2 * avg + avg * ceilDiv k.accept mp) 65536
  let embedded := fun (p : Nat) => (portsOf p).any fun n => (s.steers n).any fun e => e.2.action = 1 && e.2.pipe = p % 8
  let head := (hs.map fun h =>
    let n := s.get (Head.port i h)
    (k.readout h + (if n < 48 then s.get (Port.rtxTerm n) + 180 else 168), k.readout h, if n < 48 then s.get (Port.rtxTerm n) else 0))
  let top := (head.map fun x => x.1).foldl max 0
  let at_ := (head.find? fun x => x.1 = top).getD (0, 0, 0)
  let bound := top + 64 + s.get Car.replayTerm + k.accept
  let fails := firstFail [
    failAt 0xA id hs (s.headBad k),
    failIf 0xE 0 (free.length < egress),
    failIf 0xF i (!s.ringFits i k.worldS 2),
    failIf 0x11 0 (!(hs.all (s.headLocal i)) || (pipes.any fun p => s.timeShared p || embedded p)
      || s.rawBpc < 128 * flits || flits = 0 || (!others.isEmpty && (match k.flits with | some f => f ≠ flits | none => false))
      || 7 * 7 * flits * 64000000000 < sumNat (ports.map s.usable7)),
    if others.isEmpty then (s.fastBreaks flits).map fun j => (0x11, j) else none,
    failIf 0x12 0 (match k.maxBound with | some m => m < bound | none => false)]
  match fails with
  | some e => .inl e
  | none => .inr {
      minPeriod := mp, bound := bound, terms := [0, 0, 0, 0, top - at_.2.1 - at_.2.2 + 64, s.get Car.replayTerm, k.accept]
      arrival := [at_.2.1, at_.2.2, 0, 0, 0, 0, 0], slots := 0, slack := 0, sigma := avg, avg := avg
      store := [], egress := free.take egress, recordBytes := size, policies := lh.map fun x => (x.2.2.2, 0), flits := flits, leads := [] }

/-- Evaluating a contract: the term and detail that fail first, or what it is granted. -/
def State.grade (s : State) (k : Contract) (take : Nat) : (Nat × Nat) ⊕ Grant :=
  let t := s.asIf k
  match t.earlyTerms k with
  | some e => .inl e
  | none => if k.fast then t.gradeFast k else t.gradeProcessed k take

end Sys2Proof.Machine
end

