-- ==== Sys2Proof/Machine/Join.lean ====
section
/-! DEFINITION. Who belongs to a group: enumeration, device indices, and what the root's firmware tells members of streams (R17, R18, R468,
R469, R475). -/

namespace Sys2Proof.Machine
open Reg

def setMember (d : Nat) (f : Member → Member) : Prog := dev fun x => { x with group := x.group.map fun m => if m.index = d then f m else m }

/-! What the root's firmware tells a member (log entry 8). -/

/-- Control payloads of the model's own layout beside commands (0), reads (1) and writes (2): a stream admitted, a stream released, a
join index, an index given, a device found below, a command aborted. -/
abbrev ctlAdmit : Nat := 3
abbrev ctlRelease : Nat := 4
abbrev ctlJoin : Nat := 5
abbrev ctlIndex : Nat := 6
abbrev ctlChild : Nat := 7
abbrev ctlAbort : Nat := 8

def tellMember (d op : Nat) (body : List Byte) : Prog := sendCtrl d false .note (leBytes 4 op ++ body)

/-- An admission as a satellite learns it: the stream, its format, fill, rate, world, and the lead of each satellite. -/
def tellAdmitTo (i d : Nat) : Prog := look fun s =>
  let t := s.stream i
  tellMember d ctlAdmit (leBytes 1 i ++ leBytes 1 t.format ++ leBytes 2 t.fill ++ leBytes 4 t.rate
    ++ leBytes 1 (boolNat t.worldS) ++ zeros 3 ++ t.leads.flatMap fun l => leBytes 4 l.1 ++ leBytes 4 l.2)

def tellAdmit (i : Nat) : Prog := look fun s => forEach (s.satsOf i) (tellAdmitTo i)

def tellRelease (i : Nat) : Prog := look fun s => forEach (s.satsOf i) fun d => tellMember d ctlRelease (leBytes 4 i)

/-- A join index that no stream reaches: J is still to be chosen. -/
def noIndex : Nat := 2 ^ 48

/-! Enumeration. -/

/-- "Join refused" on a quad: 0 limit, 1 below admitted, 2 no free index. -/
def joinRefused (q reason : Nat) : Prog := raise 0x0C 7 1 [BitVec.ofNat 8 q, BitVec.ofNat 8 reason]

/-- The index that a device takes at a place in the tree, or why it gets none: its former index, the lowest free one, or the reserved one
whose device left earliest and that no head entry of an admitted stream names (R18, R469). -/
def State.indexFor (s : State) (parent quad depth : Nat) : Nat ⊕ Nat :=
  let g := s.dev.group
  let here := (g.filter fun m => m.leftSeq = 0).length
  match g.find? fun m => m.parent = parent && m.quad = quad with
  | some m => .inl m.index
  | none =>
    if 15 ≤ here ∨ 8 ≤ depth then .inr 0
    else match ((List.range 16).drop 1).find? fun x => !(g.any fun m => m.index = x) with
      | some x => .inl x
      | none =>
        let named := fun (x : Nat) => allStreams.any fun i => s.admitted i && (s.heads i).any fun h => s.get (Head.device i h) = x
        match leastBy Member.leftSeq (g.filter fun m => m.leftSeq ≠ 0 && !named m.index) with
        | some m => .inl m.index
        | none => .inr 2

/-- A member takes its place: a device that was here before keeps what its streams were admitted with (R475). -/
def placeMember (x parent depth : Nat) (f : Found) : Prog := dev fun d =>
  let old := d.group.find? fun m => m.index = x && m.parent = parent && m.quad = f.quad.val
  { d with group := d.group.filter (fun m => m.index ≠ x) ++
    [{ index := x, parent := parent, quad := f.quad.val, depth := depth, uid := f.uid, form := f.form, formLevel := f.formLevel,
       ifLevel := f.ifLevel, joined := false, leftSeq := 0, locked := false, hold := false,
       need := match old with | some m => m.need | none => (0, 0), joinAt := [] }] }

/-- What a satellite is told of a device found below it. -/
def childBytes (x depth : Nat) (f : Found) : List Byte :=
  leBytes 1 x ++ leBytes 1 f.quad.val ++ leBytes 1 depth ++ leBytes 1 (boolNat f.form) ++ leBytes 1 f.formLevel ++ leBytes 1 f.ifLevel ++ zeros 2
    ++ slice f.uid 0 16

/-- The devices found behind a link take their indices in the order of the walk; got holds the indices of those before. A device whose
parent has none gets none. Its parent learns of it, and it of its index. What was found is kept where a device got none. -/
def enumerate (q : Nat) (again : Bool) (all : List Found) : List Found → List (Option Nat) → Prog
  | [], got => setQuad q fun t => { t with refused := if got.contains none then all else [] }
  | f :: fs, got => look fun s =>
    let parent := match f.up with | none => some s.dev.ownIndex | some k => (got.getD k.val none)
    match parent with
    | none => enumerate q again all fs (got ++ [none])
    | some p =>
      let depth := 1 + (match s.dev.group.find? fun m => m.index = p && p ≠ s.dev.ownIndex with | some m => m.depth | none => s.dev.ownDepth)
      match s.dev.group.find? fun m => m.parent = p && m.quad = f.quad.val && m.leftSeq = 0 with
      | some m => enumerate q again all fs (got ++ [some m.index])
      | none =>
        match s.indexFor p f.quad.val depth with
        | .inl x => block [placeMember x p depth f,
            if p = s.dev.ownIndex then set (Quad.peer q) x else tellMember p ctlChild (childBytes x depth f),
            tellMember x ctlIndex (leBytes 2 x ++ leBytes 2 depth),
            enumerate q again all fs (got ++ [some x])]
        | .inr r => block [when (!again) (joinRefused q r), enumerate q again all fs (got ++ [none])]

/-- Joins that were refused are tried again each time a stream closes (R469). -/
def retryJoins : Prog := look fun s =>
  forEach ((List.range 4).filter fun q => (s.quad q).refused ≠ [] && s.get (Quad.lstate q) = lUp && !s.on BootReg.role) fun q => look fun s =>
    enumerate q true (s.quad q).refused (s.quad q).refused []

/-! Join indices (R475). -/

/-- J of a member for a stream. -/
def setJoin (d i j : Nat) : Prog := setMember d fun m => { m with joinAt := Tbl.set 0 m.joinAt i j }

/-- A stream starts: members that completed their join while it was stopped serve it from the index chosen now. -/
def joinAtStart (i : Nat) : Prog := look fun s =>
  forEach (s.dev.group.filter fun m => m.joined && m.locked && Tbl.get 0 m.joinAt i = noIndex) fun m => setJoin m.index i (s.earliestN i)

/-- A stream closes: its join indices are forgotten, its satellites release it, refused joins are tried again. -/
def groupRelease (i : Nat) : Prog := block [
  look fun s => when (!s.on BootReg.role) (block [tellRelease i,
    dev fun d => { d with group := d.group.map fun m => { m with joinAt := Tbl.erase m.joinAt i } }]),
  retryJoins]

/-- The time of a member unlocks before its J: the index has to be chosen again (Table 14-10). -/
def unlockMember (d : Nat) : Prog := look fun s =>
  setMember d fun m => { m with
    locked := false, joinAt := m.joinAt.map fun x => if s.next x.1 ≤ x.2 then (x.1, noIndex) else x }

end Sys2Proof.Machine
end

