-- ==== Sys2Proof/Machine/Modes.lean ====
section
/-! DEFINITION. Device modes and what ends with them: mode changes, stopping and closing streams, Safe-hold and power-down (R51 to R66,
R443). -/

namespace Sys2Proof.Machine
open Reg

/-! Mode changes (R55, R59). -/

/-- Causes of Table 2-6. -/
abbrev byCommand : Nat := 2
abbrev byStart : Nat := 3
abbrev byLastClose : Nat := 4
abbrev byWake : Nat := 5
abbrev byFault : Nat := 6
abbrev byStop : Nat := 7
abbrev byTrip : Nat := 8
abbrev bySensors : Nat := 0xA
abbrev byHandover : Nat := 0xB

/-- The state of the device node in a mode (DEDUCED, log entry 15): off in Boot, retained in Standby, gated in Safe-hold. -/
def deviceState (mode : Nat) : Nat :=
  if mode = mBoot then stOff else if mode = mStandby then stRetained else if mode = mSafeHold then stGated else stRunning

/-- A transition is complete: MODE, TARGET, PENDING and CAUSE, "mode changed", and the alerts of R493. -/
def modeChange (new cause : Nat) : Prog := look fun s =>
  let old := s.mode
  block [
    set ModeReg.modeF new, set ModeReg.target new, set ModeReg.pending 0, set ModeReg.cause cause, setState 1 (deviceState new),
    raiseIn false 3 1 1 (leBytes 1 new ++ leBytes 1 old ++ leBytes 1 cause),
    raiseAlert 2, when (new = mSafeHold) (raiseAlert 5)]

/-- A transition is requested. -/
def modePend (target : Nat) : Prog := block [set ModeReg.target target, set ModeReg.pending 1]

/-- Does any stream run: is it started or stopping? -/
def State.anyRunning (s : State) : Bool := allStreams.any fun i => s.sState i = sStarted || s.sState i = sStopping

/-- The last started stream has ended: Acquire gives way to Armed (Table 2-2), unless the device is on its way to Safe-hold. -/
def lastStreamEnds : Prog := look fun s => when (s.mode = mAcquire && !s.anyRunning && !s.dev.pwr.stopping) (modeChange mArmed byLastClose)

/-! Stopping (R443). -/

/-- No further index is issued. -/
def stopIssuing (i : Nat) : Prog := block [setGen i fun g => { g with issuing := false }, set (Del.state i) sStopping]

/-- Head thresholds of issued indices that have not fired resolve absent. -/
def dropThresholds (i : Nat) : Prog := look fun s => block [
  forEach (s.gen i).thrs fun x => slotAbsent i x.head x.index,
  setGen i fun g => { g with thrs := [] }]

/-- The SEQ of the last row record of a stream; where it has none, the manual gives no value. -/
def lastSeq (i : Nat) (k : Nat → Prog) : Prog := look fun s =>
  if (s.stream i).seq = 0 then fresh fun v => k v else k ((s.stream i).seq - 1)

/-- A stopping stream has stopped: open periods and tile rows are reported, "stream stopped". A stream that is being closed sends its
final tag. -/
def streamStopped (i : Nat) : Prog := look fun s => when (s.sState i = sStopping) (block [
  measureStop i, set (Trig.armed i) 0, set (Del.state i) sAdmitted,
  lastSeq i fun n => raiseStream 3 i (leBytes 6 n),
  when ((s.stream i).closing.isSome) (sendTag i (s.band i (s.next i - 1)) true s.now),
  finishKey 0xB 3 1 i (fun _ => .skip) 0,
  lastStreamEnds])

/-! Closing (R58, R443). -/

/-- Causes of "stream closed" (Table 13-16). -/
abbrev closedByCommand : Nat := 0
abbrev closedBySafeHold : Nat := 1
abbrev closedByReset : Nat := 2
abbrev closedByNWorld : Nat := 3

/-- The pipelines of a stream. -/
def State.pipesOf (s : State) (i : Nat) : List Nat := ((s.localHeads i).map fun x => x.2.2.2).dedup

/-- A stream's admission is released: queues flushed, held banks Loaded, swaps cancelled, slots and granules free, "stream closed"; its
satellites release it. -/
def releaseStream (i cause : Nat) : Prog := look fun s =>
  let t := s.stream i
  let ps := s.pipesOf i
  let mine := ps.filter fun p => s.streamsOf p = [i]
  let lastFast := t.fast && !(allStreams.any fun j => j ≠ i && s.admitted j && (s.stream j).fast)
  block [
    forEach (s.dev.swaps.filter fun x => x.2.stream = i) fun x => cancelSwap x.1,
    flushStream i,
    forEach ps fun p => forEach [0, 1] fun b => look fun s => when (s.get (bankState p b) = 3) (set (bankState p b) 1),
    when lastFast (set Car.fastFlits 0),
    setPwr fun x => { x with
      resolved := x.resolved.filter fun r => !mine.contains r.1, inEffect := x.inEffect.filter fun k => k / 16 ≠ i + 1 },
    forEach [Del.state i, Del.suspended i, Del.fast i, Del.slots i, Del.egressGranules i, Del.slack i, Asm.admitted i, Asm.storeGranules i,
      Asm.storeFirst i, Asm.openRows i, Trig.armed i] fun f => set f 0,
    setGen i fun _ => GenSt.reset,
    setAsm i fun a => { a with rows := [], ends := [], lastIssued := none, firstBand := none, refs := [], fresh := true, armedMatch := none, oldMatch := [], parked := [], tag := TagSt.reset },
    showMatchOff, set (Cod.effortPending i) 0, set (Cod.effortIndexLo i) 0, set (Cod.effortIndexHi i) 0,
    setJournal fun j => j.filter fun e => match e.phase with
      | .armed st _ => !(st = i && ((e.cls = 9 && e.code = 3) || (e.cls = 0xA && e.code = 2) || e.cls = 0x10))
      | _ => true,
    dev fun d => { d with slotPlan := d.slotPlan.filter fun p => p.2 ≠ i },
    when (!s.on BootReg.role) (raiseStream 4 i (leBytes 1 cause)),
    finishKey 0xB 3 1 i (fun _ => .skip) 0, finishKey 0xB 4 1 i (fun _ => .skip) 0,
    setStream i fun t => { StreamSt.reset with
      worldS := t.worldS, format := t.format, fill := t.fill, dropped := t.dropped, rows := t.rows, marked := t.marked, lastSeq := t.lastSeq },
    noteLatency, lastStreamEnds, groupRelease i]
where
  showMatchOff : Prog := block [set (Asm.matchPending i) 0, set (Asm.matchIndexLo i) 0, set (Asm.matchIndexHi i) 0]

/-- A stream closes at once: rows that are not complete in host memory count as dropped. -/
def closeNow (i cause : Nat) : Prog := look fun s => when (s.admitted i) (
  let t := s.stream i
  let n := (s.asm i).rows.length + (t.fifo.filter fun r => !r.side).length + t.flight.length
  block [when (n ≠ 0) (dropRow i n), releaseStream i cause])

/-- The commands whose transition is abandoned end with 0x33. -/
def abandonModes : Prog := look fun s =>
  forEach (s.dev.journal.filter fun e => e.cls = 3 && (e.code = 2 || e.code = 9) && e.phase = .pending) fun e => completeCmd e 0x33

/-! Safe levels (R54, Table 2-3). -/

/-- Timing pins configured as outputs go to their safe level. -/
def pinsSafe : Prog := look fun s =>
  forEach ((List.range 32).filter fun n => s.get (Pin.func n) = 1 || s.get (Pin.func n) = 2) fun n =>
    emit (if s.on (Pin.safe n) then .highZ (2 ^ n) else .pin n 0)

/-- After a hardware trip every output pin is high-impedance. -/
def pinsHighZ : Prog := look fun s =>
  forEach ((List.range 32).filter fun n => s.get (Pin.func n) = 1 || s.get (Pin.func n) = 2) fun n => emit (.highZ (2 ^ n))

def allPipes : List Nat := List.range 64
def allClusters : List Nat := List.range 8

/-- Nodes that run are gated where a mode permits no running node (Table 2-8). -/
def gateNodes : Prog := look fun s => block [
  forEach allPipes fun p => block [
    when (s.get (Node.state (nidPipe p)) = stCalibrating) (abortCapture p),
    when (s.awake p) (setState (nidPipe p) stGated), setSleep p 0],
  forEach allClusters fun c => when (s.get (Node.state (nidCluster c)) = stRunning) (setState (nidCluster c) stGated)]

/-! Safe-hold (R55, R58). -/

/-- What Standby switched off runs again: control complex, root fabric, bridge, cascade quads in use, time port (R53, Table 2-9). -/
def powerRoot : Prog := look fun s => block [
  setDomain 1 true false, forEach [2, 4, 5, 6, 12] fun d => setDomain d true false,
  forEach (List.range 4) fun q => when (s.on (Quad.enable q) || s.on (Quad.upstream q)) (setDomain (7 + q) true false),
  when (s.dev.ptp.role ≠ 0) (setDomain 11 true false),
  setFwReady true]

/-- The halt of the control cores ends (R545): FW_READY is what it was. -/
def releaseHalt : Prog := look fun s => when (s.on Dbg.halted) (block [
  set Dbg.halted 0, setFwReady s.dev.sec.haltedFwReady, raise 0x11 3 1 [0]])

/-- The debug domain is powered in an open state and a mode with a running device (R540). -/
def debugDomain : Prog := look fun s =>
  let runs := s.mode = mArmed || s.mode = mAcquire || s.mode = mMaintenance || (s.mode = mSafeHold && s.get Therm.state ≠ 4)
  setDomain 3 (s.get Dbg.state ≠ 0 && runs) false

/-- Entering Safe-hold: every stream closes at once, a transition under way is abandoned, outputs go to their safe levels. A fault of a
block stands until its BIST (R56). -/
def safeHoldFor (cause : Nat) (block_ : Bool) : Prog := look fun s =>
  if s.mode = mBoot ∨ s.mode = mSafeHold then setPwr fun x => { x with faultLive := x.faultLive || block_ }
  else block [
    setPwr fun x => { x with stopping := true },
    forEach allStreams fun i => closeNow i closedBySafeHold,
    abandonModes, gateNodes, pinsSafe, releaseHalt,
    when (s.mode = mStandby) powerRoot,
    setPwr fun x => { x with faultLive := x.faultLive || block_, stopping := false, wakeNext := none },
    modeChange mSafeHold cause, debugDomain]

def safeHold (cause : Nat) : Prog := safeHoldFor cause (cause = byFault)

/-! Power-down of a pipeline and of a cluster. -/

/-- The configuration of a pipeline is lost: registers, memories, and what it was doing; LATENCY follows the reset configuration
(R49). -/
def resetPipe (p : Nat) : Prog := block [
  resetRegs (pipeBase p) 0x100000, clearMem (pipeBase p) 0x100000, setPipe p fun _ => PipeSt.reset,
  updateLatency p,
  setEcc fun l => l.filter fun e => !(pipeBase p ≤ e.1 && e.1 < pipeBase p + 0x100000)]

/-- A pipeline goes Off; Retired and Faulted stand (R66). -/
def offPipe (p : Nat) : Prog := look fun s =>
  let st := s.get (Node.state (nidPipe p))
  block [
    setSleep p 0, setDomain (29 + p) false false, resetPipe p,
    when (st ≠ stRetired && st ≠ stFaulted) (setState (nidPipe p) stOff)]

/-- The ports of a cluster go off: their configuration is the cluster's (R68). -/
def offPort (n : Nat) : Prog := look fun s => block [
  setPort n fun _ => PortSt.reset, setDomain (93 + n) false false,
  when (s.on (Port.enable n)) (emit (.portReset n)), tunnelDown n]

/-- A cluster common goes off with its retention bank kept or not. Its pipelines are retained with it or lost. -/
def offCluster (c : Nat) (retain : Bool) : Prog := look fun s =>
  let st := s.get (Node.state (nidCluster c))
  let base := 0x10000000 + 0x01000000 * c
  let ps := allPipes.filter fun p => p / 8 = c
  if !s.domainOn (13 + c) then .skip
  else block [
    forEach ((List.range 6).map (fun k => 6 * c + k) ++ [48 + c]) offPort,
    if retain then forEach ps fun p => look fun s =>
        let ps := s.get (Node.state (nidPipe p))
        when (ps ≠ stOff) (block [setSleep p 0, setDomain (29 + p) false true,
          when (ps ≠ stRetired && ps ≠ stFaulted) (setState (nidPipe p) stRetained),
          setPipe p fun t => { t with line := none, frame := none, out := [], store := [], capture := [], swatch := 0 }])
      else forEach ps offPipe,
    if retain then block [clearMem (base + 0x400000) 0x80000,
        forEach ((List.range 6).map (fun k => 6 * c + k) ++ [48 + c]) fun n => block [
          set (Port.link n) 0, set (Port.gear n) 0, set (Port.rate n) 0, set (Port.rtxActive n) 0, set (Port.bufOcc n) 0]]
      else block [resetKept base, clearMem base 0x01000000, setEcc fun l => l.filter fun e => !(base ≤ e.1 && e.1 < base + 0x01000000)],
    setDomain (13 + c) false retain, setDomain (21 + c) retain false,
    setPwr fun x => { x with plls := x.plls.filter (· ≠ c), idleUs := if retain then x.idleUs else Tbl.erase x.idleUs c },
    when (st ≠ stRetired && st ≠ stFaulted) (setState (nidCluster c) (if retain then stRetained else stOff))]
where
  /-- The role register reports the assignment of the spare role and what is Retired, which survive (R34, R64); bindings go with the
  steering entries. -/
  resetKept (base : Nat) : Prog := look fun s => block [
    resetRegs base 0x01000000, set (Role.spareK c) (s.get (Role.spareK c)), set (Role.spareValid c) (s.get (Role.spareValid c)),
    set (Role.retired c) (s.get (Role.retired c))]

end Sys2Proof.Machine
end

