-- ==== Sys2Proof/Machine/Group.lean ====
section
/-! DEFINITION. What a cascade link's fall and a satellite's leaving do (R247, R452, R459, R465, R474). -/

namespace Sys2Proof.Machine
open Reg

/-- The present members reached through a quad. -/
def State.belowQuad (s : State) (q : Nat) : List Nat :=
  (s.dev.group.filter fun m => m.leftSeq = 0 && s.quadTo m.index = some q).map Member.index

/-- The direct satellite on a quad. -/
def State.directOn (s : State) (q : Nat) : Option Member :=
  s.dev.group.find? fun m => m.parent = s.dev.ownIndex && m.quad = q && m.leftSeq = 0

/-- Every head of a device is missing in the open rows. -/
def devMissing (d : Nat) : Prog := look fun s =>
  forEach (allStreams.filter fun i => s.admitted i) fun i => forEach ((s.heads i).filter fun h => s.get (Head.device i h) = d) fun h => headMissing i h

/-- A satellite and what lies below it leave: heads missing, indices reserved, "satellite left" (R474). -/
def satelliteLeaves (q : Nat) : Prog := look fun s =>
  match s.directOn q with
  | none => .skip
  | some m =>
    let ds := s.belowQuad q
    let last := (s.dev.group.map Member.leftSeq).foldl max 0
    let need := (s.get (Quad.rate q), s.get (Quad.width q))
    block [
      forEach ds fun d => setMember d fun x => { x with
        joined := false, hold := false, locked := false, joinAt := [], leftSeq := last + 1
        need := if x.joined && x.index = m.index then need else x.need },
      forEach ds devMissing,
      forEach (s.dev.ctlWaits.filter fun w => ds.contains w.member) fun w => (match w.use with | .completion t => memberDone w t 0x34 | _ => .skip),
      setFlag (Quad.left q), raise 0x0C 6 1 [BitVec.ofNat 8 q, BitVec.ofNat 8 m.index]]

/-- Trigger messages that are given up: counted, and at the root their slots are absent (R247, R459, R462). -/
def loseTrigs (q : Nat) (ts : List TrigMsg) : Prog := look fun s =>
  forEach ts fun t => block [bump (Quad.trigLost q), when (!s.on BootReg.role) (cascadeLost t.stream t.head t.index)]

/-- The streams of the side records that class-1 packets belong to; the first packet may continue a record of a stream. -/
def sidesIn : Nat → Bool → List Packet → List Nat
  | i, pend, [] => if pend then [i] else []
  | i, pend, p :: ps =>
    if p.type ≠ 2 then sidesIn i pend ps
    else
      let j := if p.aux = 0 then leAt p.payload 1 1 % 16 else i
      if bit p.flags 1 then j :: sidesIn j false ps else sidesIn j true ps

/-- What is left of waiting packets when the class-1 part or record whose head is lost goes too: up to its last packet. -/
def dropTail : Bool → List Packet → List Packet
  | _, [] => []
  | open_, p :: ps => if open_ && p.cls = 1 then dropTail (!bit p.flags 1) ps else p :: dropTail open_ ps

/-- The link layer starts afresh (R459, R460): unacknowledged triggers and class-1 packets are lost, those that wait too where the link has
fallen; class-2 and class-3 packets go again, sequences and credits start over. -/
def linkAfresh (q : Nat) (fallen : Bool) : Prog := look fun s =>
  let t := s.quad q
  let again := (t.unacked.filter fun p => p.pkt.cls ≠ 1).map fun p => p.pkt.untagged
  let gone := (t.unacked.map TxPacket.pkt).filter fun p => p.cls = 1
  let cut := match gone.getLast? with | some p => !bit p.flags 1 | none => false
  let waiting := if fallen then t.sendQ.filter fun p => p.cls ≠ 1 else dropTail cut t.sendQ
  let sides := sidesIn t.sideOf false (gone ++ if fallen then t.sendQ.filter fun p => p.cls = 1 else [])
  let pool := fun (k d : Nat) => t.peer.pools.getD k d
  block [
    forEach sides fun i => block [bump (Del.sideDroppedCount i), setFlag (Del.sideDropped i), setStream i fun t => { t with sideLost := true }],
    loseTrigs q (t.trigUnacked.map Prod.fst),
    setQuad q fun x => { QuadSt.reset with
      sendQ := again ++ waiting, peer := x.peer, nonce := x.nonce, key := x.key, exchange := x.exchange, goodTimes := x.goodTimes
      badTimes := x.badTimes, everUp := x.everUp, joined := x.joined, prbsMask := x.prbsMask, refused := x.refused
      credit1 := pool 0 4096, credit2 := pool 1 512, credit3 := pool 2 512 }]

/-- TIME_LOCKED changes on the upstream quad (R465): flag, event with device, set or cleared, offset. -/
def setTimeLock (q : Nat) (on : Bool) : Prog := look fun s =>
  when (s.on (Quad.timeLocked q) ≠ on) (block [
    set (Quad.timeLocked q) (boolNat on), when (!on) (setFlag (Quad.timeUnlock q)),
    raise 0x0C 8 1 ([BitVec.ofNat 8 q, BitVec.ofNat 8 s.dev.ownIndex, BitVec.ofNat 8 (boolNat on), 0] ++ leBytes 4 (s.get (Quad.offset q)))])

/-- A link falls to BASE or DOWN (R452). From UP or RESTART what was under way is lost, the satellites below leave, and a satellite whose
own upstream link it is goes to holdover (R465, R474). -/
def linkFalls (q new : Nat) : Prog := look fun s =>
  let old := s.get (Quad.lstate q)
  let was := old = lUp ∨ old = lRestart
  if old = new then .skip
  else block [
    set (Quad.lstate q) new, set (Quad.rate q) (if new = lBase then 1 else 0), set (Quad.width q) 0, set (Quad.deskewed q) 0,
    forEach (List.range 4) fun l => set (Lane.inUse q l) 0,
    when was (block [
      raise 0x0C 2 1 [BitVec.ofNat 8 q, BitVec.ofNat 8 old],
      linkAfresh q true, setQuad q fun x => { x with goodTimes := 0, badTimes := 0, joined := false, refused := [] },
      satelliteLeaves q,
      when (s.on (Quad.upstream q)) (block [setHoldover true, setTimeLock q false])])]

/-- A quad loses its power: no lane is locked. -/
def quadOff (q : Nat) : Prog := block [
  linkFalls q lDown, set (Quad.laneLock q) 0, setDomain (7 + q) false false,
  forEach (List.range 4) fun l => block [set (Lane.lock q l) 0, set (Lane.chkSync q l) 0]]

end Sys2Proof.Machine
end

