-- ==== Sys2Proof/Machine/ModeCommands.lean ====
section
/-! DEFINITION. The power and mode commands of class 0x03 but those of thermal supervision: SET_MODE, RELEASE, node states, wake
policies, retirement (R34, R53 to R69, R92 to R94). -/

namespace Sys2Proof.Machine
open Reg

/-! Ranks of modes (R60). -/

/-- The rank of a mode among the members of a group. -/
def modeRank (m : Nat) : Nat := match m with | 0 => 0 | 1 => 1 | 2 => 2 | 4 => 3 | 3 => 4 | _ => 5

/-- The answers of the members that a group read gathered, with this device's own: the one whose first value ranks highest. -/
def worstBy (rank : List Tlv → Nat) (own : List Tlv) (others : List (Nat × List Tlv)) : List Tlv :=
  (others.map Prod.snd).foldl (fun a b => if rank a < rank b then b else a) own

/-- The value of a key in a list of results. -/
def resultVal (k : Nat) (ts : List Tlv) : Nat := match ts.find? fun t => t.key = k with | some t => leVal t.val | none => 0

/-- GET_MODE (R60). -/
def specGetMode : CmdSpec where
  cls := 3
  code := 1
  bound := 50
  levels := [.device, .group]
  fanout := true
  changes := false
  results := fun _ s => [tlv 1 1 s.mode, tlv 2 4 (s.word 0x01000100)]
  gather := fun _ own others => worstBy (fun ts => modeRank (resultVal 1 ts)) own others
  effect := fun _ => .skip

/-- Does SET_MODE's transition stand in Table 2-2, with no stream admitted where it asks that? -/
def State.modeAllowed (s : State) (m : Nat) : Bool :=
  (s.mode = mArmed && (m = mStandby || m = mMaintenance) && !s.anyAdmitted) || (s.mode = mMaintenance && m = mArmed)

/-- A transition that had begun is undone: the device is where it was. -/
def unpend : Prog := look fun s => block [set ModeReg.pending 0, set ModeReg.target s.mode]

/-- SET_MODE (R55, R61, R93, R94). -/
def specSetMode : CmdSpec where
  cls := 3
  code := 2
  bound := 50
  pends := some 1000
  extra := fun c _ => if c.val 1 = mStandby then 1000000 else if c.val 1 = mArmed then 9000000 else 0
  levels := [.device, .group]
  keys := [needAny 1 1 4, optAny 3 0 1, optAny 4 0 63]
  fanout := true
  params := fun c _ => if c.val 1 = 3 then some 1 else if c.val 1 = mStandby ∧ c.val 4 = 0 then some 4 else none
  mode := fun c s => !s.on ModeReg.pending && !s.modeAllowed (c.val 1)
  busy := fun c s => if s.on ModeReg.pending then
      (match s.dev.journal.find? fun e => e.cls = 3 && (e.code = 2 || e.code = 9) && e.phase = .pending with
        | some e => some (waitLeft s e.due) | none => some (if s.get ModeReg.target = mArmed ∧ c.code = 2 then 3000 else 0xFFFFFFFF))
    else none
  node := fun _ => 1
  effect := fun c => block [
    modePend (c.val 1),
    when (c.val 1 = mStandby) (setPwr fun p => { p with wakeMask := c.val 4, retain := c.valD 3 1 = 1, wakeNext := none })]
  past := fun _ _ => true
  undo := fun _ => unpend

/-! Completing a transition. -/


/-- Entry to Standby (R53, R54, Tables 2-2, 2-3, 2-8 and 2-9). -/
def enterStandby : Prog := look fun s => block [
  gateNodes, pinsSafe,
  forEach allClusters fun c => offCluster c s.dev.pwr.retain,
  forEach (List.range 4) quadOff,
  forEach [0, 1] fun fn => block [set (Bridge.mod0Rate fn) 0, set (Bridge.mod1Rate fn) 0],
  setHost fun h => { h with trained0 := false, trained1 := false, fails0 := 0, fails1 := 0 },
  set TPort.pcsLock 0,
  clearMem 0x100000000 0x3000000, setEcc fun l => l.filter fun e => !isShared e.1,
  forEach [2, 3, 4, 5, 6, 11, 12] fun d => setDomain d false false, setDomain 1 false true,
  dev fun d => { d with sec := { d.sec with breakpoints := [], trace := [] } },
  setFwReady false,
  modeChange mStandby byCommand]

/-- A wake begins: the way to Armed is under way (Table 2-2). -/
def beginWake (i : Nat) : Prog := block [set ModeReg.target mArmed, set ModeReg.pending 1, set ModeReg.wakeSrc (i + 1)]

/-- The wake is complete (R53, R62, R267, R454): firmware resumes, the root wakes its satellites. -/
def wakeUp : Prog := look fun s => block [
  powerRoot,
  modeChange mArmed byWake, debugDomain,
  raiseIn false 3 2 1 (leBytes 1 (s.get ModeReg.wakeSrc)),
  when (!s.on BootReg.role) (forEach (List.range 4) fun q => when (s.on (Quad.enable q)) (emit (.idle q))),
  resumePulses]

/-- Maintenance permits no calibrating pipeline: a capture is aborted. -/
def enterMaintenance : Prog := block [
  forEach allPipes fun p => look fun s =>
    when (s.get (Node.state (nidPipe p)) = stCalibrating) (block [abortCapture p, setState (nidPipe p) stRunning]),
  modeChange mMaintenance byCommand]

/-- MODE_TRANSITION_DONE (R55): the transition that is pending completes, then its command. -/
def execModeTransitionDone (s : State) : Host.Outcome State Fault Refusal :=
  .next (run (look fun s =>
    let done := block [finish 3 2 1 (fun _ => .skip) 0, finish 3 9 1 (fun _ => .skip) 0]
    if !s.on ModeReg.pending then .skip
    else if s.get ModeReg.target = mStandby then
      block [enterStandby, done, look fun s => match s.dev.pwr.wakeNext with
        | some i => block [setPwr fun p => { p with wakeNext := none }, beginWake i]
        | none => .skip]
    else if s.get ModeReg.target = mMaintenance then block [enterMaintenance, done]
    else if s.mode = mStandby then block [wakeUp, done]
    else if s.mode = mMaintenance then block [modeChange mArmed byCommand, done]
    else block [setPwr fun p => { p with faultLive := false, stopping := false }, leaveStop, modeChange mArmed byCommand, done]) s)
where
  /-- RELEASE leaves the thermal Stop state (Table 2-16). -/
  leaveStop : Prog := look fun s => when (s.get Therm.state = 3) (block [
    set Therm.state 0, set Therm.step 0, raiseAlert 3, setPwr fun x => { x with inEffect := [] }, resumeJobs])

/-- Is a Safe-hold's cause still there (R56)? -/
def State.causeStays (s : State) : Bool :=
  let cause := s.get ModeReg.cause
  let low := s.sget Therm.tmax < 16 * (s.get Therm.warn : Int) - 48
  let excluded := ((List.range 20).filter fun n => s.on (Therm.suspect n) || s.on (Therm.hostExcl n)).length
  s.get Therm.state = 4 || (s.get Therm.state = 3 && !low) || (cause = byStop && !low) || cause = byTrip
    || (cause = bySensors && 4 < excluded) || s.dev.pwr.faultLive || s.dev.pwr.refclkLost || s.dev.pwr.linkLost || !s.dev.elec.bad.isEmpty
    || s.dev.elec.restored.any fun x => s.now < x.2 + 1000000

/-- RELEASE (R56). -/
def specRelease : CmdSpec where
  cls := 3
  code := 9
  bound := 50
  pends := some 10000
  levels := [.device, .group]
  fanout := true
  mode := fun _ s => !s.on ModeReg.pending && (s.mode ≠ mSafeHold || s.causeStays)
  busy := fun c s => if s.on ModeReg.pending then specSetMode.busy c s else none
  node := fun _ => 1
  effect := fun _ => modePend mArmed
  past := fun _ _ => true
  undo := fun _ => unpend

/-! Node states (R64 to R66, R93). -/

/-- GET_NODE_STATE. -/
def specGetNodeState : CmdSpec where
  cls := 3
  code := 3
  bound := 50
  levels := [.stage, .pipeline, .cluster, .device, .group]
  changes := false
  results := fun c s =>
    let h := match c.tgt.kind with
      | .stage p k => s.header (nidPipe p) (some k)
      | _ => s.header c.tgt.local none
    [tlv 5 1 (leAt h 4 1), tlv 6 2 (leAt h 14 2)]
  effect := fun _ => .skip

/-- Can the transitions of Table 2-7 that a command may cause lead from one state to another? -/
def stateReach (old new : Nat) : Bool :=
  old = new || (old ≠ stCalibrating && old < stRetired)

/-- The pipelines that a node state command moves with a cluster. -/
def clusterPipes (c : Nat) : List Nat := (List.range 8).map fun k => 8 * c + k

/-- A pipeline goes to a state. -/
def movePipe (p new : Nat) : Prog := look fun s =>
  let st := s.get (Node.state (nidPipe p))
  let up := block [powerPipe p, look fun s =>
    when (s.get (Node.state (nidPipe p)) = stRetained) (block [setDomain (29 + p) true false, setState (nidPipe p) stGated])]
  if st = new then .skip
  else match new with
    | 0 => offPipe p
    | 1 => block [up, setDomain (29 + p) false true, setState (nidPipe p) stRetained]
    | 2 => block [up, setState (nidPipe p) stGated]
    | _ => block [up, look fun s =>
        let c := p / 8
        block [when (s.get (Node.state (nidCluster c)) = stGated) (setState (nidCluster c) stRunning),
          setPwr fun x => { x with plls := if x.plls.contains c then x.plls else c :: x.plls }, setState (nidPipe p) stRunning]]

/-- A cluster goes to a state, its pipelines with it where its common is switched off. -/
def moveCluster (c new : Nat) : Prog := look fun s =>
  let st := s.get (Node.state (nidCluster c))
  if st = new then .skip
  else match new with
    | 0 => offCluster c false
    | 1 => block [powerCluster c, offCluster c true]
    | 2 => block [powerCluster c, set21 c, setState (nidCluster c) stGated]
    | _ => block [powerCluster c, set21 c, setState (nidCluster c) stRunning,
        setPwr fun x => { x with plls := if x.plls.contains c then x.plls else c :: x.plls }]
where
  set21 (c : Nat) : Prog := block [setDomain (13 + c) true false, setDomain (21 + c) true false]

/-- SET_NODE_STATE (R65, R93): a mode must permit the state (Table 2-8). -/
def specSetNodeState : CmdSpec where
  cls := 3
  code := 4
  bound := 1000
  levels := [.pipeline, .cluster]
  keys := [needAny 5 0 3]
  mode := fun c s =>
    let st := s.get (Node.state c.tgt.local)
    let ps := match c.tgt.kind with | .cluster k => clusterPipes k | _ => [c.pipe]
    let bound := ps.any s.boundAdmitted
    let barred := ps.any fun p => s.get (Node.state (nidPipe p)) = stCalibrating
    st ≠ c.val 5 && (!stateReach st (c.val 5) || (bound && c.val 5 < 2) || (c.val 5 < 2 && barred) || (s.mode = mSafeHold && c.val 5 = stRunning))
  faultOk := false
  effect := fun c => match c.tgt.kind with | .cluster k => moveCluster k (c.val 5) | _ => movePipe c.pipe (c.val 5)

/-- The wake policy that a value leaves a bound pipeline with: 0xFF stands for the one firmware resolves (R75). -/
def State.policyAs (s : State) (i p v : Nat) : Nat :=
  if v ≠ 0xFF then v
  else
    let k : Contract := ⟨i, (s.stream i).fast, (s.stream i).rate, [], 0, 0, 0, 0, none, none, false⟩
    let t : State := { s with dev := { s.dev with pwr := { s.dev.pwr with policies := Tbl.set 0xFF s.dev.pwr.policies p 0xFF, resolved := [] } } }
    let t' := t.asIf k
    match (s.localHeads i).find? fun x => x.2.2.2 = p with
    | some x =>
      let b := groupBits (s.dtOfVc x.2.1 x.2.2.1)
      let px := s.get (Framer.linePixels p) * (if s.on (Asm.area i) then s.get (Framer.frameLines p) else 1)
      if k.fast then 0
      else if 24200 ≤ 2 * minPeriodOf k.rate ∧ px * b.1 * 14000000000 ≤ (2 * minPeriodOf k.rate - 24200) * t'.usable7 x.2.1 * b.2 then 2 else 1
    | none => 1

/-- The pipelines that SET_WAKE_POLICY names. -/
def Ctx.policyPipes (c : Ctx) : List Nat := match c.tgt.kind with | .cluster k => clusterPipes k | _ => [c.pipe]

/-- SET_WAKE_POLICY (R71, R73, R75, R93). -/
def specSetWakePolicy : CmdSpec where
  cls := 3
  code := 5
  bound := 100
  levels := [.pipeline, .cluster]
  powers := true
  keys := [optAny 7 0 0xFF, optAny 8 100 1000000]
  params := fun c _ =>
    if c.has 7 ∧ 4 ≤ c.val 7 ∧ c.val 7 ≠ 0xFF then some 7
    else if c.has 8 ∧ c.tgt.kind.level ≠ .cluster then some 8
    else if !c.has 7 ∧ !c.has 8 then some 7 else none
  mode := fun c s => c.has 7 && c.policyPipes.any fun p => s.boundAdmitted p &&
    (s.streamsOf p).any fun i => s.admitted i && wakeTerm (s.policy p) < wakeTerm (s.policyAs i p (c.val 7))
  effect := fun c => look fun s => block [
    when (c.has 7) (forEach c.policyPipes fun p => block [
      setPwr fun x => { x with policies := Tbl.set 0xFF x.policies p (c.val 7) },
      when (c.val 7 = 0xFF) (match (s.streamsOf p).find? s.admitted with
        | some i => setPwr fun x => { x with resolved := Tbl.set 1 x.resolved p (s.policyAs i p 0xFF) }
        | none => .skip)]),
    when (c.has 8) (setPwr fun x => { x with idleUs := Tbl.set 1000 x.idleUs c.cluster (c.val 8) })]

/-- GET_DOMAINS. -/
def specGetDomains : CmdSpec where
  cls := 3
  code := 6
  bound := 50
  levels := [.device]
  changes := false
  results := fun _ s => [⟨9, s.words 0x01000200 5⟩, ⟨0xA, s.words 0x01000220 5⟩]
  effect := fun _ => .skip

/-- The spare role passes on (R34): to the highest pipeline of the cluster that is neither Retired nor Faulted nor bound. -/
def passSpare (c : Nat) : Prog := look fun s =>
  let ok := fun (k : Nat) => s.get (Node.state (nidPipe (8 * c + k))) ≠ stRetired && s.get (Node.state (nidPipe (8 * c + k))) ≠ stFaulted
    && !bit (s.get (Role.bound c)) k
  match ((List.range 8).reverse).find? ok with
  | some k => block [set (Role.spareK c) k, set (Role.spareValid c) 1]
  | none => set (Role.spareValid c) 0

/-- A pipeline is retired: its state, its bit, the spare role it held. -/
def retirePipe (p : Nat) : Prog := look fun s => block [
  setSleep p 0, setState (nidPipe p) stRetired,
  set (Role.retired (p / 8)) (putBits (s.get (Role.retired (p / 8))) (p % 8) 1 1),
  when (s.get (Role.spareK (p / 8)) = p % 8) (block [
    forEach (s.dev.swaps.filter fun x => x.1 = p / 8) fun x => cancelSwap x.1, passSpare (p / 8)])]

/-- RETIRE (R34, R35, R65, R93); exempt from 0x41, since Table 2-7 lets a Faulted pipeline be retired. -/
def specRetire : CmdSpec where
  cls := 3
  code := 0xA
  bound := 5000
  levels := [.pipeline]
  powers := true
  faultOk := true
  mode := fun c s => s.get (Node.state (nidPipe c.pipe)) = stCalibrating || (s.get (Node.state (nidPipe c.pipe)) ≠ stRetired && s.boundAdmitted c.pipe)
  effect := fun c => look fun s =>
    when (s.get (Node.state (nidPipe c.pipe)) ≠ stRetired) (block [
      when (s.get (Node.state (nidPipe c.pipe)) = stRetained) (movePipe c.pipe stGated), retirePipe c.pipe])

/-! The commands of this class. -/

def execGetMode (m : MbId) (r : Req) (s : State) : Host.Outcome State Fault Refusal := runCommand specGetMode m r s
def execSetMode (m : MbId) (r : Req) (s : State) : Host.Outcome State Fault Refusal := runCommand specSetMode m r s
def execRelease (m : MbId) (r : Req) (s : State) : Host.Outcome State Fault Refusal := runCommand specRelease m r s
def execGetNodeState (m : MbId) (r : Req) (s : State) : Host.Outcome State Fault Refusal := runCommand specGetNodeState m r s
def execSetNodeState (m : MbId) (r : Req) (s : State) : Host.Outcome State Fault Refusal := runCommand specSetNodeState m r s
def execSetWakePolicy (m : MbId) (r : Req) (s : State) : Host.Outcome State Fault Refusal := runCommand specSetWakePolicy m r s
def execGetDomains (m : MbId) (r : Req) (s : State) : Host.Outcome State Fault Refusal := runCommand specGetDomains m r s
def execRetire (m : MbId) (r : Req) (s : State) : Host.Outcome State Fault Refusal := runCommand specRetire m r s

end Sys2Proof.Machine
end

