-- ==== Sys2Proof/Machine/Thermal.lean ====
section
/-! DEFINITION. Thermal supervision: sensors, the state machine, throttle steps, the orderly stop and the hardware trip (R58, R80 to R95,
R336, R409). -/

namespace Sys2Proof.Machine
open Reg

def State.sensor (s : State) (n : Nat) : SensorSt := Tbl.get SensorSt.reset s.dev.sensors n
def setSensor (n : Nat) (f : SensorSt → SensorSt) : Prog :=
  dev fun d => { d with sensors := Tbl.set SensorSt.reset d.sensors n (f (Tbl.get SensorSt.reset d.sensors n)) }

def allSensors : List Nat := List.range 20

/-- A reading in 1/16 °C. -/
def State.temp (s : State) (n : Nat) : Int := s.sget (Therm.temp n)

/-- Is a sensor excluded (R81)? -/
def State.excluded (s : State) (n : Nat) : Bool := s.on (Therm.suspect n) || s.on (Therm.hostExcl n)

/-- The neighbour set of a sensor (Table 2-14). -/
def neighbours (n : Nat) : List Nat :=
  if n = 16 then [17, 18, 19] else if n = 17 ∨ n = 18 then [16, 19] else if n = 19 then [16, 17, 18]
  else
    let c := n / 2
    (if n % 2 = 0 then n + 1 else n - 1) :: [(c + 7) % 8, (c + 1) % 8].flatMap fun x => [2 * x, 2 * x + 1]

def insertInt (x : Int) : List Int → List Int
  | [] => [x]
  | y :: ys => if x ≤ y then x :: y :: ys else y :: insertInt x ys

/-- The median of readings (R82): none of an empty list. -/
def median (xs : List Int) : Option Int :=
  let ys := xs.foldr insertInt []
  let m := ys.length / 2
  if ys.isEmpty then none
  else if ys.length % 2 = 1 then some (ys.getD m 0)
  else some (roundHalfUp (ys.getD (m - 1) 0 + ys.getD m 0) 2)

/-- The median that a sensor is held against: of its neighbours that are not excluded. -/
def State.medianOf (s : State) (n : Nat) : Option Int := median (((neighbours n).filter fun k => !s.excluded k).map s.temp)

def tempBytes (t : Int) : List Byte := leBytes 2 (unsigned 16 t)

/-- A sensor becomes suspect or is reinstated: event 0x03/0x08. -/
def suspectEvent (n : Nat) (reading med : Int) : Prog := raiseIn false 3 8 1 (BitVec.ofNat 8 n :: tempBytes reading ++ tempBytes med)

/-- The check of one sensor against its median in the state before the sample's checks (R82). -/
def checkSensor (s0 : State) (n : Nat) : Prog :=
  let x := s0.sensor n
  match s0.medianOf n with
  | none => .skip
  | some med =>
    let t := s0.temp n
    if 160 < (t - med).natAbs then
      block [setSensor n fun y => { y with off := satNat (x.off + 1) 8, within := 0 },
        when (!s0.on (Therm.suspect n) && 8 ≤ x.off + 1) (block [
          set (Therm.suspect n) 1, setFlag Therm.suspectSeen, setSensor n fun y => { y with trip := 0 }, suspectEvent n t med])]
    else
      block [setSensor n fun y => { y with off := 0, within := satNat (x.within + 1) 1024 },
        when (s0.on (Therm.suspect n) && 1024 ≤ x.within + 1) (block [set (Therm.suspect n) 0, suspectEvent n t med])]

/-- The hottest sensor that is not excluded. -/
def State.hottest (s : State) : Option Nat :=
  (allSensors.filter fun n => !s.excluded n).foldl (fun (a : Option Nat) n => match a with
    | none => some n
    | some m => if s.temp m < s.temp n then some n else some m) none

/-- Tmax and its sensor (R81); with every sensor excluded they stand. -/
def takeTmax : Prog := look fun s =>
  match s.hottest with
  | some n => block [set Therm.tmax (unsigned 16 (s.temp n)), set Therm.tmaxSensor n]
  | none => .skip

def State.tmaxNow (s : State) : Int := s.sget Therm.tmax
def State.tmaxData (s : State) : List Byte := tempBytes s.tmaxNow ++ leBytes 1 (s.get Therm.tmaxSensor)

/-! The rate-of-rise alarm (R85). -/

/-- The rise of a sensor over its last 250 samples of the 1 kHz grid; none before there are so many. -/
def State.rise (s : State) (n : Nat) : Option Int :=
  let h := (s.sensor n).history
  match h[0]?, h[250]? with | some a, some b => some (a - b) | _, _ => none

/-- Does a sensor's rise reach RATE_LIMIT × 0.25 s? -/
def State.risesFast (s : State) (n : Nat) : Bool :=
  !s.excluded n && (match s.rise n with | some r => decide (((2 * s.get Therm.rateLimit : Nat) : Int) ≤ r) | none => false)

/-- The sensor of the largest rise that is not excluded, and that rise. -/
def State.maxRise (s : State) : Nat × Int :=
  ((allSensors.filter fun n => !s.excluded n).filterMap fun n => (s.rise n).map fun r => (n, r)).foldl
    (fun a x => if a.2 < x.2 then x else a) (0, -0x8000)

/-- A sample of the 1 kHz grid: the alarm sets at once and clears after 1 s below the limit. -/
def rateCheck : Prog := block [
  forEach allSensors fun n => look fun s => setSensor n fun x => { x with history := (s.temp n :: x.history).take 251 },
  look fun s => forEach allSensors fun n => setSensor n fun x => { x with quiet := if s.risesFast n then 0 else satNat (x.quiet + 1) 1000 },
  look fun s =>
    let event := raiseIn false 3 7 1 (BitVec.ofNat 8 s.maxRise.1 :: tempBytes s.maxRise.2)
    if !s.on Therm.rateAlarm && allSensors.any s.risesFast then block [set Therm.rateAlarm 1, setFlag Therm.rateSeen, event]
    else when (s.on Therm.rateAlarm && allSensors.all fun n => (s.sensor n).quiet = 1000) (block [set Therm.rateAlarm 0, event])]

/-- 16 kHz sampling (R84). -/
def sampleRate : Prog := look fun s =>
  let thr : Int := 16 * s.get Therm.throttle
  if s.on Therm.rateAlarm ∨ thr - 128 ≤ s.tmaxNow then set Therm.fast 1
  else when (decide (s.tmaxNow < thr - 160)) (set Therm.fast 0)

/-! Hardware trip (R87, Table 2-17 step 7). -/

/-- Everything but the always-on domain is switched off, TRIP_N is asserted, and the device is in Safe-hold until power-on or nRESET. -/
def hardwareTrip (sensor : Nat) (reading : Int) : Prog := look fun s => block [
  setPwr fun x => { x with stopping := true },
  forEach allStreams fun i => closeNow i closedBySafeHold, abandonModes,
  setFlag Therm.tripSeen, set Therm.state 4, set Therm.step 7, raiseAlert 3,
  dev fun d => { d with
    boot := { d.boot with logged := d.boot.logged ++ [BitVec.ofNat 8 sensor :: tempBytes reading] }, elec := { d.elec with tripLow := true } },
  set Dbg.halted 0, emit (.tripN true), pinsHighZ,
  forEach allClusters fun c => offCluster c false,
  setFwReady false,
  forEach (List.range 149) fun d => when (d ≠ 0) (setDomain d false false),
  forEach [0, 1] fun fn => block [set (Bridge.mod0Rate fn) 0, set (Bridge.mod1Rate fn) 0],
  forEach (List.range 4) fun q => block [set (Quad.lstate q) 0, set (Quad.rate q) 0, set (Quad.width q) 0, set (Quad.laneLock q) 0, set (Quad.deskewed q) 0],
  clearMem 0x100000000 0x3000000, clearMem 0 0x400000,
  dev fun d => { d with journal := [], doorbells := [], ecc := [], group := [], quads := [] },
  setPwr fun x => { x with stopping := false, wakeNext := none, inEffect := [], faultLive := false },
  when (s.mode ≠ mSafeHold) (modeChange mSafeHold byTrip), set ModeReg.cause byTrip, setState 1 stOff]

/-! Throttle steps (R88, Table 2-17). -/

/-- THERMAL STATE changes; alert class 3 (R493). -/
def thermState (v : Nat) : Prog := block [set Therm.state v, raiseAlert 3]

/-- STEP takes a value: event 0x03/0x04; steps 1 and 4 act at once, steps 2, 3 and 5 at each stream's next boundary. -/
def throttleStep (k : Nat) : Prog := look fun s => block [
  set Therm.step k, raiseIn false 3 4 1 (BitVec.ofNat 8 k :: tempBytes s.tmaxNow),
  setPwr fun x => { x with inEffect := (x.inEffect.filter fun e => e ≠ 1 && e ≠ 4) ++ (if 1 ≤ k then [1] else []) ++ (if 4 ≤ k then [4] else []) },
  if 1 ≤ k then pauseJobs else resumeJobs]

/-- Does a stream's demand exceed what its pipelines hold at half of pclk (Table 2-17 step 5)? Its lines then arrive faster than 0.7
Gpixel/s, or its producers need more than its row period. -/
def State.overHalved (s : State) (i : Nat) : Bool :=
  !(s.stream i).fast && ((s.localHeads i).any fun x =>
      let px := s.get (Framer.linePixels x.2.2.2)
      let lines := if s.on (Asm.area i) then s.frameLines i else 1
      0 < s.get (Trig.minPeriod i) && 7 * s.get (Trig.minPeriod i) < 10 * (px * lines))
    || s.get (Trig.minPeriod i) < s.prodTime i

/-- The steps on processing that stand for a stream take effect, or are undone, at its next row or frame boundary. -/
def throttleApply (i : Nat) : Prog := look fun s =>
  let step := s.get Therm.step
  let live := fun (k : Nat) => s.get Therm.state = 2 && k ≤ step
  let turn := fun (k : Nat) (on off : Prog) =>
    if live k && !s.throttled i k then block [on, setPwr fun x => { x with inEffect := x.inEffect ++ [k + 16 * (i + 1)] }]
    else when (!live k && s.throttled i k) (block [setPwr fun x => { x with inEffect := x.inEffect.filter (· ≠ k + 16 * (i + 1)) }, off])
  when (s.admitted i) (block [
    turn 2 .skip .skip,
    turn 3 (suspendTiles i) .skip,
    turn 5 (when (s.overHalved i) (suspend i byThrottle)) (restore i byThrottle)])

/-! The state machine (Table 2-16). -/

/-- Warn is entered. -/
def enterWarn : Prog := look fun s => block [thermState 1, setFlag Therm.warnSeen, raiseIn false 3 3 1 s.tmaxData]

/-- An orderly stop begins, or goes on: Safe-hold once no stream is admitted (R58, step 6). -/
def orderlyStop : Prog := look fun s =>
  if s.mode = mBoot ∨ s.mode = mSafeHold then .skip
  else block [setPwr fun x => { x with stopping := true }, when (!s.anyAdmitted) (safeHold byStop)]

/-- One evaluation of Table 2-16. -/
def thermalMachine : Prog := look fun s =>
  let t := s.tmaxNow
  let warn : Int := 16 * s.get Therm.warn
  let thr : Int := 16 * s.get Therm.throttle
  if s.get Therm.state < 3 ∧ 1840 ≤ t then
    block [thermState 3, set Therm.step 6, setFlag Therm.stopSeen, raiseIn false 3 5 1 s.tmaxData, orderlyStop]
  else if s.get Therm.state = 3 then orderlyStop
  else block [
    when (s.get Therm.state = 0 && decide (warn ≤ t)) enterWarn,
    look fun s => when (s.get Therm.state = 1) (
      if thr ≤ t then block [thermState 2, setFlag Therm.throttleSeen, throttleStep 1]
      else when (decide (t < warn - 48)) (thermState 0))]

/-- Is thermal supervision running (R80, R180)? It runs from boot step 1 on, and a trip latches. -/
def State.supervised (s : State) : Bool := (s.mode ≠ mBoot || 1 ≤ s.get BootReg.step) && s.get Therm.state ≠ 4

/-- More than 4 sensors excluded (R83). -/
def tooManyExcluded : Prog := look fun s => when (4 < (allSensors.filter s.excluded).length) (safeHold bySensors)

/-- SENSOR_SAMPLE (R80 to R87): 20 readings, and whether the sample lies on the 1 kHz grid. -/
def execSensorSample (readings : Vector (BitVec 16) 20) (grid : Bool) (s : State) : Host.Outcome State Fault Refusal :=
  .next (run (look fun s => when s.supervised (block [
    forEach allSensors fun n => block [set (Therm.temp n) (readings.toList.getD n 0).toNat, set (Therm.valid n) 1],
    look fun s => forEach allSensors (checkSensor s),
    tooManyExcluded,
    takeTmax,
    when grid rateCheck,
    sampleRate,
    look fun s => forEach allSensors fun n => setSensor n fun x => { x with
      trip := if !s.excluded n && 2000 ≤ s.temp n then satNat (x.trip + 1) 2 else 0 },
    look fun s => match allSensors.find? fun n => (s.sensor n).trip = 2 with
      | some n => hardwareTrip n (s.temp n)
      | none => thermalMachine])) s)

/-- THROTTLE_STEP_TIMER: 100 ms at or above THROTTLE. -/
def execThrottleStepTimer (s : State) : Host.Outcome State Fault Refusal :=
  .next (run (look fun s =>
    when (s.get Therm.state = 2 && s.get Therm.step < 5 && decide (((16 * s.get Therm.throttle : Nat) : Int) ≤ s.tmaxNow))
      (throttleStep (s.get Therm.step + 1))) s)

/-- THROTTLE_UNDO_TIMER: 500 ms below THROTTLE − 3 °C; with every step undone the state is Warn. -/
def execThrottleUndoTimer (s : State) : Host.Outcome State Fault Refusal :=
  .next (run (look fun s =>
    when (s.get Therm.state = 2 && decide (s.tmaxNow < ((16 * s.get Therm.throttle : Nat) : Int) - 48))
      (block [throttleStep (s.get Therm.step - 1), when (s.get Therm.step ≤ 1) enterWarn])) s)

/-- THROTTLE_STEP_APPLY (R50, R88, R336, R409): a row or frame boundary of a stream. -/
def execThrottleStepApply (i : Fin 16) (s : State) : Host.Outcome State Fault Refusal := .next (run (throttleApply i.val) s)

/-! The orderly stop (R58). -/

/-- A stream closes at a row boundary: open rows close as at their deadline, its rows are produced and delivered as far as its rings
allow, and what is left is dropped. -/
def orderlyClose (i : Nat) : Prog := look fun s => block [
  when (s.sState i = sStarted) (stopIssuing i), dropThresholds i,
  look fun s => forEach ((s.asm i).rows.filter fun r => r.closed.isNone) fun r => closeRow i r.index r.line true,
  look fun s => forEach (s.asm i).rows fun _ => block [rowClosePhase i, forEach (List.range 62) (segmentDone i)],
  look fun s => moveStream i (s.stream i).fifo.length 0x1000000000 fun _ => .skip,
  look fun s => block [bumpBy (Del.delivered i) (s.stream i).flight.length, countTop 1 (s.stream i).flight.length],
  setStream i fun t => { t with
    flight := [], rows := t.rows + t.flight.length, lastSeq := (t.flight.map EgRec.seq).foldl max t.lastSeq
    marked := t.marked + (t.flight.filter EgRec.marked).length },
  streamStopped i, closeNow i closedBySafeHold]

/-- ORDERLY_STOP_STREAM_CLOSE (R58): one stream of an orderly stop; the last one ends in Safe-hold. -/
def execOrderlyStopStreamClose (i : Fin 16) (s : State) : Host.Outcome State Fault Refusal :=
  .next (run (look fun s =>
    when (s.get Therm.state = 3 && s.dev.pwr.stopping && s.admitted i.val) (block [orderlyClose i.val, orderlyStop])) s)

/-! Commands. -/

/-- The registers of Table 2-18 as THERMAL_READ returns them: the sensors, the state, TMAX, the configuration. -/
def State.thermalRegs (s : State) : List Byte := s.words 0x01700000 20 ++ s.words 0x01700080 4

/-- TMAX in a THERMAL_READ result, biased to rank it. -/
def tmaxRank (ts : List Tlv) : Nat :=
  (signed 16 (match ts.find? fun t => t.key = 0xB with | some t => leAt t.val 84 2 | none => 0) + 0x8000).toNat

/-- THERMAL_READ (R92). -/
def specThermalRead : CmdSpec where
  cls := 3
  code := 7
  bound := 50
  levels := [.device, .group]
  fanout := true
  changes := false
  results := fun _ s => [⟨0xB, s.thermalRegs⟩]
  gather := fun _ own others => worstBy tmaxRank own others
  effect := fun _ => .skip

/-- Would new exclusions bring Tmax to the orderly-stop limit (R93)? -/
def Ctx.intoStop (c : Ctx) (s : State) : Bool :=
  c.has 0xF && s.get Therm.state < 3 && (allSensors.any fun n => !s.on (Therm.suspect n) && !bit (c.val 0xF) n && 1840 ≤ s.temp n)

/-- THERMAL_CONFIG (R81, R83, R86, R93). -/
def specThermalConfig : CmdSpec where
  cls := 3
  code := 8
  bound := 100
  levels := [.device, .group]
  keys := [optAny 0xC 1 20, optAny 0xD 60 105, optAny 0xE 70 110, optAny 0xF 0 0xFFFFF]
  fanout := true
  params := fun c s => if c.valD 0xD (s.get Therm.warn) < c.valD 0xE (s.get Therm.throttle) then none
    else if c.has 0xD then some 0xD else some 0xE
  mode := Ctx.intoStop
  effect := fun c => block [
    when (c.has 0xC) (set Therm.rateLimit (c.val 0xC)), when (c.has 0xD) (set Therm.warn (c.val 0xD)),
    when (c.has 0xE) (set Therm.throttle (c.val 0xE)),
    when (c.has 0xF) (block [set Therm.exclude (c.val 0xF),
      forEach allSensors fun n => set (Therm.hostExcl n) (boolNat (bit (c.val 0xF) n)), tooManyExcluded])]

def execThermalRead (m : MbId) (r : Req) (s : State) : Host.Outcome State Fault Refusal := runCommand specThermalRead m r s
def execThermalConfig (m : MbId) (r : Req) (s : State) : Host.Outcome State Fault Refusal := runCommand specThermalConfig m r s

end Sys2Proof.Machine
end

