-- ==== Sys2Proof/Machine/Boot.lean ====
section
/-! DEFINITION. Reset, the boot ROM and restarts of the control complex (R171 to R187, R526 to R532, R571, R574, R576). -/

namespace Sys2Proof.Machine
open Reg

def setBoot (f : BootSt → BootSt) : Prog := dev fun d => { d with boot := f d.boot }

/-! Resets (R174, Table 5-3). -/

/-- What nRESET preserves of the registers: the time base with its ADDEND, the encoder positions, TRIP_SEEN with its counter. -/
def survivors : List Fld :=
  [TimeReg.secLo, TimeReg.secHi, TimeReg.ns, TimeReg.frac, TimeReg.addendFrac, TimeReg.addendInt, Therm.tripSeen, Therm.flagCount 3]
    ++ (List.range 4).flatMap fun e => [Enc.posLo e, Enc.posHi e]

/-- The whole device returns to its reset state; a reset of nRESET scope keeps the survivors. Fuses, supplies and straps outside are as
they are; VID is released. A ROLLBACK_ADVANCE under way leaves the bits blown so far (R533), a free choice; a debug state that nRESET closes
is reported once firmware runs (R539, R549). -/
def deviceReset (keep : Bool) (resetCause modeCause : Nat) : Prog := look fun s =>
  let closed : List (List Byte) := if s.get Dbg.state = 0 then [] else [[0xFF, BitVec.ofNat 8 (s.get Dbg.state)]]
  let blowing := s.dev.journal.any fun e => e.cls = 0xF && e.code = 9
  block [
  when blowing (fresh fun v => dev fun d => { d with fuses := { d.fuses with
    rollback := d.fuses.rollback + v % (s.get Live.runSvn - d.fuses.rollback + 1) } }),
  resetRegs 0 0x20000000000, clearMem 0 0x20000000000,
  dev fun d => { Dev.reset with
    fuses := d.fuses
    elec := { d.elec with tripLow := false, vid := 15 }
    time := if keep then { TimeSt.reset with low := d.time.low } else TimeSt.reset
    encs := if keep then d.encs else []
    tw := if keep then { TwMail.reset with alertSeq := d.tw.alertSeq } else TwMail.reset
    boot := { BootSt.reset with
      poweredOn := true, logged := if keep then d.boot.logged ++ closed else [], resetUs := if keep then s.now / 1000 else 0 } },
  when keep (forEach survivors fun f => set f (s.get f)),
  set BootReg.resetCause resetCause, set ModeReg.cause modeCause,
  when s.dev.elec.tripLow (emit (.tripN false)), when (s.dev.elec.vid ≠ 15) (emit (.vid 15))]

/-- Boot step 1 begins: the domains of the root fabric come up, a root's UCIe modules with them (R97, R103, R180). -/
def bootBegins : Prog := look fun s => block [
  forEach [1, 2, 6, 12] fun d => setDomain d true false,
  when (!s.on BootReg.role && !s.on BootReg.form) (forEach [4, 5] fun d => setDomain d true false),
  set BootReg.step 1]

/-- POWER_ON (R174, R572): VDD_AON reaches power-good. -/
def execPowerOn (s : State) : Host.Outcome State Fault Refusal :=
  .next (run (block [deviceReset false 0 0,
    dev fun d => { d with elec := { d.elec with bad := d.elec.bad.filter (· ≠ 0), restored := [] } }]) s)

/-- NRESET (R174). -/
def execNreset (s : State) : Host.Outcome State Fault Refusal := .next (run (deviceReset true 1 1) s)

/-- STRAP_SAMPLE (R171): the straps are latched on the 64th aclk cycle after the release of power-on reset or nRESET. -/
def execStrapSample (v : StrapIn) (s : State) : Host.Outcome State Fault Refusal :=
  .next (run (look fun s => when (s.mode = mBoot && s.get BootReg.step = 0) (block [
    set BootReg.role (boolNat v.role), set BootReg.bootsrc v.bootsrc.toNat, set BootReg.twaddr v.twaddr.toNat,
    set BootReg.form (boolNat s.dev.fuses.form), set Ident.role (boolNat v.role), set Ident.form (boolNat s.dev.fuses.form),
    set TwT.base (0x14 + v.twaddr.toNat),
    bootBegins])) s)

/-! Failures (Table 5-6, R183). -/

/-- No retry remains: FAILED and its alert. -/
def bootStops : Prog := block [set BootReg.failed 1, set BootReg.waiting 0, raiseAlert 4]

/-- The root's image is requested over the upstream quad (R186). -/
def requestImage : Prog := look fun s => match s.upstream with
  | some q => sendPacket q ⟨7, 3, 0, s.dev.ownIndex, 0, 0, []⟩
  | none => .skip

/-- A fetch begins (R183): the ROM waits for the host or the root, or reads a QSPI slot. -/
def beginFetch (first : Bool) : Prog := look fun s =>
  let again := set BootReg.attempt (s.get BootReg.attempt + 1)
  block [set BootReg.step 4,
    match s.get BootReg.source with
    | 0 => block [set BootReg.waiting 1, setBoot fun b => { b with go := false, imageLen := 0 }]
    | 1 => block [again, setBoot fun b => { b with qspiSlot := if first then 0 else 1, imageLen := 0 }]
    | _ => block [again, set BootReg.waiting 1, setBoot fun b => { b with imageLen := 0 }, requestImage]]

/-- A boot step fails with a code and its detail; a failure under R183 consumes the attempt. -/
def bootFail (code detail : Nat) (retry : Bool) : Prog := look fun s =>
  let src := s.get BootReg.source
  let left := if src = 1 then s.dev.boot.qspiSlot = 0 else src ≠ 3 ∧ s.get BootReg.attempt < 3
  block [set BootReg.code code, set BootReg.failDetail detail, if retry ∧ left then beginFetch false else bootStops]

/-- The strap word: the boot status block's offset 0x04. -/
def State.strapWord (s : State) : Nat := (s.reg 0x10000001004).toNat

/-- The code that Table 5-2 gives a combination of form, role and boot source; none where it is valid. -/
def State.strapBad (s : State) : Option Nat :=
  let src := s.get BootReg.bootsrc
  if s.on BootReg.form && !s.on BootReg.role then some 5
  else if s.on BootReg.role then (if src = 1 ∨ src = 2 then none else some 6)
  else if src < 2 then none else some 6

/-! The image (R529, R530). -/

structure Image where
  len : Nat
  codeLen : Nat
  policyLen : Nat
  svn : Nat
  ifLevel : Nat
  build : Nat
  deriving DecidableEq, Repr

def imageOf (b : List Byte) : Image := ⟨leAt b 8 4, leAt b 12 4, leAt b 16 4, leAt b 20 1, leAt b 21 1, leAt b 24 4 % 0x80000000⟩

/-- The checks of R530 in their order, on a copy: 0 passes. -/
def imageCode (f : Fuses) (fetched : Nat) (b : List Byte) : Nat :=
  let i := imageOf b
  if leAt b 0 4 ≠ 0x57465941 ∨ leAt b 4 2 ≠ 1 ∨ i.len ≠ fetched ∨ i.len ≠ 448 + i.codeLen + i.policyLen ∨ i.codeLen % 4 ≠ 0 ∨ i.codeLen < 4 then 0xA
  else if Config.sha384 (slice b 64 96) ≠ f.vendorKeyHash
      ∨ !Config.ecdsaVerify (slice b 64 96) (slice b 0 (256 + i.codeLen)) (slice b (256 + i.codeLen + i.policyLen) 96) then 0xA
  else if i.svn < f.rollback then 0xB else 0

/-- Is the image length one that a fetch takes (code 0x07)? -/
def lengthOk (n : Nat) : Bool := n ≠ 0 && n ≤ 3145728 && n % 4 = 0

/-- The copy in control-processor memory. -/
def State.imageCopy (s : State) : List Byte := s.bytes 0 s.dev.boot.imageLen

/-! The world policy (R524 to R527, R531). -/

/-- Bytes that must be zero, with their offsets. -/
def zeroRule (p : List Byte) (lo n : Nat) : List (Nat × Bool) := (List.range n).map fun k => (lo + k, p.getD (lo + k) 0 ≠ 0)

/-- The first granule and the count of a host range. -/
def policyRange (p : List Byte) (r : Nat) : Nat × Nat := (leAt p (256 + 16 * r) 4, leAt p (260 + 16 * r) 4)

/-- The offset of the first byte that breaks a rule of R525. -/
def policyBad (p : List Byte) : Option Nat :=
  let n := leAt p 6 2
  let magic : List (Nat × Bool) := (List.range 4).map fun k => (k, p.getD k 0 ≠ (leBytes 4 0x50575941).getD k 0)
  let pipes := (List.range 8).map fun c => (8 + c, bit (leAt p 16 1) c && leAt p (8 + c) 1 ≠ 0xFF)
  let key := slice p 160 96
  let ranges := (List.range (satNat n 16)).flatMap fun r =>
    let x := policyRange p r
    let meets := (List.range r).any fun q => let y := policyRange p q; y.1 < x.1 + x.2 && x.1 < y.1 + y.2
    (256 + 16 * r, x.2 = 0 || 0x4000000 < x.1 + x.2 || meets) :: zeroRule p (264 + 16 * r) 8
  let one : List (Nat × Bool) :=
    [(4, leAt p 4 1 ≠ 1), (5, 2 ≤ leAt p 5 1), (6, (16 < n && leAt p 7 1 = 0) || (n ≤ 16 && p.length ≠ 256 + 16 * n)), (7, leAt p 7 1 ≠ 0)]
  let all : List (Nat × Bool) := magic ++ one ++ pipes ++ [(17, decide (16 ≤ leAt p 17 1))] ++ zeroRule p 18 14
      ++ [(160, key.any (· ≠ 0) && !Config.pointValid key)] ++ ranges
  (all.find? Prod.snd).map Prod.fst

/-- Is the die owned (R526)? -/
def Fuses.owned (f : Fuses) : Bool := f.ownerKeyHash.any (· ≠ 0)

/-- Loading the world map from a policy; an empty one is the default policy. The map locks. -/
def loadMap (p : List Byte) : Prog := look fun s => block [
  dev fun d => { d with sec := { d.sec with policy := p } },
  set Wld.owned (boolNat s.dev.fuses.owned), set Wld.default (boolNat p.isEmpty), set Wld.twS (leAt p 5 1 % 2), set Wld.ranges (leAt p 6 2),
  set Wld.pipeSLo (leAt p 8 4), set Wld.pipeSHi (leAt p 12 4), set Wld.clusterS (leAt p 16 1), set Wld.serviceS (leAt p 17 1),
  forEach (List.range 24) fun k => set (Wld.granuleS k) (leAt p (32 + 4 * k) 4),
  when (!p.isEmpty) (forEach (List.range 12) fun k => set (Wld.policyDigest k) (leAt (Config.sha384 p) (4 * k) 4)),
  forEach (List.range (leAt p 6 2)) fun r => block [set (Wld.rangeBase r) (policyRange p r).1, set (Wld.rangeCount r) (policyRange p r).2],
  set Dbg.keyPresent (boolNat ((slice p 160 96).any (· ≠ 0))),
  set Wld.locked 1]

/-! The firmware store (R532). -/

def slotBase (slot : Nat) : Nat := 0x02400000 + 0x400000 * slot

def State.slotOf (s : State) (slot : Nat) : Slot := if slot = 0 then s.dev.boot.slotA else s.dev.boot.slotB
def setSlot (slot : Nat) (v : Slot) : Prog := setBoot fun b => if slot = 0 then { b with slotA := v } else { b with slotB := v }

/-- What a slot that holds an image says of it. -/
def slotFor (b : List Byte) : Slot :=
  let i := imageOf b
  ⟨true, true, i.svn, i.ifLevel, i.build, i.len, Config.sha384 (slice b 0 (256 + i.codeLen))⟩

/-- The running image's registers (R562, Table 1-10a). -/
def showRunning (slot : Nat) : Prog := look fun s => block [
  set Live.runSlot slot, set Live.runIfLevel (s.slotOf slot).ifLevel, set Live.runSvn (s.slotOf slot).svn, set Live.runBuild (s.slotOf slot).build,
  set Ident.ifLevel (s.slotOf slot).ifLevel]

/-- The slot an image's source fills: a QSPI image the slot it came from, any other slot A. -/
def State.sourceSlot (s : State) : Nat := if s.get BootReg.source = 1 then s.dev.boot.qspiSlot else 0

/-- Step 6 passes: the image goes to the firmware store, and the ROM hands over (Table 5-7 step 7). The quads that only the ROM brought up
lose their power (R448). -/
def handOver : Prog := look fun s => block [
  clearMem (slotBase s.sourceSlot) 0x400000, store (slotBase s.sourceSlot) s.imageCopy,
  setSlot s.sourceSlot (slotFor s.imageCopy),
  set BootReg.step 7, set BootReg.code 0, set BootReg.failDetail 0,
  showRunning s.sourceSlot, set Live.otherRunnable 0,
  forEach ((List.range 4).filter fun q => s.on BootReg.role && !s.on (Quad.enable q) && !s.on (Quad.upstream q)) quadOff,
  modeChange mArmed byHandover]

/-! The steps (Table 5-7). -/

/-- A supply outside its limits, where it matters: VDD_UC of a die strapped as satellite, or of the SB form, does not (R103, R570). -/
def State.supplyBad (s : State) : Option Nat :=
  s.dev.elec.bad.find? fun n => !(n = 7 && (s.on BootReg.role || s.on BootReg.form))

/-- Step 1: supplies and clocks. -/
def stepOne (o : BootObs) (next : Prog) : Prog := look fun s =>
  match s.supplyBad with
  | some n => bootFail 1 n false
  | none => match o.pll with | some n => bootFail 2 n false | none => next

/-- Step 3: the fuses. -/
def readFuses : Prog := look fun s => block [
  set Ident.formLevel s.dev.fuses.formLevel, forEach (List.range 4) fun k => set (Ident.uid k) (leAt s.dev.fuses.uid (4 * k) 4),
  set Dbg.fusedClosed (boolNat s.dev.fuses.debugClosed)]

/-- Step 4: the copy of the image that a source gave. -/
def fetchDone (o : BootObs) : Prog := look fun s =>
  let taken := fun (len : Nat) (bs : List Byte) =>
    if lengthOk len then block [clearMem 0 0x400000, store 0 (slice bs 0 len), setBoot fun b => { b with imageLen := len, go := false },
      set BootReg.step 5]
    else bootFail 7 len true
  match s.get BootReg.source with
  | 0 => when s.dev.boot.go (taken (s.get BootReg.imgLen) (s.bytes stagingBase (s.get BootReg.imgLen)))
  | 1 => (match o.flash with | some d => bootFail 8 d false | none => taken (leAt o.image 8 4) o.image)
  | _ => (match o.lost with
    | some n => bootFail 9 n true
    | none => when (!s.on BootReg.waiting && s.dev.boot.imageLen ≠ 0) (if lengthOk s.dev.boot.imageLen then set BootReg.step 5 else bootFail 7 s.dev.boot.imageLen true))

/-- Step 5: the check of the copy. -/
def verifyCopy (next : Prog) : Prog := look fun s =>
  match imageCode s.dev.fuses s.dev.boot.imageLen s.imageCopy with
  | 0 => next
  | 0xB => bootFail 0xB (imageOf s.imageCopy).svn true
  | c => bootFail c (if s.get BootReg.source = 3 then s.get Live.runSlot else s.sourceSlot) true

/-- Step 6: the world map (R531). -/
def loadPolicy : Prog := look fun s =>
  let b := s.imageCopy
  let i := imageOf b
  let p := slice b (256 + i.codeLen) i.policyLen
  if !s.dev.fuses.owned then block [loadMap [], handOver]
  else if i.policyLen = 0 ∨ Config.sha384 (slice b 160 96) ≠ s.dev.fuses.ownerKeyHash
      ∨ !Config.ecdsaVerify (slice b 160 96) (slice b 0 (256 + i.codeLen + i.policyLen)) (slice b (352 + i.codeLen + i.policyLen) 96) then
    bootFail 0xC 0xFFFFFFFF true
  else match policyBad p with
    | some o => bootFail 0xC o true
    | none => block [loadMap p, handOver]

/-- EXTEST, CLAMP or HIGHZ holds the ROM at its step (R541). -/
def State.tapHolds (s : State) : Bool := [0, 3, 4].contains s.dev.sec.tapInstr

/-- BOOT_STEP_COMPLETE (R175, R180): a step of the ROM ends with what it found; step 7 ends with FIRMWARE_READY. After a watchdog
restart steps 2, 4 and 6 are left out. -/
def execBootStepComplete (o : BootObs) (s : State) : Host.Outcome State Fault Refusal :=
  .next (run (look fun s =>
    let again := s.dev.boot.restarting
    if (s.mode ≠ mBoot ∧ !again) ∨ s.on BootReg.failed ∨ s.tapHolds then .skip
    else block [noteElapsed, match s.get BootReg.step with
      | 1 => stepOne o (set BootReg.step (if again then 3 else 2))
      | 2 => (match o.sram with
        | some n => bootFail 3 n false
        | none => block [clearMem 0x100000000 0x3000000, clearMem 0 0x400000, setEcc fun _ => [], set BootReg.step 3])
      | 3 => (match o.fuse with
        | some n => bootFail 4 n false
        | none => if again then set BootReg.step 5 else block [
            readFuses, emit (.vid s.dev.fuses.vid), dev fun d => { d with elec := { d.elec with vid := d.fuses.vid } },
            look fun s => match s.strapBad with
              | some c => bootFail c s.strapWord false
              | none => block [set BootReg.source (s.get BootReg.bootsrc), beginFetch true]])
      | 4 => fetchDone o
      | 5 => verifyCopy (set BootReg.step (if again then 7 else 6))
      | 6 => loadPolicy
      | _ => .skip]) s)

/-- BOOT_GO (R184): a host write of GO. -/
def execBootGo (s : State) : Host.Outcome State Fault Refusal := .next (run (postWrite 0 .bar0 0x1014 ((leBytes 4 1).map some)) s)

/-- BOOT_STEP_TIMEOUT (R183): a step exceeds 4 times its bound; waiting has none. -/
def execBootStepTimeout (s : State) : Host.Outcome State Fault Refusal :=
  .next (run (look fun s =>
    when (1 ≤ s.get BootReg.step && s.get BootReg.step ≤ 7 && !s.on BootReg.waiting && !s.on BootReg.failed && !s.fwReady && !s.tapHolds)
      (bootFail 0xD (s.get BootReg.step) false)) s)

/-! Restarts of the control complex (R175, R176, R510). -/

/-- A reset of nRESET scope by the watchdog: streams close as for a device-class fault; straps stay latched. -/
def escalate : Prog := look fun s => block [
  setPwr fun x => { x with stopping := true },
  forEach allStreams fun i => closeNow i closedByReset,
  deviceReset true 2 9,
  forEach [BootReg.role, BootReg.bootsrc, BootReg.twaddr, BootReg.form, Ident.role, Ident.form] fun f => set f (s.get f),
  set TwT.base (0x14 + s.get BootReg.twaddr),
  bootBegins]

/-- The control complex restarts on the image of a slot: mailboxes answer busy, the journal stays. -/
def restartComplex (slot : Nat) : Prog := look fun s => block [
  setFwReady false, set BootReg.step 1, set BootReg.source 3, set BootReg.code 0, set BootReg.failDetail 0, set BootReg.failed 0,
  set Dbg.halted 0,
  clearMem 0 (s.slotOf slot).len, setBytes 0 (s.bytes (slotBase slot) (s.slotOf slot).len), eccMend 0 (s.slotOf slot).len,
  setBoot fun b => { b with restarting := true, imageLen := (s.slotOf slot).len },
  look fun s => forEach s.dev.doorbells hwBusy]

/-- Causes of a revert (Table 18-5). -/
abbrev byTimeout : Nat := 0
abbrev byLockstep : Nat := 1
abbrev byWatchdog : Nat := 2

/-- OTHER_RUNNABLE follows the slot that does not run. -/
def showOther : Prog := look fun s => set Live.otherRunnable (boolNat (s.slotOf (1 - s.get Live.runSlot)).runnable)

/-- A firmware swap reverts (R553): the new image is marked not runnable, and the slot that ran before runs again. -/
def revertSwap (cause : Nat) : Prog := look fun s =>
  let new := s.get Live.runSlot
  block [
    setSlot new { s.slotOf new with runnable := false }, showRunning (1 - new), showOther,
    setBoot fun b => { b with swapStep := false, swapCause := cause + 1 }, set Live.swapping 0, setFlag Live.fwReverted,
    restartComplex (1 - new)]

/-- A watchdog restart on the running slot; a firmware swap under way reverts (R553, Table 16-6). -/
def watchdogRestart (cause : Nat) : Prog := look fun s => block [
  setFlag BootReg.wdogSeen, set BootReg.resetCause 3, countCorrected 1,
  if s.dev.boot.swapStep then revertSwap cause else restartComplex (s.get Live.runSlot)]

/-- A watchdog expiry, or what counts as one: the third within 60 s escalates. -/
def expiry (cause : Nat) : Prog := look fun s =>
  let t := s.now / 1000
  let recent := t :: s.dev.boot.expiries.filter fun x => t < x + 60000000
  if 3 ≤ recent.length then escalate
  else block [setBoot fun b => { b with expiries := recent }, watchdogRestart cause]

/-- Does the watchdog count? Not in Boot, not while the clocks of the control complex stand, not while the cores are halted. -/
def State.watched (s : State) : Bool := s.mode ≠ mBoot && s.mode ≠ mStandby && s.get Therm.state ≠ 4 && !s.on Dbg.halted

/-- WATCHDOG_EXPIRY (R79, R175, R176). -/
def execWatchdogExpiry (s : State) : Host.Outcome State Fault Refusal := .next (run (look fun s => when s.watched (expiry byWatchdog)) s)

/-- WATCHDOG_ESCALATION (R176): the restarted firmware has missed its 200 ms. -/
def execWatchdogEscalation (s : State) : Host.Outcome State Fault Refusal :=
  .next (run (look fun s => when (s.dev.boot.restarting && !s.dev.boot.swapStep && !s.fwReady) escalate) s)

/-! Uncorrectable words that a functional read finds (R511, Table 16-2). -/

/-- The outcome for control-processor memory and for configuration; other contents have their outcome where they are read. -/
def ueOutcome (a : Nat) : Prog := look fun s =>
  match s.content a false with
  | 13 => watchdogRestart byWatchdog
  | 14 => safeHold byFault
  | 5 => nodeFault (ownerOf a) 2
  | 6 => when (ownerOf a ≠ 1) (nodeFault (ownerOf a) 2)
  | _ => .skip

/-- A functional read of a range that no rule of its own covers. -/
def readRange (a len : Nat) : Prog := look fun s =>
  let bad := s.eccIn a len 2
  block [eccRead a len false, forEach (bad.filter fun w => !isShared w) ueOutcome]

/-! Supplies and the reference clock (R78, R570, R574, R576). -/

/-- A device-class fault of a supply or of REFCLK: in Boot from step 2 on, code 0x01; else "supply fault" and Safe-hold. -/
def supplyFault (n : Nat) : Prog := look fun s =>
  if s.mode = mBoot then when (2 ≤ s.get BootReg.step && !s.on BootReg.failed) (bootFail 1 n false)
  else block [raiseIn false 3 0xB 1 [BitVec.ofNat 8 n], safeHoldFor byFault false]

/-- SUPPLY_UNDERVOLTAGE (R78): VDD_AON holds the device in power-on reset; VDD_UC of a satellite is not monitored. -/
def execSupplyUndervoltage (n : Fin 12) (s : State) : Host.Outcome State Fault Refusal :=
  .next (run (look fun s =>
    if n.val = 0 then block [deviceReset false 0 0, emit (.highZ 0xFFFFFFFF),
      dev fun d => { d with elec := { d.elec with bad := if d.elec.bad.contains 0 then d.elec.bad else 0 :: d.elec.bad } }]
    else block [
      dev fun d => { d with elec := { d.elec with
        bad := if d.elec.bad.contains n.val then d.elec.bad else n.val :: d.elec.bad, restored := d.elec.restored.filter fun x => x.1 ≠ n.val } },
      look fun s => when (s.supplyBad = some n.val || (s.supplyBad.isSome && n.val ≠ 7)) (supplyFault n.val)]) s)

/-- SUPPLY_RESTORE (R56): a supply is back within its limits; its 1 ms begins. -/
def execSupplyRestore (n : Fin 12) (s : State) : Host.Outcome State Fault Refusal :=
  .next (run (look fun s => when (s.dev.elec.bad.contains n.val && n.val ≠ 0) (block [
    dev fun d => { d with elec := { d.elec with bad := d.elec.bad.filter (· ≠ n.val), restored := (n.val, s.now) :: d.elec.restored } }])) s)

/-- REFCLK_LOSS (R576): the time base stands still. -/
def execRefclkLoss (s : State) : Host.Outcome State Fault Refusal :=
  .next (run (look fun s => when (!s.dev.pwr.refclkLost) (block [setPwr fun x => { x with refclkLost := true }, supplyFault 12])) s)

/-- REFCLK_RESTORE (R576): 1 ms of presence lets RELEASE succeed. -/
def execRefclkRestore (s : State) : Host.Outcome State Fault Refusal :=
  .next (run (look fun s => when s.dev.pwr.refclkLost (block [
    setPwr fun x => { x with refclkLost := false },
    dev fun d => { d with elec := { d.elec with restored := (12, s.now) :: d.elec.restored } }])) s)

end Sys2Proof.Machine
end

