-- ==== Sys2Proof/Machine/Bridge.lean ====
section
/-! DEFINITION. The bridge's rows: host reads, writes and atomics, the UCIe modules, function resets, configuration writes, data-port and
doorbell writes (R97 to R131, R135, R136, R157 to R159, R169, R177, R591). -/

namespace Sys2Proof.Machine
open Reg

/-! Writes. -/

/-- INBOUND_POSTED_WRITE (R591). -/
def execInboundPostedWrite (fn : Fin 2) (bar : Bar) (off : Nat) (data : List (Option Byte)) (s : State) : Host.Outcome State Fault Refusal :=
  .next (run (postWrite fn.val bar off data) s)

/-- A write of one register word through BAR0. -/
def regWrite (fn : Fin 2) (off v : Nat) : Prog := postWrite fn.val .bar0 off ((leBytes 4 v).map some)

/-! Writes over the two-wire target bus (R482 to R489). -/

/-- A STOP on the target bus: a new BASE takes effect. -/
def atStop : Prog := look fun s => match s.dev.tw.newBase with
  | some b => block [set TwT.base (b / 4), setTw fun t => { t with newBase := none }]
  | none => .skip

/-- A write of four data bytes, then its STOP. -/
def targetWrite (p : Prog) : Prog := block [bump TwT.writes, p, atStop]

/-- A request in Receiving is discarded. -/
def dropRequest : Prog := setTw fun t => { t with state := 0, words := [], want := 0 }

/-- A write of the status register over the bus: W1C flags and MB_ABORT; without effect before hand-over (R487, R489). -/
def statusWrite (v : Nat) : Prog := targetWrite (look fun s => when (s.mode ≠ mBoot) (block [
  when (bit v 20) (block [consume .twoWire, setTw fun t => { t with respReady := false }]),
  setTw fun t => { t with
    dbLost := t.dbLost && !bit v 21, alertFail := t.alertFail && !bit v 22, protoErr := t.protoErr && !bit v 23
    inTimeout := t.inTimeout && !bit v 24 },
  when (bit v 31 && s.dev.tw.state = 1) dropRequest]))

/-- W1C_FLAG_CLEAR (R169): a write of ones to W1C flags, of the host or over the two-wire bus; bits that are no flags are written 0. -/
def execW1cFlagClear (at_ : Sys2Proof.FlagAt) (value : BitVec 32) (s : State) : Host.Outcome State Fault Refusal :=
  .next (run (match at_ with
    | .host fn bar off => look fun s =>
      let mask := match (s.barAddr fn.val bar off).bind Reg.info with | some i => i.w1c | none => 0xFFFFFFFF
      postWrite fn.val bar off ((leBytes 4 (Nat.land value.toNat mask)).map some)
    | .twoWire => statusWrite (Nat.land value.toNat 0x1F00000)) s)

/-- SRAM_WIN_BASE_WRITE (R114). -/
def execSramWinBaseWrite (fn : Fin 2) (value : BitVec 32) (s : State) : Host.Outcome State Fault Refusal :=
  .next (run (regWrite fn 0x2020 value.toNat) s)

/-- MSIX_VECTOR_UNMASK (R117): the mask bit of a vector is written 0. -/
def execMsixVectorUnmask (fn : Fin 2) (vec : Fin 128) (s : State) : Host.Outcome State Fault Refusal :=
  .next (run (regWrite fn (0x300C + 16 * vec.val) 0) s)

/-- DOORBELL_RING (R136): a host write of a mailbox's doorbell; the two-wire mailbox rings with the last word of its request. -/
def execDoorbellRing (m : MbId) (s : State) : Host.Outcome State Fault Refusal :=
  .next (run (match m with
    | .pf0 k => regWrite 0 (0x4800 + 0x1000 * k.val) 1
    | .pf1 k => regWrite 1 (0x4800 + 0x1000 * k.val) 1
    | .twoWire => look fun s => when (s.dev.tw.state = 1 && s.dev.tw.want ≤ s.dev.tw.words.length)
        (block [setTw fun t => { t with state := 0 }, ring .twoWire])
    | .cascade _ _ => .skip) s)

/-- RESPONSE_CONSUME (R135, R136): a host W1C of RESP_READY, or the board manager's. -/
def execResponseConsume (m : MbId) (s : State) : Host.Outcome State Fault Refusal :=
  .next (run (match m with
    | .pf0 k => regWrite 0 (0x4804 + 0x1000 * k.val) 0x100
    | .pf1 k => regWrite 1 (0x4804 + 0x1000 * k.val) 0x100
    | .twoWire => when (s.mode ≠ mBoot) (block [consume .twoWire, setTw fun t => { t with respReady := false }])
    | .cascade _ _ => .skip) s)

/-- DATA_PORT_ADDR_WRITE (R159). -/
def execDataPortAddrWrite (fn n : Fin 2) (hi : Bool) (value : BitVec 32) (s : State) : Host.Outcome State Fault Refusal :=
  .next (run (regWrite fn (0x8000 + 0x40 * n.val + 4 * boolNat hi) value.toNat) s)

/-- DATA_PORT_CTRL_WRITE (R157, R159). -/
def execDataPortCtrlWrite (fn n : Fin 2) (value : BitVec 32) (s : State) : Host.Outcome State Fault Refusal :=
  .next (run (regWrite fn (0x8008 + 0x40 * n.val) value.toNat) s)

/-- One byte lane of a data port's CTRL is written: NEXT is bit 0 of it, REFRESH bit 1. -/
def portBits (fn n : Fin 2) (v : Nat) : Prog := postWrite fn.val .bar0 (0x8009 + 0x40 * n.val) [some (BitVec.ofNat 8 v)]

/-- DATA_PORT_NEXT (R157). -/
def execDataPortNext (fn n : Fin 2) (s : State) : Host.Outcome State Fault Refusal := .next (run (portBits fn n 1) s)

/-- DATA_PORT_REFRESH (R159). -/
def execDataPortRefresh (fn n : Fin 2) (s : State) : Host.Outcome State Fault Refusal := .next (run (portBits fn n 2) s)

/-- DATA_PORT_FILL_DONE (R159). -/
def execDataPortFillDone (fn n : Fin 2) (s : State) : Host.Outcome State Fault Refusal := .next (run (fillDone fn.val n.val) s)

/-- DATA_PORT_WINDOW_WRITE (R158). -/
def execDataPortWindowWrite (fn n : Fin 2) (off : Nat) (data : List (Option Byte)) (s : State) : Host.Outcome State Fault Refusal :=
  .next (run (postWrite fn.val .bar2 (0x1000 * n.val + off % 0x1000) data) s)

/-! Reads (R112, R118 to R123, R128, R130). -/

/-- Bytes of a host read that came from elsewhere take their place; with the last of them the read completes. -/
def fillRead (id off : Nat) (bs : List Byte) : Prog := look fun s =>
  match s.dev.remoteReads.find? fun r => r.id = id with
  | none => .skip
  | some r =>
    let data := r.data.take off ++ bs ++ r.data.drop (off + bs.length)
    if r.waits ≤ 1 then block [dev fun d => { d with remoteReads := d.remoteReads.filter fun x => x.id ≠ id }, emit (.completion r.fn .success data)]
    else dev fun d => { d with remoteReads := d.remoteReads.map fun x => if x.id = id then { x with data := data, waits := x.waits - 1 } else x }

/-- The words of a read that must come from elsewhere: offset in the read, internal address, length. -/
def State.farParts (s : State) (fn off len : Nat) : List (Nat × Nat × Nat) :=
  (partsOf off len).filterMap fun p => match s.bar2Addr fn p.1 with
    | some a => if s.check fn .bar2 p.1 false = 0 && (isOutWindow a || (isRemote a && s.pathUp (remoteOf a).1)) then some (p.1 - off, a, p.2) else none
    | none => none

/-- Fetching one such word: from host memory under the world of its granule, or from a member (R107, R116, R470). -/
def fetchFar (fn id : Nat) (x : Nat × Nat × Nat) : Prog := look fun s =>
  if isOutWindow x.2.1 then
    let w := boolNat (s.addrS x.2.1)
    hostReadFor w (s.get (Bridge.outBaseLo w) * 0x1000 + 0x100000000 * s.get (Bridge.outBaseHi w) + (x.2.1 - 0x4000000000)) x.2.2
      (.window id x.1 x.2.2) (fillRead id x.1 (zeros x.2.2))
  else sendCtrl (remoteOf x.2.1).1 (fn = 1) (.read id x.1) (leBytes 4 1 ++ leBytes 8 (remoteOf x.2.1).2 ++ leBytes 4 x.2.2)

/-- A BAR0 read is checked as a whole (R591). -/
def readBar0 (fn off len : Nat) : Prog := look fun s =>
  let bad := ((partsOf off len).map fun p => s.check fn .bar0 p.1 false).find? (· ≠ 0)
  match bad with
  | some c => block [emit (.completion fn (causeCpl c) []),
      when (c = 4) (match (bar0Addr fn off).bind s.offNode with | some n => raiseUnpowered n ((bar0Addr fn off).getD 0) | none => .skip)]
  | none =>
    if s.dev.sec.injected = some 4 then block [noteParity 4 0xFF 3 1, emit (.completion fn .completerAbort [])]
    else emit (.completion fn .success ((partsOf off len).flatMap fun p => s.fetchBar fn .bar0 p.1 p.2))

/-- A BAR2 read: words that fail a check are zero; an uncorrectable word of shared SRAM poisons the completion (R511). -/
def readBar2 (fn off len : Nat) : Prog := look fun s =>
  let ok := fun (p : Nat × Nat) => s.check fn .bar2 p.1 false = 0
  let data := (partsOf off len).flatMap fun p => if ok p then s.fetchBar fn .bar2 p.1 p.2 else zeros p.2
  let near := (partsOf off len).filterMap fun p => match s.bar2Addr fn p.1 with
    | some a => if ok p && a < 0x4000000000 && !(p.1 < 0x2000 && s.on (DPort.pfValid (dportBase fn (p.1 / 0x1000)))) then some (a, p.2) else none
    | none => none
  let far := s.farParts fn off len
  let id := (s.dev.remoteReads.map RemoteRead.id).foldl max 0 + 1
  let hit := s.dev.sec.injected = some 4 && near.any fun x => s.parityHit x.1
  block [
    when hit (noteParity 4 0xFF 3 1),
    forEach near fun x => readRange x.1 x.2,
    if !far.isEmpty then block [
        dev fun d => { d with remoteReads := d.remoteReads ++ [⟨id, fn, data, far.length⟩] }, forEach far (fetchFar fn id)]
    else if near.any fun x => isShared x.1 && s.eccBad x.1 x.2 then emit (.completion fn .poisoned data)
    else emit (.completion fn .success (if hit then zeros len else data))]

/-- INBOUND_READ (R130). -/
def execInboundRead (fn : Fin 2) (bar : Bar) (off len : Nat) (s : State) : Host.Outcome State Fault Refusal :=
  .next (run (if len = 0 then emit (.completion fn.val .success []) else match bar with
    | .bar0 => readBar0 fn.val off len
    | .bar2 => readBar2 fn.val off len) s)

/-- OUTBOUND_READ_COMPLETION (R128): the data of one request, or its error. -/
def execOutboundReadCompletion (tag : Nat) (ok : Bool) (data : List Byte) (s : State) : Host.Outcome State Fault Refusal :=
  .next (run (look fun s =>
    match s.dev.host.reads.find? fun r => r.1 = tag with
    | none => .skip
    | some r => block [setHost fun h => { h with reads := h.reads.filter fun x => x.1 ≠ tag },
        match r.2 with
        | .job j n => if ok then jobData j (slice data 0 n) else jobEnds j 3
        | .window id off n => fillRead id off (if ok then slice data 0 n else zeros n)]) s)

/-! Atomics (R106, R119, R125). -/

/-- The value that an AtomicOp leaves. -/
def atomicNew (op : AtomicFn) (w old operand compare : Nat) : Nat :=
  match op with
  | .fetchAdd => (old + operand) % 256 ^ w
  | .swap => operand % 256 ^ w
  | .cas => if old = compare % 256 ^ w then operand % 256 ^ w else old

/-- ATOMIC_OP: outside the atomic window, and for a 32-bit CAS, Unsupported Request; a target that is not aligned is a malformed TLP, which
is not carried out. -/
def execAtomicOp (fn : Fin 2) (bar : Bar) (off : Nat) (op : AtomicFn) (wide : Bool) (operand compare : Nat) (s : State) :
    Host.Outcome State Fault Refusal :=
  .next (run (look fun s =>
    let w := if wide then 8 else 4
    let a := 0x100000000 + (off - 0x100000)
    let bad := ((partsOf off w).map fun p => s.check fn.val bar p.1 true).find? (· ≠ 0)
    if off % w ≠ 0 then .skip
    else if bar = .bar0 ∨ off < 0x100000 ∨ 0x200000 ≤ off ∨ (op = .cas ∧ !wide) then emit (.completion fn.val .unsupportedRequest [])
    else match bad with
      | some c => emit (.completion fn.val (causeCpl c) [])
      | none =>
        let old := s.bytes a w
        block [eccRead a w false,
          if s.eccBad a w then emit (.completion fn.val .poisoned old)
          else block [setBytes a (leBytes w (atomicNew op w (leVal old) operand compare)), emit (.completion fn.val .success old)]]) s)

/-! UCIe modules (R97 to R102, R117). -/

def modRate (m fn : Nat) : Fld := if m = 0 then Bridge.mod0Rate fn else Bridge.mod1Rate fn
def modRepairs (m fn : Nat) : Fld := if m = 0 then Bridge.mod0Repairs fn else Bridge.mod1Repairs fn
def modDown (m fn : Nat) : Fld := if m = 0 then Bridge.mod0Down fn else Bridge.mod1Down fn
def State.everTrained (s : State) (m : Nat) : Bool := if m = 0 then s.dev.host.trained0 else s.dev.host.trained1
def setFails (m n : Nat) : Prog := setHost fun h => if m = 0 then { h with fails0 := n } else { h with fails1 := n }

/-- UCIE_MODULE_TRAINED: the rate both ends support, not above RATE_CAP. A module that trains after a loss sets MOD_UP; held messages
and waiting writes go; guarantees suspended for capacity come back at the next rotation boundary. -/
def execUcieModuleTrained (m : Fin 2) (hostRate : Fin 7) (lowLat : Bool) (repairs : Fin 16) (roundTrip : BitVec 16) (s : State) : Host.Outcome State Fault Refusal :=
  .next (run (look fun s =>
    let rate := min hostRate.val (s.get (Bridge.rateCap 0))
    when (s.domainOn (4 + m.val) && s.get (modRate m.val 0) = 0 && rate ≠ 0) (block [
      forEach [0, 1] fun fn => block [set (modRate m.val fn) rate, set (modRepairs m.val fn) repairs.val, set (Bridge.flitLo fn) (boolNat lowLat)],
      set Car.replayTerm (satNat (roundTrip.toNat + 32) 0xFFFF), setFails m.val 0,
      when (s.everTrained m.val) (bridgeFlagBoth Bridge.modUp),
      setHost fun h => if m.val = 0 then { h with trained0 := true } else { h with trained1 := true },
      raise 1 0x22 1 [BitVec.ofNat 8 m.val, BitVec.ofNat 8 rate, BitVec.ofNat 8 repairs.val],
      setPwr fun x => { x with linkLost := false },
      sendHeld 0, sendHeld 1, drainHost,
      forEach allStreams fun i => look fun s => when ((s.stream i).suspendedBy.contains byCapacity && !(s.stream i).lifting.contains byCapacity)
        (setStream i fun t => { t with lifting := byCapacity :: t.lifting })])) s)

/-- UCIE_TRAINING_FAILURE: one more failed attempt in a row. -/
def execUcieTrainingFailure (m : Fin 2) (s : State) : Host.Outcome State Fault Refusal :=
  .next (run (look fun s => when (s.domainOn (4 + m.val) && s.get (modRate m.val 0) = 0)
    (setFails m.val (if m.val = 0 then s.dev.host.fails0 + 1 else s.dev.host.fails1 + 1))) s)

/-- UCIE_TRAINING_RETRY: the module trains again, up to RATE_CAP; after the third failure firmware does so, where a mode has it. -/
def execUcieTrainingRetry (m : Fin 2) (s : State) : Host.Outcome State Fault Refusal :=
  .next (run (look fun s =>
    let fails := if m.val = 0 then s.dev.host.fails0 else s.dev.host.fails1
    let byFw := s.mode = mArmed || s.mode = mAcquire || s.mode = mMaintenance || (s.mode = mSafeHold && s.dev.pwr.linkLost)
    when (s.domainOn (4 + m.val) && s.get (modRate m.val 0) = 0 && fails ≠ 0 && (fails ≤ 3 || byFw)) (emit (.uncoreLink m.val (s.get (Bridge.rateCap 0))))) s)

/-- UCIE_MODULE_DOWN (R101, R102). -/
def execUcieModuleDown (m : Fin 2) (ltsm : BitVec 8) (s : State) : Host.Outcome State Fault Refusal :=
  .next (run (look fun s =>
    let rate := s.get (modRate m.val 0)
    when (rate ≠ 0) (block [
      forEach [0, 1] fun fn => set (modRate m.val fn) 0,
      bridgeFlagBoth (modDown m.val), countCorrected 1,
      raise 1 0x21 1 [BitVec.ofNat 8 m.val, BitVec.ofNat 8 rate, ltsm],
      look fun s =>
        when (s.mode = mArmed || s.mode = mAcquire || s.mode = mMaintenance)
          (if s.linkUp then forEach s.overCapacity fun i => suspend i byCapacity
            else block [setPwr fun x => { x with linkLost := true }, safeHoldFor byFault false])])) s)

/-- UCIE_LINK_REPLAY (R100): a replay, with the stream and sequence of the row it delays; a second one of a row is an excess. -/
def execUcieLinkReplay (rec : Option (Fin 16 × BitVec 48)) (s : State) : Host.Outcome State Fault Refusal :=
  .next (run (look fun s => block [
    forEach [0, 1] fun fn => bump (Bridge.replays fn),
    match rec with
    | none => .skip
    | some r =>
      let i := r.1.val
      let q := r.2.toNat
      let n := 1 + ((s.dev.host.replayed.find? fun x => x.1 = i && x.2.1 = q).elim 0 fun x => x.2.2)
      block [
        setHost fun h => { h with replayed := (i, q, n) :: h.replayed.filter fun x =>
          !(x.1 = i && x.2.1 = q) && ((s.stream x.1).flight.any fun e => e.seq = x.2.1) },
        when (2 ≤ n) (block [bridgeFlagBoth Bridge.replayExcess, countCorrected 1,
          raise 1 0x23 1 (leBytes 1 i ++ leBytes 6 q ++ leBytes 1 (satNat n 255))])]]) s)

/-- HOST_CREDIT_RETURN (R131). -/
def execHostCreditReturn (bytes : Nat) (s : State) : Host.Outcome State Fault Refusal :=
  .next (run (block [setHost fun h => { h with credit := h.credit + bytes }, drainHost]) s)

/-! Function resets and configuration (R105, R107, R109, R117, R177). -/

/-- The streams of a world close at once, their rings are disabled. -/
def closeWorld (worldS : Bool) (cause : Nat) : Prog := look fun s =>
  forEach (allStreams.filter fun i => s.admitted i && (s.stream i).worldS == worldS) fun i => block [
    closeNow i cause, forEach [i, 16 + i] fun k => set (Ring.enable k) 0]

/-- What a Function Level Reset returns to reset: configuration space, mailboxes, data ports and bridge registers of the function. Its
queued outbound writes are discarded and counted first; a queued command is discarded, a taken one goes on without a response. -/
def resetFunction (fn : Nat) : Prog := look fun s =>
  let n := (s.dev.host.waiting.filter fun w => w.fn = fn).length
  let mine := allMailboxes.filter fun m => m.fn = fn
  let ready := s.fwReady
  let shared := (Bridge.replays fn :: [Bridge.mod0Rate fn, Bridge.mod1Rate fn, Bridge.flitLo fn, Bridge.mod0Repairs fn, Bridge.mod1Repairs fn,
    Bridge.rateCap fn]).map fun f => (f, s.get f)
  block [
    when (n ≠ 0) (block [bumpBy (Bridge.outDiscards fn) n, setFlag (Bridge.bmeDiscard fn), bumpBy (Node.counter 1 none 3) n]),
    setHost fun h => { h with waiting := h.waiting.filter fun w => w.fn ≠ fn },
    dev fun d => { d with
      doorbells := d.doorbells.filter fun m => m = .twoWire || m.fn ≠ fn
      journal := d.journal.map fun e => if mine.contains e.mb then { e with answered := true } else e
      remoteReads := d.remoteReads.filter fun r => r.fn ≠ fn },
    setHost fun h => if fn = 0 then { h with pf0 := PciFn.reset, flr0 := true } else { h with pf1 := PciFn.reset, flr1 := true },
    resetRegs (hostKey fn 0x3000) 0x6000, clearMem (hostKey fn 0x3000) 0x6000, forEach [0, 1] fun k => clearMem (prefetchBase fn k) 0x1000,
    resetRegs (0x01300000 + 0x10000 * fn) 0x100, forEach shared fun x => set x.1 x.2,
    when ready (forEach mine fun m => set (Mbx.fwReady m.base) 1)]

/-- FUNCTION_LEVEL_RESET (R109, R177); one of PF0 is absorbed by an N-world reset under way (Table 5-4). -/
def execFunctionLevelReset (fn : Fin 2) (s : State) : Host.Outcome State Fault Refusal :=
  .next (run (look fun s => when (!(fn.val = 0 && (s.pendingCmd 0xF 3 1).isSome)) <| block [resetFunction fn.val, closeWorld (fn.val = 1) closedByReset, set BootReg.resetCause (4 + fn.val)]) s)

/-- FLR_DONE (R109). -/
def execFlrDone (fn : Fin 2) (s : State) : Host.Outcome State Fault Refusal :=
  .next (run (look fun s => when (if fn.val = 0 then s.dev.host.flr0 else s.dev.host.flr1) (block [
    setHost fun h => if fn.val = 0 then { h with flr0 := false } else { h with flr1 := false },
    raise 1 0x25 1 [BitVec.ofNat 8 fn.val]])) s)

def setPci (fn : Nat) (f : PciFn → PciFn) : Prog :=
  setHost fun h => if fn = 0 then { h with pf0 := f h.pf0 } else { h with pf1 := f h.pf1 }

/-- CONFIGURATION_WRITE: clearing the function mask sends what it held. -/
def execConfigurationWrite (fn : Fin 2) (w : CfgWrite) (s : State) : Host.Outcome State Fault Refusal :=
  .next (run (match w with
    | .busMaster b => setPci fn.val fun p => { p with busMaster := b }
    | .msixControl e m => block [setPci fn.val fun p => { p with msixEnable := e, msixMask := m }, sendHeld fn.val]
    | .powerState d => setPci fn.val fun p => { p with d3 := d }
    | .maxReadRequest n => when (n = 128 || n = 256 || n = 512 || n = 1024 || n = 2048 || n = 4096) (setPci fn.val fun p => { p with maxRead := n })
    | .other r v => setPci fn.val fun p => { p with other := Tbl.set 0 p.other r v }) s)

end Sys2Proof.Machine
end

