-- ==== Sys2Proof/Machine/NodeCommands.lean ====
section
/-! DEFINITION. The device commands of class 0x01 but ABORT, the node commands of class 0x02, node resets and the status page (R14, R22,
R29, R30, R152, R153, R155, R156, R164, R596). -/

namespace Sys2Proof.Machine
open Reg

/-! Device commands (Table 4-12). -/

/-- GET_IDENTITY: a group's is its root's. -/
def specGetIdentity : CmdSpec where
  cls := 1
  code := 1
  bound := 50
  levels := [.device, .group]
  changes := false
  results := fun _ s => [tlv 1 1 (s.get Ident.formLevel), tlv 2 1 (s.get Ident.ifLevel), tlv 3 1 (s.get Ident.role), tlv 4 1 (s.get Ident.form),
    ⟨5, s.words 0x01000010 4⟩, tlv 6 4 (s.get Live.runBuild + 0x80000000 * s.get Live.runSlot)]
  effect := fun _ => .skip

/-- How many commands a class has; their codes run from 1 (Tables 2-19, 4-12, 4-13, 6-12, 7-15, 8-7, 9-8, 10-7, 11-9, 12-13, 13-15, 14-13,
15-8, 16-7, 17-14, 17-15, 18-5). -/
def commandCount (cls : Nat) : Nat := [0, 5, 5, 10, 10, 15, 12, 7, 5, 4, 5, 8, 6, 5, 3, 9, 8, 6].getD cls 0

/-- GET_VERSIONS: version 1 throughout (R152). -/
def specGetVersions : CmdSpec where
  cls := 1
  code := 2
  bound := 50
  levels := [.device, .group]
  keys := [need 1 1 1 0x11]
  changes := false
  results := fun c _ => [⟨7, (List.range (commandCount (c.val 1))).flatMap fun k => leBytes 1 (k + 1) ++ [1, 0, 0]⟩]
  effect := fun _ => .skip

/-- ECHO. -/
def specEcho : CmdSpec where
  cls := 1
  code := 3
  bound := 20
  levels := [.stage, .pipeline, .cluster, .device, .group]
  keys := [raw 8 0 1000 1 true]
  changes := false
  results := fun c _ => [⟨8, c.bytes 8⟩]
  effect := fun _ => .skip

/-- The flag register of the issuing mailbox's function at a BAR0 offset (R596). -/
def ownFlags (m : MbId) (off : Nat) : Option Nat :=
  let fn := m.fn
  match m with
  | .twoWire => none
  | .cascade _ _ => none
  | _ => if off = 0x1018 ∨ off = 0x2004 ∨ (0x4804 ≤ off ∧ off < (if fn = 0 then 0x8000 else 0x6000) ∧ off % 0x1000 = 0x804) then bar0Addr fn off else none

/-- CLEAR_FLAG_COUNTERS (R596). -/
def specClearFlagCounters : CmdSpec where
  cls := 1
  code := 5
  bound := 50
  levels := [.device]
  keys := [opt 0xB 8 0 0xFFFFFFFFFF, opt 0xC 4 0 0xFFFFFFFF]
  denied := fun c s => c.has 0xB && !c.has 0xC && !s.reach (s.mbS c.mb) (c.val 0xB)
  params := fun c _ =>
    if c.has 0xB == c.has 0xC then some 0xB
    else if c.has 0xB then (if flagCounters (c.val 0xB) = [] then some 0xB else none)
    else if (ownFlags c.mb (c.val 0xC)).isNone then some 0xC else none
  effect := fun c => match (if c.has 0xB then some (c.val 0xB) else ownFlags c.mb (c.val 0xC)) with
    | some a => clearFlagCounters a
    | none => .skip

/-! Node commands (Table 4-13). -/

/-- The stage of a target, where it names one. -/
def Target.stage (t : Target) : Option Nat := match t.kind with | .stage _ k => some k | _ => none

/-- A NID of a header as the holder of a remote NID sees it: this device's own nodes with its index, its parent's group node above. -/
def State.remoteNid (s : State) (d n : Nat) : Nat :=
  let up := 0x1000 * (match s.upstream with | some q => (s.quad q).peer.index | none => 0)
  if n = 0xFFFF then up else 0x1000 * d + n

/-- The header of a target with NID, PARENT and FIRST_CHILD in the numbering of the address that names it (R16, R17). -/
def State.headerOf (s : State) (t : Target) : List Byte :=
  let h := s.header t.local t.stage
  let d := t.nid / 0x1000
  if d = 0 then leBytes 2 t.nid ++ h.drop 2
  else
    let first := leAt h 10 2
    leBytes 2 t.nid ++ slice h 2 6 ++ leBytes 2 (s.remoteNid d (leAt h 8 2)) ++ leBytes 2 (if first = 0xFFFF then first else 0x1000 * d + first)
      ++ h.drop 12

/-- GET_HEADER. -/
def specGetHeader : CmdSpec where
  cls := 2
  code := 1
  bound := 50
  levels := [.stage, .pipeline, .cluster, .device, .group]
  changes := false
  results := fun c s => [⟨1, s.headerOf c.tgt⟩]
  effect := fun _ => .skip

/-- The children of a node as node addresses, in ascending order (R14, R15, R20). -/
def State.childAddrs (s : State) (t : Target) : List Nat :=
  let off := t.nid / 0x1000 * 0x1000
  match t.kind with
  | .group => (off + 1) :: ((List.range 16).filter fun d => (s.childrenOf s.dev.ownIndex).contains d).map fun d =>
      if (s.childrenOf d).isEmpty then 0x1000 * d + 1 else 0x1000 * d
  | .device => (List.range 8).map fun c => off + nidCluster c
  | .cluster c => (List.range 8).map fun k => off + nidPipe (8 * c + k)
  | .pipeline p => (List.range 16).map fun k => 0x100000 + 0x10000 * k + off + nidPipe p
  | .stage _ _ => []

/-- LIST_CHILDREN. -/
def specListChildren : CmdSpec where
  cls := 2
  code := 2
  bound := 100
  levels := [.pipeline, .cluster, .device, .group]
  changes := false
  results := fun c s => [⟨2, (s.childAddrs c.tgt).flatMap (leBytes 4)⟩]
  effect := fun _ => .skip

/-- A node with its populated stages. -/
def pipeNodes (p : Nat) : List (Nat × Option Nat) := (nidPipe p, none) :: (List.range 12).map fun k => (nidPipe p, some k)
def clusterNodes (c : Nat) : List (Nat × Option Nat) := (nidCluster c, none) :: (clusterPipes c).flatMap pipeNodes

/-- The local nodes that a scope covers. -/
def Target.nodes (t : Target) (subtree : Bool) : List (Nat × Option Nat) :=
  if !subtree then [(t.local, t.stage)]
  else match t.kind with
    | .stage p k => [(nidPipe p, some k)]
    | .pipeline p => pipeNodes p
    | .cluster c => clusterNodes c
    | .device => (1, none) :: (List.range 8).flatMap clusterNodes
    | .group => (0, none) :: (1, none) :: (List.range 8).flatMap clusterNodes

/-- The eight common counters of a node. -/
def State.countersOf (s : State) (n : Nat × Option Nat) : List Nat :=
  (List.range 8).map fun i => leVal (s.peek (nodeBase 0x01120000 n.1 n.2 + 8 * i) 8)

/-- Sums of counters, each saturating (R30). -/
def addCounters (a b : List Nat) : List Nat := (List.range 8).map fun i => satNat (a.getD i 0 + b.getD i 0) 0xFFFFFFFFFFFFFFFF

def countersTlv (v : List Nat) : Tlv := ⟨4, v.flatMap (leBytes 8)⟩

/-- READ_COUNTERS: a subtree sum counts the nodes of the mailbox's world (R156). -/
def specReadCounters : CmdSpec where
  cls := 2
  code := 3
  bound := 200
  levels := [.stage, .pipeline, .cluster, .device, .group]
  keys := [needAny 3 0 1]
  changes := false
  fanout := true
  results := fun c s =>
    [countersTlv (((c.tgt.nodes (c.val 3 = 1)).filter fun n => c.val 3 = 0 || s.mbS c.mb || !s.nodeS n.1).foldl
      (fun acc n => addCounters acc (s.countersOf n)) (List.replicate 8 0))]
  gather := fun c own others => if c.val 3 = 0 then own else
    let nums := fun (ts : List Tlv) => match ts.find? fun t => t.key = 4 with
      | some t => (List.range 8).map fun i => leAt t.val (8 * i) 8 | none => []
    [countersTlv ((others.map Prod.snd).foldl (fun acc ts => addCounters acc (nums ts)) (nums own))]
  effect := fun _ => .skip

/-- CLEAR_COUNTERS (R29, R156). -/
def specClearCounters : CmdSpec where
  cls := 2
  code := 4
  bound := 200
  levels := [.stage, .pipeline, .cluster, .device, .group]
  keys := [needAny 3 0 1]
  fanout := true
  effect := fun c => look fun s =>
    forEach ((c.tgt.nodes (c.val 3 = 1)).filter fun n => s.mbS c.mb || !s.nodeS n.1) fun n =>
      forEach (List.range 8) fun i => set (Node.counter n.1 n.2 i) 0

/-! Node resets (R155, R156, R559). -/

/-- NODE_RESET: BIST starts at once, which is its point of no return. -/
def specNodeReset : CmdSpec where
  cls := 2
  code := 5
  bound := 50
  pends := some 50000
  levels := [.pipeline, .cluster]
  faultOk := true
  mode := fun c s => s.get (Node.state c.tgt.local) ≠ stFaulted
  effect := fun _ => .skip
  past := fun _ _ => true

/-- What BIST of a Faulted node ends with (R64): Gated, as the spare again where it holds that role, or Retired. A pipeline that a spare
has replaced leaves its cluster without one when it fails (R559). -/
def bistEnds (nid : Nat) (pass auto : Bool) : Prog := look fun s =>
  let p := nid - 0x100
  if s.get (Node.state nid) ≠ stFaulted then .skip
  else if pass then block [setState nid stGated,
    when (0x100 ≤ nid && s.get (Role.spareK (p / 8)) = p % 8) (block [set (Role.spareValid (p / 8)) 1, autoSpares (p / 8)])]
  else if nid < 0x100 then setState nid stRetired
  else if auto then block [setState nid stRetired, set (Role.retired (p / 8)) (putBits (s.get (Role.retired (p / 8))) (p % 8) 1 1),
    set (Role.spareValid (p / 8)) 0]
  else retirePipe p

/-- NODE_RESET_BIST_DONE (R56, R155, R559): BIST ends, of NODE_RESET or of firmware's own; NID 1 is the block of a device-class fault. -/
def execNodeResetBistDone (nid : Fin 0x140) (pass : Bool) (s : State) : Host.Outcome State Fault Refusal :=
  .next (run (look fun s =>
    if nid.val = 1 then when (pass && s.mode = mSafeHold) (setPwr fun x => { x with faultLive := false })
    else if s.dev.pwr.bist.contains nid.val then
      block [setPwr fun x => { x with bist := x.bist.filter (· ≠ nid.val) }, bistEnds nid.val pass true]
    else finish 2 5 nid.val (fun _ => bistEnds nid.val pass false) 0) s)

/-! The status page (R164, Tables 4-18 to 4-20). -/

/-- A stream's entry; zero for a stream of the S world on PF0's page. -/
def State.pageStream (s : State) (fn i : Nat) : List Byte :=
  let t := s.stream i
  if fn = 0 ∧ t.worldS then zeros 64
  else
    let st := match s.sState i with | 0 => 0 | 1 => 1 | _ => if s.on (Del.suspended i) then 3 else 2
    leBytes 4 st ++ leBytes 4 (s.get (Del.boundNs i)) ++ leBytes 8 t.rows ++ leBytes 8 (s.get (Del.violations i)) ++ leBytes 8 t.dropped
      ++ leBytes 8 t.marked ++ leBytes 8 (t.lastSeq % 0x1000000000000) ++ leBytes 4 (s.get (Del.worstNs i))
      ++ leBytes 4 (satNat (s.get (Del.lateSuspended i)) 0xFFFFFFFF) ++ zeros 8

/-- A local port's entry. -/
def State.pagePort (s : State) (n : Nat) : List Byte :=
  let rate := if n < 48 then s.get (Port.gear n) else s.get (Port.rate n)
  [BitVec.ofNat 8 (s.get (Port.link n)), BitVec.ofNat 8 rate, 0, 0] ++ leBytes 4 (s.get (Port.retrans n)) ++ leBytes 4 (s.get (Port.linkErr n))
    ++ leBytes 4 (s.get (Port.lost n))

/-- The fields from offset 0x0008 to 0x004F. -/
def State.pageHead (s : State) (fn : Nat) : List Byte :=
  let mine := fun (i : Nat) => !(fn = 0 && (s.stream i).worldS)
  let started := sumNat ((allStreams.filter fun i => mine i && sStarted ≤ s.sState i).map fun i => 2 ^ i)
  let held := sumNat ((allStreams.filter fun i => mine i && s.admitted i && s.on (Del.suspended i)).map fun i => 2 ^ i)
  s.timeBytes ++ s.words 0x01000100 1 ++ leBytes 4 (s.word 0x01700080) ++ leBytes 4 (s.word 0x01700084)
    ++ leBytes 4 (s.get Ident.formLevel + 0x100 * s.get Ident.ifLevel + 0x10000 * s.get Live.runSlot + 0x20000 * boolNat s.fwReady)
    ++ s.words 0x01000200 5 ++ s.words 0x01000220 5
    ++ leBytes 4 (if fn = 1 then s.dev.evS.total else s.dev.evN.total) ++ leBytes 4 (started + 0x10000 * held)

/-- One page refreshed, between its two increments of GEN. -/
def refreshPage (fn : Nat) : Prog := look fun s =>
  let b := statusPageBase fn
  block [
    setBytes (b + 8) (s.pageHead fn),
    setBytes (b + 0x100) (allStreams.flatMap (s.pageStream fn)),
    setBytes (b + 0x500) ((List.range 56).flatMap s.pagePort),
    setBytes b (leBytes 4 (leVal (s.bytes b 4) + 2))]

/-- STATUS_PAGE_REFRESH: firmware refreshes both pages. -/
def execStatusPageRefresh (s : State) : Host.Outcome State Fault Refusal :=
  .next (run (look fun s => when s.fwReady (forEach [0, 1] refreshPage)) s)

/-! The commands of this class. -/

def execGetIdentity (m : MbId) (r : Req) (s : State) : Host.Outcome State Fault Refusal := runCommand specGetIdentity m r s
def execGetVersions (m : MbId) (r : Req) (s : State) : Host.Outcome State Fault Refusal := runCommand specGetVersions m r s
def execEcho (m : MbId) (r : Req) (s : State) : Host.Outcome State Fault Refusal := runCommand specEcho m r s
def execClearFlagCounters (m : MbId) (r : Req) (s : State) : Host.Outcome State Fault Refusal := runCommand specClearFlagCounters m r s
def execGetHeader (m : MbId) (r : Req) (s : State) : Host.Outcome State Fault Refusal := runCommand specGetHeader m r s
def execListChildren (m : MbId) (r : Req) (s : State) : Host.Outcome State Fault Refusal := runCommand specListChildren m r s
def execReadCounters (m : MbId) (r : Req) (s : State) : Host.Outcome State Fault Refusal := runCommand specReadCounters m r s
def execClearCounters (m : MbId) (r : Req) (s : State) : Host.Outcome State Fault Refusal := runCommand specClearCounters m r s
def execNodeReset (m : MbId) (r : Req) (s : State) : Host.Outcome State Fault Refusal := runCommand specNodeReset m r s

end Sys2Proof.Machine
end

