-- ==== Sys2Proof/Machine/Integrity.lean ====
section
/-! DEFINITION. Integrity: write-backs, the patrol, lockstep, header repair, and the commands of class 0x0E (R507 to R511, R517 to R520). -/

namespace Sys2Proof.Machine
open Reg

/-! Memory protection. -/

/-- ECC_WRITEBACK (R507): the corrected word that holds an address is written back. -/
def execEccWriteback (a : BitVec 40) (s : State) : Host.Outcome State Fault Refusal :=
  .next (run (setEcc fun l => l.filter fun e => !(e.1 = a.toNat / 8 * 8 && e.2 = 3)) s)

/-- Does the patrol visit a word (R508): shared SRAM, control-processor memory, a cluster's retention bank, powered and not in
retention? -/
def State.patrolled (s : State) (a : Nat) : Bool :=
  if isShared a then s.domainOn 6
  else if a < 0x00400000 then s.domainOn 1
  else if 0x10000000 ≤ a ∧ a < 0x18000000 ∧ !isMemory a then s.domainOn (21 + (a - 0x10000000) / 0x01000000)
  else if 0x20000000 ≤ a ∧ a < 0x24000000 ∧ !isMemory a then s.domainOn (21 + (a - 0x20000000) / 0x800000)
  else false

/-- PATROL_READ (R508): a single-bit error is corrected; an uncorrectable one is logged, and its word stays. The read may complete a pass
over all memories. -/
def execPatrolRead (a : BitVec 40) (pass : Bool) (s : State) : Host.Outcome State Fault Refusal :=
  .next (run (look fun s => when (s.patrolled a.toNat) (
    let w := a.toNat / 8 * 8
    block [
      forEach (s.eccIn w 8 1) fun w => block [noteCe w, setEcc fun l => l.map fun e => if e.1 = w then (w, 3) else e],
      forEach (s.eccIn w 8 2) fun w => look fun s => noteUe w (s.content w false) (contentClass (s.content w false)) true,
      when pass (bump Flt.patrolPasses)])) s)

/-- LOCKSTEP_MISMATCH (R510, R516): the cores are held, and the control complex restarts as for a watchdog expiry. In Boot, where no slot
has run yet, the ROM starts over at step 1. -/
def execLockstepMismatch (cclk : BitVec 64) (s : State) : Host.Outcome State Fault Refusal :=
  .next (run (look fun s => when (s.mode ≠ mStandby && s.get Therm.state ≠ 4 && 1 ≤ s.get BootReg.step) (block [
    setFlag Flt.lockstep, bump Flt.lockstepCount, countCorrected 1,
    dev fun d => { d with sec := { d.sec with injected := if d.sec.injected = some 5 then none else d.sec.injected } },
    if s.mode = mBoot then block [set BootReg.step 1, set BootReg.waiting 0, set BootReg.failed 0]
    else block [raise 0x0E 4 1 (leBytes 8 cclk.toNat), expiry byLockstep]])) s)

/-- HEADER_WORD_REPAIR (R511): firmware rewrites a damaged word of the header or counter tables from its own copy. -/
def execHeaderWordRepair (a : BitVec 40) (s : State) : Host.Outcome State Fault Refusal :=
  .next (run (look fun s => when (s.fwReady && 0x01100000 ≤ a.toNat && a.toNat < 0x01140000)
    (setEcc fun l => l.filter fun e => e.1 ≠ a.toNat / 8 * 8)) s)

/-! Commands (Table 16-7). -/

/-- FAULT_STATUS: of a group, the member with the highest UE_COUNT, with its device index. -/
def specFaultStatus : CmdSpec where
  cls := 0xE
  code := 1
  bound := 50
  levels := [.device, .group]
  changes := false
  fanout := true
  results := fun c s => ⟨1, s.words 0x01701000 9⟩ :: (if c.tgt.kind = .group then [tlv 2 1 s.dev.ownIndex] else [])
  gather := fun _ own others =>
    let ue := fun (ts : List Tlv) => match ts.find? fun t => t.key = 1 with | some t => leAt t.val 0x14 4 | none => 0
    others.foldl (fun best m => if ue best < ue m.2 then (m.2.filter fun t => t.key = 1) ++ [tlv 2 1 m.1] else best) own
  effect := fun _ => .skip

/-- The profile that CRC_COMPUTE names; profile 0 where it names none. -/
def Ctx.profile (c : Ctx) : CrcProfile :=
  if c.has 0x12 then ⟨c.at 0x12 0 1, c.at 0x13 0 8, c.at 0x13 8 8, c.at 0x13 16 8, c.at 0x12 1 1 = 1, c.at 0x12 2 1 = 1, c.at 0x12 3 1 = 1⟩
  else houseProfile

/-- The offending key of the profile. -/
def Ctx.profileBad (c : Ctx) : Option Nat :=
  let p := c.profile
  let top := 2 ^ p.width
  if c.has 0x12 then
    (if !c.has 0x13 then some 0x13
     else if p.width < 8 ∨ 64 < p.width ∨ 1 < c.at 0x12 1 1 ∨ 1 < c.at 0x12 2 1 ∨ 1 < c.at 0x12 3 1 then some 0x12
     else if top ≤ p.poly ∨ top ≤ p.init ∨ top ≤ p.xorOut then some 0x13 else none)
  else if c.has 0x13 then some 0x12 else none

/-- The check value as a result. -/
def checkTlv (v : Nat) : Tlv := tlv 0x15 8 v

/-- The check value over the region, whose bytes the device holds. -/
def crcOver (c : Ctx) (s : State) : Nat := crc c.profile (if c.has 0x14 then c.bytes 0x14 else zeros 8) (s.peek (c.val 0x10) (c.val 0x11))

/-- Does the region reach host memory or another device, whose bytes the device does not hold? -/
def Ctx.farRegion (c : Ctx) : Bool := 0x4000000000 < c.val 0x10 + c.val 0x11

/-- CRC_COMPUTE (R519). -/
def specCrcCompute : CmdSpec where
  cls := 0xE
  code := 2
  bound := 50
  levels := [.device]
  keys := [need 0x10 8 0 0xFFFFFFFFFF, need 0x11 4 1 67108864, opt 0x12 4 0 0xFFFFFFFF, raw 0x13 24 24 1 false, raw 0x14 8 8 1 false] ++ resultKeys
  denied := fun c s => !s.reachRange (s.mbS c.mb) (c.val 0x10) (c.val 0x11) || resultDenied c s
  params := fun c _ => c.profileBad.orElse fun _ => resultBad c
  changes := false
  pends := some 1000
  extra := fun c _ => (ceilDiv (c.val 0x11) 0x100000 - 1) * 1000000
  results := fun c s => [checkTlv (crcOver c s)]
  effect := fun _ => .skip

/-- CRC_COMPUTE_DONE: the value goes to the result region. -/
def execCrcComputeDone (s : State) : Host.Outcome State Fault Refusal :=
  .next (run (finishCtx 0xE 2 1 (fun _ _ => none) fun c e =>
    if c.farRegion then fresh fun v => putResult e (tlvBytes [checkTlv v])
    else block [readRange (c.val 0x10) (c.val 0x11), look fun s => putResult e (tlvBytes [checkTlv (crcOver c s)])]) s)

/-- ERR_INJECT (R519). -/
def specErrInject : CmdSpec where
  cls := 0xE
  code := 3
  bound := 1000
  levels := [.device]
  sOnly := true
  keys := [needAny 0x20 0 5, opt 0x21 8 0 0xFFFFFFFFFF]
  params := fun c s => if c.val 0x20 = 1 ∨ c.val 0x20 = 2 then (if c.has 0x21 && s.mapped (c.val 0x21) then none else some 0x21) else none
  mode := fun _ s => s.mode ≠ mMaintenance
  effect := fun c => block [
    set Flt.injectKind (c.val 0x20),
    let w := c.val 0x21 / 8 * 8
    if c.val 0x20 = 1 ∨ c.val 0x20 = 2 then setEcc fun l => (w, c.val 0x20) :: l.filter fun e => e.1 ≠ w
    else dev fun d => { d with sec := { d.sec with injected := if c.val 0x20 = 0 then none else some (c.val 0x20) } }]

/-! The commands of this class. -/

def execFaultStatus (m : MbId) (r : Req) (s : State) : Host.Outcome State Fault Refusal := runCommand specFaultStatus m r s
def execCrcCompute (m : MbId) (r : Req) (s : State) : Host.Outcome State Fault Refusal := runCommand specCrcCompute m r s
def execErrInject (m : MbId) (r : Req) (s : State) : Host.Outcome State Fault Refusal := runCommand specErrInject m r s

end Sys2Proof.Machine
end

