-- ==== Sys2Proof/Machine/Security.lean ====
section
/-! DEFINITION. The security commands of class 0x0F: worlds, N-world reset, attestation, tag keys, rollback (R178, R521 to R535, R548, R549). -/

namespace Sys2Proof.Machine
open Reg

/-! Worlds. -/

/-- WORLD_STATUS: registers 0x000 to 0x0AF. -/
def specWorldStatus : CmdSpec where
  cls := 0xF
  code := 1
  bound := 50
  levels := [.device]
  changes := false
  results := fun _ s => [⟨1, s.words 0x02020000 44⟩]
  effect := fun _ => .skip

/-- The node of this device that key 2 of WORLD_QUERY names. -/
def Ctx.queried (c : Ctx) (s : State) : Option Target := (s.target (c.val 2)).bind fun t => if t.own then some t else none

/-- WORLD_QUERY: of a node of this device or an internal address, of exactly one of them. -/
def specWorldQuery : CmdSpec where
  cls := 0xF
  code := 2
  bound := 50
  levels := [.device]
  keys := [optAny 2 0 0xFFFFFFFF, opt 3 8 0 0xFFFFFFFFFF]
  changes := false
  params := fun c s => if c.has 2 == c.has 3 then some 2
    else if c.has 2 && (c.queried s).isNone then some 2 else if c.has 3 && !s.mapped (c.val 3) then some 3 else none
  results := fun c s => [tlv 4 1 (boolNat (match c.queried s with
    | some t => if c.has 2 then s.nodeS t.local else s.addrS (c.val 3)
    | none => s.addrS (c.val 3)))]
  effect := fun _ => .skip

/-! N-world reset (R178). -/

/-- NWORLD_RESET: PF0 is reset as by its Function Level Reset. -/
def specNworldReset : CmdSpec where
  cls := 0xF
  code := 3
  bound := 50
  pends := some 20000
  levels := [.device]
  sOnly := true
  effect := fun _ => block [resetFunction 0, set BootReg.resetCause 6]
  past := fun _ _ => true

/-- A pipeline of the N world returns to its default configuration; its node state stays, but Calibrating becomes Running. -/
def defaultPipe (p : Nat) : Prog := look fun s =>
  let st := s.get (Node.state (nidPipe p))
  block [
    when (st = stCalibrating) (setState (nidPipe p) stRunning),
    resetPipe p,
    setPwr fun x => { x with policies := Tbl.erase x.policies p, resolved := Tbl.erase x.resolved p },
    when (st ≠ stOff) (updateLatency p)]

/-- A cluster of the N world returns to its default configuration, its ports with it. -/
def defaultCluster (c : Nat) : Prog := look fun s =>
  let base := 0x10000000 + 0x01000000 * c
  block [
    forEach ((List.range 6).map (fun k => 6 * c + k) ++ [48 + c]) offPort,
    offCluster.resetKept c base, clearMem base 0x01000000,
    setEcc fun l => l.filter fun e => !(base ≤ e.1 && e.1 < base + 0x01000000),
    setPwr fun x => { x with idleUs := Tbl.erase x.idleUs c },
    set Live.autoSpare (putBits (s.get Live.autoSpare) c 1 0)]

/-- What the device node holds for the N world returns to its defaults: streams that are not the S world's, and the encoder channels, timing
pins and two-wire controllers that the policy leaves in N. Positions are no configuration. -/
def defaultDevice : Prog := look fun s =>
  let mine := allStreams.filter fun i => !(s.admitted i && (s.stream i).worldS)
  block [
    forEach mine fun i => block [resetRegs (0x01200000 + 0x8000 * i) 0x8000, resetRegs (0x01510000 + 0x4000 * i) 0x4000,
      setGen i fun _ => GenSt.reset, setAsm i fun _ => AsmSt.reset, setStream i fun _ => StreamSt.reset],
    when (!s.serviceS 0) (block [resetRegs 0x01501000 0x400,
      forEach (List.range 4) fun e => forEach [Enc.posLo e, Enc.posHi e] fun f => set f (s.get f)]),
    when (!s.serviceS 1) (block [resetRegs 0x01550000 0x10000,
      setTime fun t => { t with captures := [], pulses := [], pulseHigh := [], wakePins := [] }]),
    when (!s.serviceS 2) (block [resetRegs 0x01601000 0x400, dev fun d => { d with twc := d.twc.filter fun x => 16 ≤ x.1 }]),
    when (!s.serviceS 3) (block [resetRegs 0x01604000 0x3000, dev fun d => { d with twc := d.twc.filter fun x => x.1 < 16 }])]

/-- The granules of shared SRAM in the N world. -/
def State.nGranules (s : State) : List Nat := (List.range 768).filter fun g => !s.granuleS g

/-- The N-world reset itself: no event leaves while it runs; the N ring is emptied, and "N-world reset done" heads it. -/
def nworldReset (m : MbId) : Prog := look fun s =>
  let closed := (allStreams.filter fun i => s.admitted i && !(s.stream i).worldS).length
  let on := s.get (Ring.enable 32)
  block [
    set (Ring.enable 32) 0,
    closeWorld false closedByNWorld,
    forEach (allPipes.filter fun p => !s.nodeS (nidPipe p)) defaultPipe,
    forEach (allClusters.filter fun c => !s.nodeS (nidCluster c)) defaultCluster,
    defaultDevice,
    forEach s.nGranules fun g => block [clearMem (0x100000000 + 0x10000 * g) 0x10000, eccMend (0x100000000 + 0x10000 * g) 0x10000],
    setEvq false fun q => { q with held := [], lost := 0, lostBefore := false },
    look fun s => set (Ring.devIndex 32) (s.get (Ring.hostIndex 32)),
    set (Ring.enable 32) on,
    raiseIn false 1 5 1 (leBytes 1 closed ++ leBytes 4 s.nGranules.length ++ [BitVec.ofNat 8 m.code])]

/-- NWORLD_RESET_DONE. -/
def execNworldResetDone (s : State) : Host.Outcome State Fault Refusal :=
  .next (run (finish 0xF 3 1 (fun e => nworldReset e.mb) 0) s)

/-! Attestation (R534). -/

/-- ATTEST_CERT: the certificate goes to a result region. -/
def specAttestCert : CmdSpec where
  cls := 0xF
  code := 4
  bound := 50
  pends := some 5000
  levels := [.device]
  keys := [need 0xF004 4 0 0xFFFFFFFF, need 0xF005 4 0 0xFFFFFFFF]
  changes := false
  denied := resultDenied
  params := fun c _ => resultBad c
  late := fun c s => resultFull c s.dev.fuses.cert.length
  effect := fun _ => .skip

/-- ATTEST_CERT_DONE. -/
def execAttestCertDone (s : State) : Host.Outcome State Fault Refusal :=
  .next (run (finishCtx 0xF 4 1 (fun _ _ => none) fun _ e => look fun s => putResult e s.dev.fuses.cert) s)

/-- Bytes 0 to 223 of an attestation report (Table 17-7). -/
def State.report (s : State) (nonce : List Byte) : List Byte :=
  let f := s.dev.fuses
  let flags := s.get Wld.owned + 2 * s.get Wld.locked + 4 * boolNat f.debugClosed + 8 * s.get Dbg.state + 32 * s.get Dbg.everOpened
    + 64 * s.get Wld.default
  leBytes 4 0x54415941 ++ leBytes 1 1 ++ leBytes 1 flags ++ leBytes 1 (s.get Ident.formLevel) ++ leBytes 1 (s.get Live.runIfLevel)
    ++ padN 16 f.uid ++ leBytes 1 (s.get Live.runSvn) ++ leBytes 1 f.rollback ++ leBytes 1 (s.get BootReg.role) ++ leBytes 1 (s.get Live.runSlot)
    ++ leBytes 4 (s.get Live.runBuild) ++ padN 48 (s.slotOf (s.get Live.runSlot)).codeDigest ++ s.words 0x02020080 12
    ++ padN 48 f.ownerKeyHash ++ padN 32 nonce ++ s.timeBytes ++ zeros 8
where
  padN (n : Nat) (bs : List Byte) : List Byte := slice (bs ++ zeros n) 0 n

/-- ATTEST_REPORT: the report with its signature. -/
def specAttestReport : CmdSpec where
  cls := 0xF
  code := 5
  bound := 10000
  levels := [.device]
  keys := [raw 5 32 32 1 true]
  changes := false
  results := fun c s => [⟨6, s.report (c.bytes 5) ++ Config.identitySign s.dev.fuses.uid (s.report (c.bytes 5))⟩]
  effect := fun _ => .skip

/-! Stream tag keys (R535). -/

/-- Does an admitted stream use a key slot? -/
def State.slotUsed (s : State) (k : Nat) : Bool := allStreams.any fun i => s.admitted i && (s.asm i).tagEn && (s.asm i).keySlot = k

def setKeys (f : List (Nat × KeySlot) → List (Nat × KeySlot)) : Prog := dev fun d => { d with sec := { d.sec with keys := f d.sec.keys } }

/-- "Key slot loaded or cleared" goes to the S ring only (R549). -/
def keyEvent (k : Nat) (loaded : Bool) : Prog := raiseIn true 0xF 2 1 [BitVec.ofNat 8 k, BitVec.ofNat 8 (boolNat loaded)]

/-- KEY_LOAD. -/
def specKeyLoad : CmdSpec where
  cls := 0xF
  code := 6
  bound := 100
  levels := [.device]
  sOnly := true
  keys := [needAny 7 0 15, raw 8 32 32 1 true]
  mode := fun c s => s.slotUsed (c.val 7)
  effect := fun c => block [setKeys fun l => (c.val 7, ⟨c.bytes 8, 0⟩) :: l.filter fun x => x.1 ≠ c.val 7, keyEvent (c.val 7) true]

/-- KEY_CLEAR. -/
def specKeyClear : CmdSpec where
  cls := 0xF
  code := 7
  bound := 100
  levels := [.device]
  sOnly := true
  keys := [needAny 7 0 15]
  mode := fun c s => s.slotUsed (c.val 7)
  effect := fun c => block [setKeys fun l => l.filter fun x => x.1 ≠ c.val 7, keyEvent (c.val 7) false]

/-- STREAM_TAG_SET: the slot must hold a key, but to switch the tags off without naming one. -/
def specStreamTagSet : CmdSpec where
  cls := 0xF
  code := 8
  bound := 100
  levels := [.device, .group]
  sOnly := true
  keys := [needAny 9 0 15, optAny 0xA 0 1, optAny 7 0 15]
  params := fun c s =>
    let slot := c.valD 7 (s.asm (c.val 9)).keySlot
    let on := c.valD 0xA (boolNat (s.asm (c.val 9)).tagEn) = 1
    if (c.has 7 || on) && !(s.dev.sec.keys.any fun x => x.1 = slot) then some 7 else none
  mode := fun c s => s.admitted (c.val 9)
  node := fun c => 0x10000 + c.val 9
  effect := fun c => setAsm (c.val 9) fun a => { a with tagEn := c.valD 0xA (boolNat a.tagEn) = 1, keySlot := c.valD 7 a.keySlot }

/-! Rollback (R533). -/

/-- ROLLBACK_ADVANCE: where the running image's SVN is not above the counter it completes with 0x12, which names the counter's key. -/
def specRollbackAdvance : CmdSpec where
  cls := 0xF
  code := 9
  bound := 50
  pends := some 70000
  levels := [.device]
  sOnly := true
  keys := resultKeys
  denied := resultDenied
  params := fun c s => if s.get Live.runSvn ≤ s.dev.fuses.rollback then some 0xB else resultBad c
  mode := fun _ s => s.mode ≠ mMaintenance
  results := fun _ s => [tlv 0xB 1 (s.get Live.runSvn)]
  effect := fun _ => .skip
  past := fun _ _ => true

/-- ROLLBACK_ADVANCE_DONE: the counter is the SVN; "rollback advanced" goes to the S ring only. -/
def execRollbackAdvanceDone (s : State) : Host.Outcome State Fault Refusal :=
  .next (run (finish 0xF 9 1 (fun e => look fun s => block [
    dev fun d => { d with fuses := { d.fuses with rollback := max d.fuses.rollback (s.get Live.runSvn) } },
    putResult e (tlvBytes [tlv 0xB 1 (max s.dev.fuses.rollback (s.get Live.runSvn))]),
    raiseIn true 0xF 3 1 [BitVec.ofNat 8 (max s.dev.fuses.rollback (s.get Live.runSvn))]]) 0) s)

/-! The commands of this class. -/

def execWorldStatus (m : MbId) (r : Req) (s : State) : Host.Outcome State Fault Refusal := runCommand specWorldStatus m r s
def execWorldQuery (m : MbId) (r : Req) (s : State) : Host.Outcome State Fault Refusal := runCommand specWorldQuery m r s
def execNworldReset (m : MbId) (r : Req) (s : State) : Host.Outcome State Fault Refusal := runCommand specNworldReset m r s
def execAttestCert (m : MbId) (r : Req) (s : State) : Host.Outcome State Fault Refusal := runCommand specAttestCert m r s
def execAttestReport (m : MbId) (r : Req) (s : State) : Host.Outcome State Fault Refusal := runCommand specAttestReport m r s
def execKeyLoad (m : MbId) (r : Req) (s : State) : Host.Outcome State Fault Refusal := runCommand specKeyLoad m r s
def execKeyClear (m : MbId) (r : Req) (s : State) : Host.Outcome State Fault Refusal := runCommand specKeyClear m r s
def execStreamTagSet (m : MbId) (r : Req) (s : State) : Host.Outcome State Fault Refusal := runCommand specStreamTagSet m r s
def execRollbackAdvance (m : MbId) (r : Req) (s : State) : Host.Outcome State Fault Refusal := runCommand specRollbackAdvance m r s

end Sys2Proof.Machine
end

