-- ==== Sys2Proof/Machine/Debug.lean ====
section
/-! DEFINITION. Debug: states, the unlock exchange, the TAP, debug accesses, halts, and the commands of class 0x11 (R539 to R549). -/

namespace Sys2Proof.Machine
open Reg

def setSec (f : SecSt → SecSt) : Prog := dev fun d => { d with sec := f d.sec }

/-! Debug states (R539, R545). -/

/-- The debug state changes; the event goes to both worlds. A fall from Open-S releases the halts and clears breakpoints and trace. -/
def setDebug (new cause : Nat) : Prog := look fun s =>
  let old := s.get Dbg.state
  if old = new then .skip
  else block [
    set Dbg.state new,
    when (old < new) (block [set Dbg.everOpened 1, setFlag Dbg.opened]),
    when (new < old) (block [releaseHalt, setSec fun x => { x with breakpoints := [], trace := [] }]),
    debugDomain,
    forEach [false, true] fun w => raiseIn w 0x11 1 1 [BitVec.ofNat 8 new, BitVec.ofNat 8 old, BitVec.ofNat 8 cause]]

/-- "Unlock refused or failed": the manual gives no codes for its reason, a free value. -/
def unlockRefused : Prog := fresh fun r => look fun s => raise 0x11 2 1 [BitVec.ofNat 8 r, BitVec.ofNat 8 (s.get Dbg.fails)]

/-! The unlock exchange (R542 to R544). -/

/-- The device runs, and not after a trip. -/
def State.debugMode (s : State) : Bool :=
  s.mode = mArmed || s.mode = mAcquire || s.mode = mMaintenance || (s.mode = mSafeHold && s.get Therm.state ≠ 4)

/-- May a challenge for a higher state be issued? -/
def State.challengeOk (s : State) : Bool := s.debugMode && !s.dev.fuses.debugClosed && s.on Dbg.keyPresent && s.dev.sec.lockout = 0

/-- The next challenge record (Table 17-11); its nonce is a free value. -/
def State.challengeFor (s : State) (st : Nat) : List Byte :=
  leBytes 4 0x43445941 ++ leBytes 1 st ++ leBytes 1 (s.get Ident.formLevel) ++ zeros 2 ++ slice (s.dev.fuses.uid ++ zeros 16) 0 16
    ++ leBytes 32 (Config.freeValue s.free) ++ leBytes 4 (s.dev.sec.chalNo + 1) ++ zeros 4

/-- A challenge is issued; it replaces a live one, and a signature for that one is refused. -/
def issueChallenge (st : Nat) : Prog := look fun s =>
  let rec_ := s.challengeFor st
  fresh fun _ => block [
    when s.dev.sec.verifying.isSome unlockRefused,
    setSec fun x => { x with challenge := rec_, chalNo := x.chalNo + 1, verifying := none }, set Dbg.challengeLive 1]

/-- A state is requested: a lower one holds at once, a higher one needs a challenge. -/
def requestState (st : Nat) : Prog := look fun s =>
  let now := s.get Dbg.state
  if st < now then setDebug st 1
  else if st = now then .skip
  else if s.challengeOk then issueChallenge st
  else unlockRefused

/-- The lockout after a failure, in aclk cycles. -/
def lockoutTicks (fails : Nat) : Nat := if fails < 3 then 0 else min (2 ^ (fails - 3)) 1024 * 25000000

/-- What a signature over the live challenge gives: 0 opened, 1 invalid, 2 no live challenge. -/
def State.unlockResult (s : State) (sig : List Byte) : Nat :=
  if !s.on Dbg.challengeLive then 2
  else if Config.ecdsaVerify (slice s.dev.sec.policy 160 96) s.dev.sec.challenge sig then 0 else 1

/-- The check of a signature ends; either outcome consumes the challenge. -/
def unlock (sig : List Byte) : Prog := look fun s =>
  let spent := block [set Dbg.challengeLive 0, setSec fun x => { x with challenge := [], verifying := none }]
  match s.unlockResult sig with
  | 0 => block [spent, set Dbg.fails 0, setDebug (leAt s.dev.sec.challenge 4 1) 0]
  | 1 =>
    let n := satNat (s.get Dbg.fails + 1) 255
    block [spent, set Dbg.fails n, setFlag Dbg.unlockFailed, setSec fun x => { x with lockout := lockoutTicks n },
      set Dbg.lockoutMs (lockoutTicks n / 25000), unlockRefused]
  | _ => unlockRefused

/-- UNLOCK_VERIFY_DONE (R543): of a signature that came through JTAG. -/
def execUnlockVerifyDone (s : State) : Host.Outcome State Fault Refusal :=
  .next (run (look fun s => match s.dev.sec.verifying with | some sig => unlock sig | none => .skip) s)

/-- CHALLENGE_LAPSE (R543): 60 s after issue; a signature under verification has been submitted in time. -/
def execChallengeLapse (s : State) : Host.Outcome State Fault Refusal :=
  .next (run (look fun s => when (s.dev.sec.verifying.isNone) (block [set Dbg.challengeLive 0, setSec fun x => { x with challenge := [] }])) s)

/-- LOCKOUT_END (R544). -/
def execLockoutEnd (s : State) : Host.Outcome State Fault Refusal :=
  .next (run (block [setSec fun x => { x with lockout := 0 }, set Dbg.lockoutMs 0]) s)

/-! Halting the control cores (R545). -/

/-- Rights H: Open-S in a mode whose row has them. -/
def State.rightsH (s : State) : Bool := s.get Dbg.state = 2 && (s.mode = mArmed || s.mode = mAcquire || s.mode = mMaintenance)

def haltEvent (on : Bool) : Prog := raise 0x11 3 1 [BitVec.ofNat 8 (boolNat on)]

/-- HALT_REQ: both cores stop; the mailboxes answer as while firmware is not ready. -/
def haltCores : Prog := look fun s => when (!s.on Dbg.halted) (block [
  setSec fun x => { x with haltedFwReady := s.fwReady }, set Dbg.halted 1, setFwReady false, setFlag Dbg.haltSeen, haltEvent true,
  forEach s.dev.doorbells hwBusy])

/-- STEP: one instruction, then the cores halt again. -/
def stepCores : Prog := look fun s => when (s.on Dbg.halted) (block [setFlag Dbg.haltSeen, haltEvent true])

/-- A write of CORE_CTL; its bits act in ascending order. -/
def coreCtl (v : Nat) : Prog := block [when (bit v 0) haltCores, when (bit v 1) releaseHalt, when (bit v 2) stepCores]

/-- CORE_HALT_REQ, CORE_RESUME, CORE_STEP (R545, R547): writes of CORE_CTL through the DAP; without rights H they are refused. -/
def execCoreHaltReq (s : State) : Host.Outcome State Fault Refusal := .next (run (look fun s => when s.rightsH (coreCtl 1)) s)
def execCoreResume (s : State) : Host.Outcome State Fault Refusal := .next (run (look fun s => when s.rightsH (coreCtl 2)) s)
def execCoreStep (s : State) : Host.Outcome State Fault Refusal := .next (run (look fun s => when s.rightsH (coreCtl 4)) s)

/-! Debug accesses (R540, R546, Table 17-12). -/

/-- The reach of a debug access, from nothing to write; Wa is a write but for what a started stream holds. -/
inductive Reach where
  | nothing
  | alwaysOn
  | read
  | writeIdle
  | write
  deriving DecidableEq, Repr

/-- The cell of Table 17-12 for an element of a world. -/
def State.debugReach (s : State) (elemS : Bool) : Reach :=
  if s.get Dbg.state = 0 ∨ (elemS ∧ s.get Dbg.state = 1) then .nothing
  else if s.mode = mStandby then .alwaysOn
  else if s.mode = mAcquire then .writeIdle
  else if s.mode = mArmed ∨ s.mode = mMaintenance then .write
  else if s.mode = mSafeHold ∧ s.get Therm.state ≠ 4 then .read
  else .nothing

/-- Always-on registers: time base, encoder channels, thermal registers. -/
def isAlwaysOn (a : Nat) : Bool := (0x01500000 ≤ a && a < 0x01501400) || (0x01700000 ≤ a && a < 0x01701000)

/-- Does a started stream hold the node or the granule of an address (Wa)? -/
def State.heldByStream (s : State) (a : Nat) : Bool :=
  let started := allStreams.filter fun i => s.sState i = sStarted || s.sState i = sStopping
  let node := match nodeOfAddr a with
    | some n => started.any fun i => if n < 0x100 then (s.heads i).any fun h => s.headCluster i h = n else (s.pipesOf i).contains (n - 0x100)
    | none => false
  node || (isShared a && started.any fun i => ((s.stream i).rowGranules ++ (s.stream i).egressGranules).contains ((a - 0x100000000) / 0x10000))

/-- The result of a debug access (Table 17-10): 0 done, 1 refused, 2 domain off, 3 unmapped. -/
def State.debugResult (s : State) (mbS write : Bool) (a : Nat) : Nat :=
  let elemS := s.addrS a
  let ok := match s.debugReach elemS with
    | .nothing => false
    | .alwaysOn => !write && isAlwaysOn a
    | .read => !write
    | .writeIdle => !write || (s.writable a && !s.heldByStream a)
    | .write => !write || s.writable a
  let node := match (if 0x01100000 ≤ a ∧ a < 0x01140000 then none else nodeOfAddr a) with | some n => s.get (Node.state n) | none => stRunning
  if !s.mapped a then 3
  else if !mbS && elemS then 1
  else if a / 4 * 4 = 0x01800100 ∧ write then (if s.rightsH && mbS then 0 else 1)
  else if !ok then 1
  else if s.bankOff a then 2
  else if s.mode = mStandby ∨ s.mode = mSafeHold then (if node = stGated ∨ node = stRetained ∨ node = stOff then 2 else 0)
  else if s.mode ≠ mMaintenance ∧ (node = stRetained ∨ node = stOff) then 2
  else 0

/-- A domain is powered for debug, with the node state to return to. -/
def noteDebugPower (d st : Nat) : Prog := setSec fun x => { x with debugPowered := (d, st) :: x.debugPowered.filter fun y => y.1 ≠ d }

/-- In Maintenance the domains of an access are powered for it. -/
def debugWake (a : Nat) : Prog := look fun s => when (s.mode = mMaintenance) (
  let cluster := fun (c : Nat) => when (!s.domainOn (13 + c)) (block [noteDebugPower (13 + c) (s.get (Node.state (nidCluster c))), powerCluster c])
  match (if 0x01100000 ≤ a ∧ a < 0x01140000 then none else nodeOfAddr a) with
  | none => .skip
  | some n =>
    if 0x100 ≤ n then
      let p := n - 0x100
      let st := s.get (Node.state n)
      block [cluster (p / 8), when (st = stOff || st = stRetained) (block [noteDebugPower (29 + p) st, movePipe p stGated])]
    else block [cluster (n - 0x10),
      match (List.range 56).find? fun k => portBase k ≤ a && a < portBase k + 0x10000 with
      | some k => when (!s.domainOn (93 + k)) (block [noteDebugPower (93 + k) 0, setDomain (93 + k) true false])
      | none => .skip])

/-- The data of a debug read: of host memory and of other devices, which the device does not hold, a free value. -/
def State.debugData (s : State) (a : Nat) : Nat :=
  if 0x4000000000 ≤ a then Config.freeValue s.free % 0x100000000 else leVal (s.readHost 1 (a / 4 * 4) 4)

/-- One debug access of a word that its check lets through. -/
def debugAccess (write : Bool) (a v : Nat) : Prog := look fun s => block [
  debugWake a,
  if !write then block [when (0x4000000000 ≤ a) (fresh fun _ => .skip), when (decide (a < 0x4000000000)) (readRange (a / 4 * 4) 4)]
  else if a / 4 * 4 = 0x01800100 then coreCtl v
  else wordWrite (boolNat (s.get Dbg.state = 2)) (a / 4 * 4) ((leBytes 4 v).map some)]

/-- DEBUG_POWER_RELEASE (R546): a domain powered for debug returns to its previous state. -/
def execDebugPowerRelease (d : Fin 149) (s : State) : Host.Outcome State Fault Refusal :=
  .next (run (look fun s =>
    match s.dev.sec.debugPowered.find? fun x => x.1 = d.val with
    | none => .skip
    | some x => block [
      setSec fun y => { y with debugPowered := y.debugPowered.filter fun z => z.1 ≠ d.val },
      if 93 ≤ d.val then when (!s.on (Port.enable (d.val - 93))) (setDomain d.val false false)
      else if 29 ≤ d.val then when (s.get (Node.state (nidPipe (d.val - 29))) = stGated) (movePipe (d.val - 29) x.2)
      else when (13 ≤ d.val && s.get (Node.state (nidCluster (d.val - 13))) = stGated) (offCluster (d.val - 13) (x.2 = stRetained))]) s)

/-! The TAP (R541, Table 17-10). -/

/-- Boundary-scan instructions that drive pins are available in Boot, and in Maintenance in an open state; elsewhere they act as BYPASS. -/
def State.scanOk (s : State) : Bool := s.mode = mBoot || (s.mode = mMaintenance && s.get Dbg.state ≠ 0)

def tapBypass : Prog := setSec fun x => { x with tapInstr := 0xFF, outputsHeld := false, outputsHighZ := false }

/-- The boundary-scan register captures the pins, shifts them out, and takes what was shifted in. -/
def scanCells (captured shifted : List Bool) : Prog := block [emit (.scan captured), setSec fun x => { x with boundary := shifted }]

/-- TAP_EXTEST. -/
def execTapExtest (captured shifted : List Bool) (s : State) : Host.Outcome State Fault Refusal :=
  .next (run (look fun s => if s.scanOk then block [scanCells captured shifted,
    setSec fun x => { x with tapInstr := 0, outputsHeld := true, outputsHighZ := false }] else tapBypass) s)

/-- TAP_SAMPLE_PRELOAD: the outputs are the device's own. -/
def execTapSamplePreload (captured shifted : List Bool) (s : State) : Host.Outcome State Fault Refusal :=
  .next (run (block [scanCells captured shifted, setSec fun x => { x with tapInstr := 1, outputsHeld := false, outputsHighZ := false }]) s)

/-- TAP_CLAMP. -/
def execTapClamp (s : State) : Host.Outcome State Fault Refusal :=
  .next (run (look fun s => if s.scanOk then setSec fun x => { x with tapInstr := 3, outputsHeld := true, outputsHighZ := false } else tapBypass) s)

/-- TAP_HIGHZ. -/
def execTapHighz (s : State) : Host.Outcome State Fault Refusal :=
  .next (run (look fun s => if s.scanOk then setSec fun x => { x with tapInstr := 4, outputsHeld := false, outputsHighZ := true } else tapBypass) s)

/-- TAP_TEST_LOGIC_RESET: IDCODE is selected; EXTEST, CLAMP and HIGHZ end. -/
def execTapTestLogicReset (s : State) : Host.Outcome State Fault Refusal :=
  .next (run (setSec fun x => { x with tapInstr := 2, outputsHeld := false, outputsHighZ := false }) s)

/-- TAP_UNLOCK_REQ (R543): states above 2 name none. -/
def execTapUnlockReq (state : BitVec 8) (s : State) : Host.Outcome State Fault Refusal :=
  .next (run (block [setSec fun x => { x with tapInstr := 0x10, outputsHeld := false, outputsHighZ := false },
    when (decide (state.toNat < 3)) (requestState state.toNat)]) s)

/-- TAP_UNLOCK_RESP (R543): the signature is submitted at Update-DR; without a live challenge it is refused. -/
def execTapUnlockResp (sig : List Byte) (s : State) : Host.Outcome State Fault Refusal :=
  .next (run (look fun s => block [setSec fun x => { x with tapInstr := 0x12, outputsHeld := false, outputsHighZ := false },
    if s.on Dbg.challengeLive then setSec fun x => { x with verifying := some sig } else unlockRefused]) s)

/-- TAP_DAP_ACCESS (R540): an update of the DAP register performs the access; the next capture holds its data and result. -/
def execTapDapAccess (write : Bool) (a : BitVec 40) (v : BitVec 32) (s : State) : Host.Outcome State Fault Refusal :=
  .next (run (look fun s =>
    if s.get Dbg.state = 0 then tapBypass
    else
      let r := s.debugResult true write a.toNat
      let data := if r ≠ 0 then 0 else if write then v.toNat else s.debugData a.toNat
      block [
        setSec fun x => { x with tapInstr := 0x20, outputsHeld := false, outputsHighZ := false, dap := boolNat write + 2 * a.toNat + 2 ^ 41 * data + 2 ^ 73 * r },
        when (r = 0) (debugAccess write a.toNat v.toNat)]) s)

/-! Commands (Table 17-15). -/

/-- DEBUG_STATUS. -/
def specDebugStatus : CmdSpec where
  cls := 0x11
  code := 1
  bound := 50
  levels := [.device]
  changes := false
  results := fun _ s => [⟨1, s.words 0x01800000 3⟩]
  effect := fun _ => .skip

/-- DEBUG_CHALLENGE (R543): Open-S from an N-world mailbox is 0x20; a refused challenge 0x21. -/
def specDebugChallenge : CmdSpec where
  cls := 0x11
  code := 2
  bound := 100
  levels := [.device]
  keys := [needAny 2 0 2]
  denied := fun c s => c.val 2 = 2 && !s.mbS c.mb
  mode := fun c s => s.get Dbg.state < c.val 2 && !s.challengeOk
  results := fun c s => if s.get Dbg.state < c.val 2 then [⟨3, s.challengeFor (c.val 2)⟩] else []
  effect := fun c => requestState (c.val 2)

/-- DEBUG_UNLOCK (R543): the response carries the outcome of the check. -/
def specDebugUnlock : CmdSpec where
  cls := 0x11
  code := 3
  bound := 10000
  levels := [.device]
  keys := [raw 4 96 96 1 true]
  results := fun c s => [tlv 5 1 (s.unlockResult (c.bytes 4))]
  effect := fun c => unlock (c.bytes 4)

/-- DEBUG_LOCK: only to a state below the current one. -/
def specDebugLock : CmdSpec where
  cls := 0x11
  code := 4
  bound := 50
  levels := [.device]
  keys := [needAny 2 0 2]
  params := fun c s => if s.get Dbg.state ≤ c.val 2 then some 2 else none
  effect := fun c => setDebug (c.val 2) 1

/-- DBG_ACCESS (R546): the lower of the cell's rights and those of the mailbox's world. -/
def specDbgAccess : CmdSpec where
  cls := 0x11
  code := 5
  bound := 200
  levels := [.device]
  keys := [need 0x10 8 0 0xFFFFFFFFFF, optAny 0x11 0 1, opt 0x12 4 0 0xFFFFFFFF]
  params := fun c _ => if c.val 0x11 = 1 ∧ !c.has 0x12 then some 0x12 else none
  mode := fun _ s => s.get Dbg.state = 0
  changes := false
  results := fun c s =>
    let w := c.val 0x11 = 1
    let r := s.debugResult (s.mbS c.mb) w (c.val 0x10)
    [tlv 0x12 4 (if r ≠ 0 then 0 else if w then c.val 0x12 else s.debugData (c.val 0x10)), tlv 0x13 1 r]
  effect := fun c => look fun s =>
    when (s.debugResult (s.mbS c.mb) (c.val 0x11 = 1) (c.val 0x10) = 0) (debugAccess (c.val 0x11 = 1) (c.val 0x10) (c.val 0x12))

/-- BIST_RUN: only in Maintenance; no node changes its state. -/
def specBistRun : CmdSpec where
  cls := 0x11
  code := 6
  bound := 50
  pends := some 50000
  levels := [.pipeline, .cluster, .device]
  mode := fun _ s => s.mode ≠ mMaintenance
  effect := fun _ => .skip
  past := fun _ _ => true

/-- BIST_RUN_DONE: "BIST done" with the node, the outcome and the failing macro. -/
def execBistRunDone (nid : Fin 0x140) (pass : Bool) (macroNo : BitVec 16) (s : State) : Host.Outcome State Fault Refusal :=
  .next (run (finish 0x11 6 nid.val (fun _ =>
    raise 0x11 4 1 (leBytes 2 nid.val ++ [BitVec.ofNat 8 (boolNat pass)] ++ leBytes 2 macroNo.toNat)) 0) s)

/-! The commands of this class. -/

def execDebugStatus (m : MbId) (r : Req) (s : State) : Host.Outcome State Fault Refusal := runCommand specDebugStatus m r s
def execDebugChallenge (m : MbId) (r : Req) (s : State) : Host.Outcome State Fault Refusal := runCommand specDebugChallenge m r s
def execDebugUnlock (m : MbId) (r : Req) (s : State) : Host.Outcome State Fault Refusal := runCommand specDebugUnlock m r s
def execDebugLock (m : MbId) (r : Req) (s : State) : Host.Outcome State Fault Refusal := runCommand specDebugLock m r s
def execDbgAccess (m : MbId) (r : Req) (s : State) : Host.Outcome State Fault Refusal := runCommand specDbgAccess m r s
def execBistRun (m : MbId) (r : Req) (s : State) : Host.Outcome State Fault Refusal := runCommand specBistRun m r s

end Sys2Proof.Machine
end

