-- ==== Sys2Proof/Machine/TwoWire.lean ====
section
/-! DEFINITION. The two-wire target port, its mailbox and alerts, the controllers, and the commands of class 0x0D (R480 to R503). -/

namespace Sys2Proof.Machine
open Reg

/-! The target port (R482 to R492). -/

/-- A protocol error: counted; after hand-over PROTO_ERR and event 0x0D/0x04 too. The event's bus byte is not given: a free value. -/
def protoError (flag : Bool) : Prog := fresh fun bus => look fun s => block [
  bump TwT.protoErrors, countDropped 1,
  when (flag && s.mode ≠ mBoot) (block [twFlag 3, raiseLimited 0xD 4 1 0xFF fun n => [BitVec.ofNat 8 bus, 0, 0, 0] ++ leBytes 4 n])]

/-- The n-th data word is the doorbell; in Boot it is discarded and counted (R491). -/
def ringTwoWire : Prog := look fun s =>
  if s.mode = mBoot then block [setTw fun t => { t with state := 0, words := [], want := 0 }, protoError false]
  else block [setTw fun t => { t with state := 0 }, ring .twoWire]

/-- A word written to mailbox-in (R488, R489, R492). -/
def mailboxIn (w : Nat) : Prog := look fun s =>
  let t := s.dev.tw
  let n := w % 512
  let start := w = 0xC1000000 + n ∧ 4 ≤ n ∧ n ≤ 256
  if t.state = 1 then block [
    setTw fun t => { t with words := t.words ++ [BitVec.ofNat 32 w] },
    when (t.want ≤ t.words.length + 1) ringTwoWire]
  else if start then
    (if t.state = 0 then setTw fun t => { t with state := 1, want := n, words := [] } else loseDoorbell .twoWire)
  else if w = 0x57414B45 then when (t.state = 0 && s.mode = mStandby) (wake 0)
  else protoError true

/-- TW_MAILBOX_START_WORD. -/
def execTwMailboxStartWord (n : BitVec 9) (s : State) : Host.Outcome State Fault Refusal :=
  .next (run (targetWrite (mailboxIn (0xC1000000 + n.toNat))) s)

/-- TW_MAILBOX_DATA_WORD. -/
def execTwMailboxDataWord (w : BitVec 32) (s : State) : Host.Outcome State Fault Refusal := .next (run (targetWrite (mailboxIn w.toNat)) s)

/-- TW_WAKE_WORD. -/
def execTwWakeWord (s : State) : Host.Outcome State Fault Refusal := .next (run (targetWrite (mailboxIn 0x57414B45)) s)

/-- TW_IDENTITY_WRITE. -/
def execTwIdentityWrite (s : State) : Host.Outcome State Fault Refusal :=
  .next (run (targetWrite (block [bump TwT.writeRo, countDropped 1])) s)

/-- TW_RESPONSE_CONSUME (R484): before hand-over writes of the status register have no effect (R487). -/
def execTwResponseConsume (s : State) : Host.Outcome State Fault Refusal :=
  .next (run (statusWrite 0x100000) s)

/-- TW_MB_ABORT (R489). -/
def execTwMbAbort (s : State) : Host.Outcome State Fault Refusal :=
  .next (run (statusWrite 0x80000000) s)

/-- TW_OUTPTR_WRITE (R490). -/
def execTwOutptrWrite (v : BitVec 8) (s : State) : Host.Outcome State Fault Refusal := .next (run (targetWrite (set TwT.outptr v.toNat)) s)

/-- TW_SHORT_WRITE (R483). -/
def execTwShortWrite (s : State) : Host.Outcome State Fault Refusal := .next (run (block [bump TwT.shortWrite, countDropped 1, atStop]) s)

/-- TW_PROTOCOL_ERROR (Table 15-5): a START or STOP within a byte. -/
def execTwProtocolError (s : State) : Host.Outcome State Fault Refusal := .next (run (block [protoError true, atStop]) s)

/-- TW_REQUEST_TIMEOUT (R489): 100 ms without a word. -/
def execTwRequestTimeout (s : State) : Host.Outcome State Fault Refusal :=
  .next (run (look fun s => when (s.dev.tw.state = 1) (block [dropRequest, twFlag 4, countDropped 1])) s)

/-! Alerts (R493, R494). -/

/-- DETAIL of a class (Table 15-4). -/
def State.alertDetail (s : State) (cls : Nat) : Nat :=
  match cls with
  | 1 => s.dev.tw.lastStatus
  | 3 => (sat (s.sget Therm.tmax / 16) 0 255).toNat
  | 4 => s.get BootReg.code
  | _ => s.get ModeReg.cause

/-- The 6-byte message of a class. -/
def State.alertBytes (s : State) (cls : Nat) : List Byte :=
  [BitVec.ofNat 8 cls, BitVec.ofNat 8 s.mode, BitVec.ofNat 8 (s.get Therm.state), BitVec.ofNat 8 (s.alertDetail cls),
    BitVec.ofNat 8 s.dev.tw.alertSeq, BitVec.ofNat 8 (8 * s.get TwT.base)]

/-- An alert is abandoned after its eighth failed attempt. -/
def abandonAlert (cls : Nat) : Prog := fresh fun bus => block [
  setTw fun t => { t with alerts := t.alerts.tail, attempt := 0 }, twFlag 2, countDropped 1,
  raise 0xD 5 1 [BitVec.ofNat 8 bus, BitVec.ofNat 8 cls]]

/-- An attempt at the pending alert of the lowest class. -/
def alertAttempt (o : Sys2Proof.AlertEnd) : Prog := look fun s =>
  match s.dev.tw.alerts with
  | [] => .skip
  | cls :: _ =>
    let failed := if s.dev.tw.attempt + 1 = 8 then abandonAlert cls else setTw fun t => { t with attempt := t.attempt + 1 }
    block [match o with
      | .acked => block [emit (.twoWireMessage (s.get TwT.alertAddr) (s.alertBytes cls)), bump TwT.alertsSent,
          setTw fun t => { t with alerts := t.alerts.tail, attempt := 0, alertSeq := (t.alertSeq + 1) % 256 }]
      | .lost => block [bump TwT.alertArbLost, failed]
      | .nacked => block [bump TwT.alertNack, failed], atStop]

/-- TW_ALERT_SEND: the first attempt. -/
def execTwAlertSend (o : Sys2Proof.AlertEnd) (s : State) : Host.Outcome State Fault Refusal :=
  .next (run (look fun s => when (s.dev.tw.attempt = 0) (alertAttempt o)) s)

/-- TW_ALERT_RETRY: a later one, after its backoff. -/
def execTwAlertRetry (o : Sys2Proof.AlertEnd) (s : State) : Host.Outcome State Fault Refusal :=
  .next (run (look fun s => when (s.dev.tw.attempt ≠ 0) (alertAttempt o)) s)

/-! Controllers (R495 to R500). -/

/-- The outcomes of an attempt under way on a bus. -/
def busBusy (x : Nat) (p : Prog) : Prog := look fun s => when (s.on (TwC.busy x) && !(s.twc x).waiting) p

/-- The bytes that a transfer reads in all. -/
def State.readTotal (s : State) (x : Nat) : Nat := sumNat ((((segmentsOf (s.twc x).segs).getD []).filter Segment.read).map Segment.len)

/-- A transfer is done with the bytes read. -/
def transferDone (x : Nat) (data : List Byte) : Prog := busBusy x (look fun s => endTransfer x 0 0 0 (slice data 0 (s.readTotal x)))

/-- A NACK ends a transfer with a STOP (R499). -/
def transferNack (x : Nat) (addr : Bool) (seg byte : Nat) (data : List Byte) : Prog := busBusy x (block [
  setFlag (TwC.nacked x), bump (TwC.nacks x), endTransfer x (if addr then 1 else 2) seg byte data])

/-- Arbitration is lost (R498): the transfer waits for its retry, or after the eighth loss ends. A local controller with MULTI 0 does not
check for others. -/
def transferLost (x byte bitNo : Nat) : Prog := busBusy x (look fun s => when (16 ≤ x || s.on (TwC.multi x)) (
  let k := (s.twc x).attempt
  block [
    set (TwC.arbByte x) byte, set (TwC.arbBit x) bitNo, set (TwC.arbAttempt x) k, setFlag (TwC.arbLost x), bump (TwC.arbLosses x), countCorrected 1,
    raiseLimited 0xD 2 1 x fun n => [BitVec.ofNat 8 x] ++ leBytes 2 byte ++ [BitVec.ofNat 8 bitNo, BitVec.ofNat 8 k, 0, 0, 0] ++ leBytes 4 n,
    if 8 ≤ k then block [setFlag (TwC.arbFailed x), countDropped 1, endTransfer x 3 0 0 []]
    else setTwc x fun t => { t with waiting := true }]))

/-- A bus is stuck (R499): both lines are released, SDA held low is clocked free, and a transfer in progress ends. -/
def transferStuck (x : Nat) (sda : Bool) (pulses : Nat) : Prog := look fun s => when (s.on (TwC.enable x) && (sda || s.on (TwC.busy x))) (block [
  when sda (emit (.twoWireRecover x pulses)),
  setFlag (TwC.busStuck x), bump (TwC.stuck x), countDropped 1, raise 0xD 3 1 [BitVec.ofNat 8 x, BitVec.ofNat 8 (boolNat sda)],
  endTransfer x 4 0 0 []])

/-- TW_TRANSFER_DONE. -/
def execTwTransferDone (x : Fin 64) (data : List Byte) (s : State) : Host.Outcome State Fault Refusal := .next (run (transferDone x.val data) s)

/-- TW_NACK. -/
def execTwNack (x : Fin 64) (addr : Bool) (seg : Fin 8) (byte : BitVec 9) (data : List Byte) (s : State) : Host.Outcome State Fault Refusal :=
  .next (run (transferNack x.val addr seg.val byte.toNat data) s)

/-- TW_ARBITRATION_LOST. -/
def execTwArbitrationLost (x : Fin 64) (byte : BitVec 9) (bitNo : Fin 8) (s : State) : Host.Outcome State Fault Refusal :=
  .next (run (transferLost x.val byte.toNat bitNo.val) s)

/-- TW_ARB_RETRY: the whole transfer starts again. -/
def execTwArbRetry (x : Fin 64) (s : State) : Host.Outcome State Fault Refusal :=
  .next (run (look fun s => when (s.on (TwC.busy x.val) && (s.twc x.val).waiting) (block [
    setTwc x.val fun t => { t with waiting := false, attempt := t.attempt + 1 }, startAttempt x.val])) s)

/-- TW_BUS_STUCK. -/
def execTwBusStuck (x : Fin 64) (sda : Bool) (pulses : Fin 10) (s : State) : Host.Outcome State Fault Refusal :=
  .next (run (transferStuck x.val sda pulses.val) s)

/-- TW_TUNNEL_REPORT (R500): R498 and R499 apply to what the remote serializer reports. -/
def execTwTunnelReport (n : Fin 48) (r : Sys2Proof.TunnelReport) (s : State) : Host.Outcome State Fault Refusal :=
  .next (run (look fun s => when (s.get (Port.link n.val) = 2) (match r with
    | .done d => transferDone (16 + n.val) d
    | .nack a g b d => transferNack (16 + n.val) a g.val b.toNat d
    | .lost b i => transferLost (16 + n.val) b.toNat i.val
    | .stuck a k => transferStuck (16 + n.val) a k.val)) s)

/-! Commands (Table 15-10). -/

/-- TW_TARGET_SET. -/
def specTwTargetSet : CmdSpec where
  cls := 0xD
  code := 1
  bound := 100
  levels := [.device]
  keys := [optAny 1 0x08 0x74, optAny 2 0 0x7F, optAny 3 0 1, optAny 4 0 31]
  params := fun c s =>
    let now := match s.dev.tw.newBase with | some b => b | none => 4 * s.get TwT.base
    let base := c.valD 1 now
    let addr := c.valD 2 (s.get TwT.alertAddr)
    if base % 4 ≠ 0 then some 1 else if base ≤ addr ∧ addr < base + 4 then some (if c.has 2 then 2 else 1) else none
  effect := fun c => block [
    when (c.has 1) (setTw fun t => { t with newBase := some (c.val 1) }),
    when (c.has 2) (set TwT.alertAddr (c.val 2)), when (c.has 3) (set TwT.alertEn (c.val 3)), when (c.has 4) (set TwT.alertMask (c.val 4))]

/-- TW_TARGET_STATUS. -/
def specTwTargetStatus : CmdSpec where
  cls := 0xD
  code := 2
  bound := 50
  levels := [.device]
  changes := false
  results := fun _ s => [⟨5, s.words 0x01600000 3⟩, ⟨6, s.words 0x01600040 8⟩]
  effect := fun _ => .skip

/-- The key that names the bus: 0 to 3, or 16 + n. -/
def busKey : KeySpec := needAny 0x10 0 63
def busBad (c : Ctx) : Option Nat := if 3 < c.val 0x10 ∧ c.val 0x10 < 16 then some 0x10 else none

/-- A bus of the S world is refused to an N-world mailbox (R502). -/
def busDenied (c : Ctx) (s : State) : Bool := !s.mbS c.mb && s.serviceS (if c.val 0x10 < 16 then 2 else 3)

/-- A local controller is off with its bank. -/
def busOff (c : Ctx) (s : State) : Bool := c.val 0x10 < 16 && !s.domainOn 12

/-- What is left of the transfer on a bus, in µs. -/
def busWait (c : Ctx) (s : State) : Option Nat :=
  if s.on (TwC.busy (c.val 0x10)) then
    (match s.pendingCmd 0xD 4 (busNode (c.val 0x10)) with | some e => some (waitLeft s e.due) | none => some 0xFFFFFFFF)
  else none

/-- TW_CONFIG: busy while a transfer is in progress (Table 15-7). -/
def specTwConfig : CmdSpec where
  cls := 0xD
  code := 3
  bound := 100
  levels := [.device]
  keys := [busKey, optAny 0x11 0 1, optAny 0x12 0 1, raw 0x13 8 8 1 false, optAny 0x14 0 2]
  denied := busDenied
  params := fun c _ => busBad c
  mode := busOff
  busy := busWait
  node := fun c => busNode (c.val 0x10)
  effect := fun c =>
    let x := c.val 0x10
    block [
      when (c.has 0x11) (set (TwC.enable x) (c.val 0x11)), when (c.has 0x12) (set (TwC.multi x) (c.val 0x12)),
      when (c.has 0x13) (block [setReg (twcBase x + 4) (BitVec.ofNat 32 (c.at 0x13 0 4)), setReg (twcBase x + 8) (BitVec.ofNat 32 (c.at 0x13 4 4))]),
      when (c.has 0x14) (set (TwC.speed x) (c.val 0x14))]

/-- The SCL period in ns: of a local controller without the rise time, of a tunnelled one as SPEED gives it. -/
def State.sclNs (s : State) (x : Nat) : Nat :=
  if x < 16 then 40 * (s.get (TwC.tlow x) + s.get (TwC.thigh x) + 3)
  else match s.get (TwC.speed x) with | 0 => 10000 | 1 => 2500 | _ => 1000

/-- TW_XFER: one transfer on a bus at a time (R497); the controller must be in use. -/
def specTwXfer : CmdSpec where
  cls := 0xD
  code := 4
  bound := 50
  levels := [.device]
  keys := [busKey, raw 0x20 4 1000 4 true]
  denied := busDenied
  params := fun c _ => (busBad c).orElse fun _ => if (segmentsOf (c.bytes 0x20)).isNone then some 0x20 else none
  mode := fun c s => busOff c s || !s.on (TwC.enable (c.val 0x10))
  busy := busWait
  pends := some 26000
  extra := fun c s =>
    let l := (segmentsOf (c.bytes 0x20)).getD []
    let x := c.val 0x10
    8 * ((9 * (sumNat (l.map Segment.len) + l.length) + l.length + 1) * s.sclNs x + 72000 + 2 * s.get (TwC.tunLat x))
  node := fun c => busNode (c.val 0x10)
  effect := fun c => look fun s =>
    let x := c.val 0x10
    block [
      set (TwC.busy x) 1, setTwc x fun _ => ⟨c.bytes 0x20, 1, false, []⟩,
      if 16 ≤ x ∧ s.get (Port.link (x - 16)) ≠ 2 then tunnelDown (x - 16) else startAttempt x]
  past := fun _ _ => true

/-- TW_STATUS. -/
def specTwStatus : CmdSpec where
  cls := 0xD
  code := 5
  bound := 50
  levels := [.device]
  keys := [busKey]
  denied := busDenied
  params := fun c _ => busBad c
  mode := busOff
  changes := false
  results := fun c s =>
    let b := twcBase (c.val 0x10)
    [⟨0x30, s.words b 7⟩, ⟨0x31, (s.twc (c.val 0x10)).lastRead⟩, ⟨0x32, s.words (b + 0x40) 5⟩]
  effect := fun _ => .skip

/-! The commands of this class. -/

def execTwTargetSet (m : MbId) (r : Req) (s : State) : Host.Outcome State Fault Refusal := runCommand specTwTargetSet m r s
def execTwTargetStatus (m : MbId) (r : Req) (s : State) : Host.Outcome State Fault Refusal := runCommand specTwTargetStatus m r s
def execTwConfig (m : MbId) (r : Req) (s : State) : Host.Outcome State Fault Refusal := runCommand specTwConfig m r s
def execTwXfer (m : MbId) (r : Req) (s : State) : Host.Outcome State Fault Refusal := runCommand specTwXfer m r s
def execTwStatus (m : MbId) (r : Req) (s : State) : Host.Outcome State Fault Refusal := runCommand specTwStatus m r s

end Sys2Proof.Machine
end

