-- ==== Sys2Proof/Machine/LiveService.lean ====
section
/-! DEFINITION. Live service: firmware swaps, spare-pipeline swaps, head replacement, and the commands of class 0x10 (R550 to R565). -/

namespace Sys2Proof.Machine
open Reg

/-! Firmware swap (R551 to R554). -/

/-- The reason for which step 2 refuses an image: 1 header, 2 vendor signature, 3 rollback, 4 owner signature, 5 policy; 0 for none. -/
def State.swapReason (s : State) (b : List Byte) : Nat :=
  let i := imageOf b
  let f := s.dev.fuses
  let n := 256 + i.codeLen
  let policy := slice b n i.policyLen
  if !lengthOk b.length ∨ leAt b 0 4 ≠ 0x57465941 ∨ leAt b 4 2 ≠ 1 ∨ i.len ≠ b.length ∨ i.len ≠ 448 + i.codeLen + i.policyLen ∨ i.codeLen % 4 ≠ 0
      ∨ i.codeLen < 4 then 1
  else if Config.sha384 (slice b 64 96) ≠ f.vendorKeyHash ∨ !Config.ecdsaVerify (slice b 64 96) (slice b 0 n) (slice b (n + i.policyLen) 96) then 2
  else if i.svn < f.rollback then 3
  else if !f.owned then 0
  else if i.policyLen = 0 ∨ Config.sha384 (slice b 160 96) ≠ f.ownerKeyHash
      ∨ !Config.ecdsaVerify (slice b 160 96) (slice b 0 (n + i.policyLen)) (slice b (n + 96 + i.policyLen) 96) then 4
  else if (List.range 12).any fun k => leAt (Config.sha384 policy) (4 * k) 4 ≠ s.get (Wld.policyDigest k) then 5
  else 0

/-- What steps 2 and 3 find wrong with an image; lower permits a lower IF_LEVEL. -/
def State.swapFails (s : State) (b : List Byte) (lower : Bool) : Option (Nat × List Tlv) :=
  let r := s.swapReason b
  if r ≠ 0 then some (0x12, [tlv 0xF010 2 0xF001, tlv 0x10 1 r])
  else if (imageOf b).ifLevel < s.get Live.runIfLevel && !lower then some (0x12, [tlv 0xF010 2 3])
  else none

/-- FW_SWAP (R551, R554). -/
def specFwSwap : CmdSpec where
  cls := 0x10
  code := 1
  bound := 50
  pends := some 100000
  levels := [.device]
  sOnly := true
  keys := optAny 3 0 1 :: stagingKeys ++ resultKeys
  denied := fun c s => regionDenied c s 0xF001 0xF002 || resultDenied c s
  params := fun c _ => (regionBad c 0xF001 0xF002).orElse fun _ => resultBad c
  mode := fun _ s => s.mode ≠ mArmed && s.mode ≠ mAcquire && s.mode ≠ mMaintenance
  late := fun c s => if stagedOk c s then none else some (0x15, [])
  final := fun c s => s.swapFails (staged c s) (c.val 3 = 1)
  effect := fun c => look fun s => keepParts c [staged c s]
  past := fun _ s => s.dev.boot.swapStep

/-- Steps 4 and 5: the image goes to the slot that is not running, FW_READY falls, and the control complex restarts on it. -/
def swapTo (b : List Byte) : Prog := look fun s =>
  let new := 1 - s.get Live.runSlot
  block [
    clearMem (slotBase new) 0x400000, store (slotBase new) b, setSlot new (slotFor b),
    setBoot fun x => { x with swapStep := true, swapCause := 0, downAt := s.now / 1000 },
    set Live.swapping 1, showRunning new, showOther, restartComplex new]

/-- FW_SWAP_RESTART (R551): steps 2 to 5 of the pending swap; one that fails completes it. -/
def execFwSwapRestart (s : State) : Host.Outcome State Fault Refusal :=
  .next (run (look fun s => match (if s.fwReady then s.pendingCmd 0x10 1 1 else none) with
    | none => .skip
    | some e => match e.ctx s with
      | none => .skip
      | some c => match s.swapFails (c.kept s 0) (c.val 3 = 1) with
        | some (st, ts) => block [putResult e (tlvBytes ts), look fun s =>
            match s.dev.journal.find? fun x => x.seq = e.seq with | some e' => completeCmd e' st | none => .skip]
        | none => swapTo (c.kept s 0)) s)

/-- FW_SWAP_REVERT (R553): the new firmware has missed its 50 ms, which counts as a watchdog expiry. -/
def execFwSwapRevert (s : State) : Host.Outcome State Fault Refusal :=
  .next (run (look fun s => when (s.dev.boot.swapStep && !s.fwReady) (expiry byTimeout)) s)

/-- A slot of the firmware store as FW_STATUS returns it. -/
def Slot.bytes (x : Slot) : List Byte :=
  leBytes 1 (boolNat x.valid) ++ leBytes 1 (boolNat x.runnable) ++ leBytes 1 x.svn ++ leBytes 1 x.ifLevel ++ leBytes 4 x.build

/-- FW_STATUS: slot A, then slot B. -/
def specFwStatus : CmdSpec where
  cls := 0x10
  code := 2
  bound := 50
  levels := [.device]
  changes := false
  results := fun _ s => [⟨4, (s.slotOf 0).bytes ++ (s.slotOf 1).bytes⟩]
  effect := fun _ => .skip

/-! The spare (R555 to R559). -/

/-- The pipeline that a command names by its index in the target cluster. -/
def Ctx.pipeK (c : Ctx) : Nat := 8 * c.cluster + c.val 1

/-- The pipeline that holds the spare role of a cluster. -/
def State.spareOf (s : State) (c : Nat) : Nat := 8 * c + s.get (Role.spareK c)

/-- The lowest admitted stream that binds a pipeline. -/
def State.boundStream (s : State) (p : Nat) : Option Nat := (s.streamsOf p).find? s.admitted

/-- Status 0x31 for a cluster without a valid spare. -/
def spareTerm (c : Nat) : Nat × List Tlv := (0x31, [tlv 0xF012 2 (0x600 + c)])

/-- The wait for an automatic swap that is armed in a cluster, until its index. -/
def State.swapWait (s : State) (c : Nat) : Option Nat :=
  (s.dev.swaps.find? fun x => x.1 = c).map fun x => s.streamWait x.2.stream x.2.n

/-- SPARE_COPY (R558). -/
def specSpareCopy : CmdSpec where
  cls := 0x10
  code := 3
  bound := 50
  pends := some 5000
  levels := [.cluster]
  powers := true
  keys := [needAny 1 0 7]
  params := fun c s => if s.on (Role.spareValid c.cluster) && c.pipeK = s.spareOf c.cluster then some 1 else none
  busy := fun c s => s.swapWait c.cluster
  late := fun c s => if s.on (Role.spareValid c.cluster) then none else some (spareTerm c.cluster)
  effect := fun c => look fun s => block [powerPipe c.pipeK, powerPipe (s.spareOf c.cluster)]

/-- SPARE_COPY_DONE (R558). -/
def execSpareCopyDone (c : Fin 8) (s : State) : Host.Outcome State Fault Refusal :=
  .next (run (finishCtx 0x10 3 (nidCluster c.val)
    (fun _ s => if s.on (Role.spareValid c.val) then none else some (spareTerm c.val))
    fun x _ => look fun s => block [copyWords x.pipeK (s.spareOf c.val), copyBank x.pipeK (s.spareOf c.val)]) s)

/-- Does the spare fit the old pipeline and the stream (R556)? -/
def State.spareFits (s : State) (i old spare : Nat) : Bool :=
  let f := (s.stream i).format
  s.get (Framer.area spare) = s.get (Framer.area old) && s.get (Framer.linePixels spare) = s.get (Framer.linePixels old)
    && s.get (Framer.frameLines spare) = s.get (Framer.frameLines old)
    && ((s.stream i).fast || 7 ≤ f || (decide (4 ≤ f ∧ f ≤ 6) == (s.pixCfg spare none (s.dtOf old)).three))

/-- N of a swap: the one named, or the smallest permitted. -/
def Ctx.swapN (c : Ctx) (s : State) (i : Nat) : Nat := if c.val 2 = 0 then s.earliestSwap i c.pipeK else c.val 2

/-- Does an index keep the rules of R556? -/
def State.swapNOk (s : State) (i p n : Nat) : Bool :=
  s.earliestN i ≤ n && (s.on (Asm.area i) || (n % s.get (Asm.bandRows i) = 0 && (!s.on (Scr.enable p) || n % 16 = 0)))

/-- The contract of an admitted stream, as its arrival terms need it. -/
def State.contractOf (s : State) (i : Nat) : Contract :=
  let t := s.stream i
  ⟨i, t.fast, t.rate, t.readouts, t.format, t.fill, 0, 0, none, none, t.worldS⟩

/-- The first head of a stream whose ARRIVAL would be above DEADLINE with a spare's LATENCY in place of the old pipeline's (R406, R556). -/
def State.lateHead (s : State) (i old spare take : Nat) : Option Nat :=
  let live := allStreams.filter fun j => s.admitted j && !(s.stream j).fast
  let new := 5 * s.pipeLat spare (s.dtOf old)
  if (s.stream i).fast then none
  else (s.heads i).find? fun h =>
    let a := s.arrival (s.contractOf i) live h take
    let a := if s.pipeOf i h = some old then a.set 4 new else a
    decide (2 * s.get (Asm.deadline i) < sumNat a)

/-- SPARE_SWAP (R556 to R558). -/
def specSpareSwap : CmdSpec where
  cls := 0x10
  code := 4
  bound := 300
  levels := [.cluster]
  powers := true
  keys := [needAny 1 0 7, need 2 8 0 0xFFFFFFFFFFFF, optAny 5 0 1]
  params := fun c s =>
    match s.boundStream c.pipeK with
    | none => none
    | some i =>
      if s.on (Role.spareValid c.cluster) && !s.spareFits i c.pipeK (s.spareOf c.cluster) then some 1
      else if c.val 2 ≠ 0 && !s.swapNOk i c.pipeK (c.val 2) then some 2 else none
  mode := fun c s => (s.boundStream c.pipeK).isNone
  busy := fun c s => (s.swapWait c.cluster).orElse fun _ =>
    [c.pipeK, s.spareOf c.cluster].findSome? fun p => ((s.pipe p).armed.head?).map fun a =>
      match s.boundStream p with | some i => s.streamWait i a.n | none => 1
  late := fun c s =>
    if !s.on (Role.spareValid c.cluster) then some (spareTerm c.cluster)
    else if c.val 5 = 1 then none
    else match s.boundStream c.pipeK with
      | some i => (s.lateHead i c.pipeK (s.spareOf c.cluster) c.take).map fun h => (0x31, [tlv 0xF012 2 (0xA00 + h)])
      | none => none
  effect := fun c => look fun s =>
    let spare := s.spareOf c.cluster
    match s.boundStream c.pipeK with
    | some i =>
      let n := c.swapN s i
      let guard := if (s.lateHead i c.pipeK spare c.take).isSome then 1 else if (s.stream i).suspendedBy.contains byService then 2 else 0
      block [powerPipe spare, armSwap c.cluster i n c.pipeK spare false guard]
    | none => .skip
  arms := fun c s => (s.boundStream c.pipeK).map fun i => (i, c.swapN s i)
  past := fun c s => match s.dev.swaps.find? fun x => x.1 = c.cluster with | some x => x.2.n < s.next x.2.stream | none => true
  undo := fun c => cancelSwap c.cluster

/-- AUTO_SPARE_SET (R559). -/
def specAutoSpareSet : CmdSpec where
  cls := 0x10
  code := 5
  bound := 50
  levels := [.cluster]
  keys := [needAny 6 0 1]
  effect := fun c => block [
    look fun s => set Live.autoSpare (putBits (s.get Live.autoSpare) c.cluster 1 (c.val 6)),
    when (c.val 6 = 1) (autoSpares c.cluster)]

/-! Head replacement (R560, R561). -/

/-- Is a head parked from an index on, without an end before it? -/
def State.parkedAt (s : State) (i h n : Nat) : Option Parked :=
  (s.asm i).parked.find? fun k => k.head = h && (match k.until_ with | some u => n < u | none => true)

/-- The index from which a head command may take effect: R287, and for a return one after the parking. -/
def headLeast (c : Ctx) (s : State) (resume : Bool) : Nat :=
  let i := c.val 0x10
  match (if resume then s.parkedAt i (c.val 0x11) (s.next i) else none) with
  | some k => max (s.earliestN i) (k.from_ + 1)
  | none => s.earliestN i

def headN (c : Ctx) (s : State) (resume : Bool) : Nat := if c.val 2 = 0 then headLeast c s resume else c.val 2

/-- The keys both commands check: the head entry and N. -/
def headKeyBad (resume : Bool) (c : Ctx) (s : State) : Option Nat :=
  if !(s.heads (c.val 0x10)).contains (c.val 0x11) then some 0x11
  else if c.val 2 ≠ 0 && c.val 2 < headLeast c s resume then some 2 else none

/-- The index at which a journalled command is armed. -/
def State.armedIndex (s : State) (take : Nat) : Option Nat :=
  match s.dev.journal.find? fun e => e.seq = take with
  | some e => (match e.phase with | .armed _ n => some n | _ => none)
  | none => none

/-- An armed head command has passed its point of no return at N. -/
def headPast (c : Ctx) (s : State) : Bool := match s.armedIndex c.take with | some n => n < s.next (c.val 0x10) | none => true

def setParked (i : Nat) (f : List Parked → List Parked) : Prog := setAsm i fun t => { t with parked := f t.parked }

/-- HEAD_PARK (R560). -/
def specHeadPark : CmdSpec where
  cls := 0x10
  code := 6
  bound := 300
  levels := [.device, .group]
  keys := [needAny 0x10 0 15, needAny 0x11 0 255, needAny 2 0 0xFFFFFFFFFFFF]
  denied := streamDenied 0x10
  params := headKeyBad false
  mode := fun c s => s.sState (c.val 0x10) ≠ sStarted || (s.parkedAt (c.val 0x10) (c.val 0x11) (headN c s false)).isSome
  node := fun c => 0x10000 + c.val 0x10
  effect := fun c => look fun s => setParked (c.val 0x10) fun l => l ++ [⟨c.val 0x11, headN c s false, none, none⟩]
  arms := fun c s => some (c.val 0x10, headN c s false)
  past := headPast
  undo := fun c => look fun s => setParked (c.val 0x10) fun l => l.filter fun k => !(k.head = c.val 0x11 && some k.from_ = s.armedIndex c.take)

/-- Is the link of a head's port up; a member answers for its own ports (log entry 13)? -/
def State.headLink (s : State) (i h take : Nat) : Bool :=
  if s.headLocal i h then s.get (Port.link (s.get (Head.port i h))) = 2
  else Config.memberReport (s.get (Head.device i h)) 12 h take % 2 = 1

/-- Is a head's port too slow for the heads admitted on it (Table 13-1, term 0x03)? -/
def State.headSlow (s : State) (i h take : Nat) : Bool :=
  let n := s.get (Head.port i h)
  if s.headLocal i h then decide (s.usable7 n < 7 * sumNat ((allStreams.filter s.admitted).map fun j => s.portDemand j n))
  else Config.memberReport (s.get (Head.device i h)) 13 h take % 2 = 1

/-- HEAD_RESUME (R561). -/
def specHeadResume : CmdSpec where
  cls := 0x10
  code := 7
  bound := 300
  levels := [.device, .group]
  keys := [needAny 0x10 0 15, needAny 0x11 0 255, needAny 2 0 0xFFFFFFFFFFFF, opt 0x12 2 0 0xFFFF]
  denied := streamDenied 0x10
  params := fun c s => (headKeyBad true c s).orElse fun _ =>
    let i := c.val 0x10
    let d := s.get (Head.device i (c.val 0x11))
    let lead := if d = s.dev.ownIndex then 64 else 64 + s.hopLatency d
    if c.has 0x12 && s.get (Trig.trigDelay i) < c.val 0x12 + lead then some 0x12 else none
  mode := fun c s =>
    let i := c.val 0x10
    s.sState i ≠ sStarted || (match s.parkedAt i (c.val 0x11) (s.next i) with | some k => k.until_.isSome | none => true)
      || !s.headLink i (c.val 0x11) c.take
  late := fun c s =>
    let i := c.val 0x10
    if s.headSlow i (c.val 0x11) c.take then some (0x31, [tlv 0xF012 2 (0x300 + s.get (Head.port i (c.val 0x11)))]) else none
  node := fun c => 0x10000 + c.val 0x10
  effect := fun c => look fun s => setParked (c.val 0x10) fun l => l.map fun k =>
    if k.head = c.val 0x11 && k.until_.isNone then
      { k with until_ := some (headN c s true), offset := if c.has 0x12 then some (c.val 0x12) else none }
    else k
  arms := fun c s => some (c.val 0x10, headN c s true)
  past := headPast
  undo := fun c => look fun s => setParked (c.val 0x10) fun l => l.map fun k =>
    if k.head = c.val 0x11 && k.until_ = s.armedIndex c.take then { k with until_ := none, offset := none } else k

/-- LIVE_STATUS. -/
def specLiveStatus : CmdSpec where
  cls := 0x10
  code := 8
  bound := 50
  levels := [.device, .cluster]
  powers := true
  changes := false
  results := fun c s => [⟨0x20, match c.tgt.kind with
    | .cluster k => s.words (0x10000044 + 0x01000000 * k) 3
    | _ => s.words 0x01000300 37⟩]
  effect := fun _ => .skip

/-! The commands of this class. -/


def execFwSwap (m : MbId) (r : Req) (s : State) : Host.Outcome State Fault Refusal := runCommand specFwSwap m r s
def execFwStatus (m : MbId) (r : Req) (s : State) : Host.Outcome State Fault Refusal := runCommand specFwStatus m r s
def execSpareCopy (m : MbId) (r : Req) (s : State) : Host.Outcome State Fault Refusal := runCommand specSpareCopy m r s
def execSpareSwap (m : MbId) (r : Req) (s : State) : Host.Outcome State Fault Refusal := runCommand specSpareSwap m r s
def execAutoSpareSet (m : MbId) (r : Req) (s : State) : Host.Outcome State Fault Refusal := runCommand specAutoSpareSet m r s
def execHeadPark (m : MbId) (r : Req) (s : State) : Host.Outcome State Fault Refusal := runCommand specHeadPark m r s
def execHeadResume (m : MbId) (r : Req) (s : State) : Host.Outcome State Fault Refusal := runCommand specHeadResume m r s
def execLiveStatus (m : MbId) (r : Req) (s : State) : Host.Outcome State Fault Refusal := runCommand specLiveStatus m r s

end Sys2Proof.Machine
end

