-- ==== Sys2Proof/Machine/Cascade.lean ====
section
/-! DEFINITION. The link layer of a cascade quad: lanes, link states, training, sequence and replay, credits, trigger messages and time blocks
(R447 to R464). -/

namespace Sys2Proof.Machine
open Reg

/-! Bringing a link up (R448 to R454). -/

/-- Does the ROM of a booting satellite bring every quad up for its image (R186)? -/
def State.bootQuads (s : State) : Bool := s.mode = mBoot && s.on BootReg.role && s.get BootReg.source = 2 && s.get BootReg.step = 4

/-- Is a quad powered: enabled or upstream, in a mode that powers it, or brought up by the ROM (R448)? -/
def State.quadPowered (s : State) (q : Nat) : Bool := s.domainOn (7 + q) || s.bootQuads

/-- The peer's device index is unknown and a fresh nonce stands for the next key. -/
def newNonce (q : Nat) : Prog := fresh fun v => setQuad q fun x => { x with nonce := leBytes 16 v, peer := InitInfo.none }

/-- A link falls to BASE, or reaches it from DOWN: the exchange of INIT packets begins anew. -/
def enterBase (q : Nat) : Prog := block [linkFalls q lBase, newNonce q]

/-- This end's INIT (R453). -/
def State.ownInit (s : State) (q : Nat) (ack : Bool) : InitInfo :=
  ⟨s.on BootReg.role, s.dev.ownIndex, s.dev.fuses.uid, (s.quad q).nonce, s.get (Quad.rateCap q), s.get (Quad.widthCap q), s.mode = mBoot,
    [4096, 512, 512], ack⟩

/-- The payload of an INIT packet, in the model's own layout (log entry 8). -/
def initBytes (i : InitInfo) : List Byte :=
  leBytes 1 (boolNat i.satellite) ++ leBytes 1 i.index ++ leBytes 1 i.rateCap ++ leBytes 1 i.widthCap ++ leBytes 1 (boolNat i.booting)
    ++ leBytes 1 (boolNat i.ack) ++ zeros 2 ++ slice i.uid 0 16 ++ slice i.nonce 0 16 ++ i.pools.flatMap (leBytes 4)

def sendInit (q : Nat) : Prog := look fun s => emit (.initPacket q (initBytes (s.ownInit q !(s.quad q).peer.nonce.isEmpty)))

/-- The upstream quad is chosen once until the next reset (R448). -/
def takeUpstream (q : Nat) : Prog := look fun s => when (s.on BootReg.role && s.upstream.isNone)
  (block [set (Quad.upstream q) 1, setDomain (7 + q) true false])

/-- CASCADE_LANE_LOCK (R450, R452): block lock on a lane. Lane 0 takes the link from DOWN to BASE; in Boot the first quad to lock becomes
upstream and the image is requested (R186). -/
def execCascadeLaneLock (q l : Fin 4) (s : State) : Host.Outcome State Fault Refusal :=
  .next (run (look fun s => when (s.quadPowered q.val) (block [
    set (Lane.lock q.val l.val) 1, set (Quad.laneLock q.val) (putBits (s.get (Quad.laneLock q.val)) l.val 1 1),
    when (s.bootQuads && s.upstream.isNone) (block [takeUpstream q.val, when (s.on BootReg.waiting) requestImage]),
    when (l.val = 0 && s.get (Quad.lstate q.val) = lDown) (enterBase q.val)])) s)

/-- CASCADE_LANE_LOCK_LOSS (R450, R452): 16 of the last 64 headers of a lane were invalid. -/
def execCascadeLaneLockLoss (q l : Fin 4) (s : State) : Host.Outcome State Fault Refusal :=
  .next (run (look fun s =>
    let q := q.val
    let l := l.val
    let st := s.get (Quad.lstate q)
    let used := s.on (Lane.inUse q l)
    let left := putBits (s.get (Quad.laneLock q)) l 1 0
    when (s.on (Lane.lock q l)) (block [
      set (Lane.lock q l) 0, set (Quad.laneLock q) left, bumpBy (Lane.badHdr q l) 16, bump (Lane.lockLosses q l),
      when (st = lUp && used) (block [
        setFlag (Quad.lockLost q),
        raiseLimited 0x0C 4 1 (4 * q + l) fun n => [BitVec.ofNat 8 q, BitVec.ofNat 8 l, 0, 0] ++ leBytes 4 n]),
      if st = lUp ∧ left = 0 then linkFalls q lDown
      else if st = lUp ∧ used then enterBase q
      else when (st = lBase && l = 0) (linkFalls q lDown)])) s)

/-- CASCADE_INIT_TIMER (R453): every 10 µs in BASE. -/
def execCascadeInitTimer (q : Fin 4) (s : State) : Host.Outcome State Fault Refusal :=
  .next (run (look fun s => when (s.quadPowered q.val && s.get (Quad.lstate q.val) = lBase) (sendInit q.val)) s)

/-- The pool that a peer advertises for a class, in 64-byte units. -/
def initPool (i : InitInfo) (k d : Nat) : Nat := i.pools.getD k d

/-- CASCADE_INIT_RECEIVE (R448, R453, R474): the peer's INIT. One from a group member fixes the upstream quad; with both acknowledged the
link trains at the highest rate and width within both caps. A member that shows a boot state has left. -/
def execCascadeInitReceive (q : Fin 4) (info : InitInfo) (s : State) : Host.Outcome State Fault Refusal :=
  .next (run (look fun s =>
    let q := q.val
    let st := s.get (Quad.lstate q)
    let member := !info.satellite || info.index ≠ 0
    if st = lUp ∨ st = lRestart then when (info.booting && !s.on (Quad.upstream q)) (satelliteLeaves q)
    else when (st = lBase) (block [
      setQuad q fun x => { x with
        peer := info, credit1 := initPool info 0 4096, credit2 := initPool info 1 512, credit3 := initPool info 2 512, seen1 := 0, seen2 := 0, seen3 := 0 },
      when member (takeUpstream q),
      sendInit q,
      when info.ack (block [set (Quad.lstate q) lTrain, set (Quad.rate q) (min (s.get (Quad.rateCap q)) info.rateCap),
        set (Quad.width q) (min (s.get (Quad.widthCap q)) info.widthCap)])])) s)

/-- LINK_RESTART on a quad is over: its link is UP again. What it reports where the link did not come back, the manual does not state. -/
def linkRestartDone (q : Nat) (up : Bool) : Prog :=
  if up then finishKey 0xC 4 1 q (fun _ => .skip) 0 else fresh fun v => finishKey 0xC 4 1 q (fun _ => .skip) (v % 256)

/-- CASCADE_TRAIN_TIMEOUT (R452): 2 ms without success. -/
def execCascadeTrainTimeout (q : Fin 4) (s : State) : Host.Outcome State Fault Refusal :=
  .next (run (look fun s => when (s.get (Quad.lstate q.val) = lTrain) (block [enterBase q.val, linkRestartDone q.val false])) s)

/-- The width code that the logical lanes which locked give, within the one agreed: lanes 0, 0 and 1, or 0 to 3 (R453); none without
lane 0. -/
def widthOf (agreed : Nat) (ls : List Nat) : Option Nat :=
  if !ls.contains 0 then none
  else if 2 ≤ agreed ∧ [1, 2, 3].all ls.contains then some 2
  else if 1 ≤ agreed ∧ ls.contains 1 then some 1 else some 0

/-- The 32-byte cascade secret of the policy; zeros where there is none (R466). -/
def State.secret (s : State) : List Byte := slice s.dev.sec.policy 128 32

/-- The key of a link (R466). -/
def State.linkKey (s : State) (q : Nat) : List Byte :=
  let t := s.quad q
  let own := s.dev.fuses.uid
  let up := s.on (Quad.upstream q)
  let pair := fun (a b : List Byte) => if up then b ++ a else a ++ b
  slice (Config.hmacSha384 s.secret ([0x41, 0x59, 0x4C, 0x49, 0x4E, 0x4B] ++ pair (slice own 0 16) (slice t.peer.uid 0 16) ++ pair t.nonce t.peer.nonce)) 0 32

/-- BLK in fclk cycles (Table 14-1). -/
def blkOf (rate : Nat) : Nat := match rate with | 1 => 7 | 2 => 5 | _ => 3

/-- RTT, OW and TRIG_HOP (R454, R463). -/
def putRtt (q rtt : Nat) : Prog := look fun s =>
  let ow := ceilDiv rtt 2
  block [set (Quad.rtt q) rtt, set (Quad.ow q) ow, set (Quad.trigHop q) (satNat (3 * ow + 8 * blkOf (s.get (Quad.rate q)) + 32) 0xFFFF)]

/-- EPOCH rises by one. -/
def nextEpoch (q : Nat) : Prog := look fun s => set (Quad.epoch q) ((s.get (Quad.epoch q) + 1) % 65536)

/-- CASCADE_LINK_UP (R451 to R454, R466, R468): the link enters UP with the lanes that locked; its key is derived, the round trip is
measured, and the root enumerates the devices behind it. -/
def execCascadeLinkUp (q : Fin 4) (u : LinkUp) (s : State) : Host.Outcome State Fault Refusal :=
  .next (run (look fun s =>
    let q := q.val
    let up := s.on (Quad.upstream q)
    match (if s.get (Quad.lstate q) = lTrain then widthOf (s.get (Quad.width q)) (u.lanes.map fun x => x.2.1.val) else none) with
    | none => .skip
    | some w =>
      let used := u.lanes.filter fun x => x.2.1.val < 2 ^ w
      block [
        forEach used fun x => block [set (Lane.lock q x.1.val) 1, set (Lane.inUse q x.1.val) 1, set (Lane.logical q x.1.val) x.2.1.val, set (Lane.skew q x.1.val) x.2.2.val],
        set (Quad.laneLock q) (used.foldl (fun m x => putBits m x.1.val 1 1) (s.get (Quad.laneLock q))),
        set (Quad.lstate q) lUp, set (Quad.width q) w, set (Quad.deskewed q) 1, putRtt q 0, nextEpoch q,
        when up (set (Quad.peer q) (s.quad q).peer.index), when (!up) (set (Quad.peer q) 0),
        setQuad q fun x => { x with key := s.linkKey q, everUp := true, restart := false, echoes := 16 },
        set (Quad.keyDefault q) (boolNat (s.secret.all (· = 0))),
        forEach (List.range 16) fun n => emit (.link q 6 n 0),
        when (!s.on BootReg.role) (enumerate q false u.found u.found []),
        look fun s => raise 0x0C 1 1 ([q, s.get (Quad.rate q), w, s.get (Quad.peer q)].map (BitVec.ofNat 8)),
        pump q, linkRestartDone q true]) s)

/-- CASCADE_ECHO (R454). -/
def execCascadeEcho (q : Fin 4) (n : BitVec 32) (s : State) : Host.Outcome State Fault Refusal :=
  .next (run (look fun s => when (s.get (Quad.lstate q.val) = lUp) (emit (.link q.val 7 n.toNat 0))) s)

/-- CASCADE_ECHO_REPLY (R454): one of the 16 measurements, in fclk cycles; RTT is the largest. -/
def execCascadeEchoReply (q : Fin 4) (n : BitVec 32) (rtt : BitVec 16) (s : State) : Host.Outcome State Fault Refusal :=
  .next (run (look fun s => when (s.get (Quad.lstate q.val) = lUp && n.toNat < 16 && (s.quad q.val).echoes ≠ 0) (block [
    setQuad q.val fun x => { x with echoes := x.echoes - 1 },
    putRtt q.val (max (s.get (Quad.rtt q.val)) rtt.toNat)])) s)

/-- CASCADE_BAD_BLOCK (R449, R457). -/
def execCascadeBadBlock (q : Fin 4) (s : State) : Host.Outcome State Fault Refusal := .next (run (bump (Quad.badBlock q.val)) s)

/-! Sequence, replay and restart (R458, R459). -/

/-- The time in ns that REPLAY_TIMEOUT and a NAK's silence last: one fclk cycle is 1 ns. -/
def State.replayNs (s : State) (q : Nat) : Nat := s.get (Quad.rtt q) + 256

/-- The link layer restarts: EPOCH rises, both ends start afresh and are UP again. -/
def restarted (q : Nat) : Prog := block [
  setQuad q fun x => { x with restart := false }, linkAfresh q false, nextEpoch q, set (Quad.lstate q) lUp, pump q, linkRestartDone q true]

/-- A restart is counted and raised, with the SEQ of the oldest packet without acknowledgement and the new EPOCH. -/
def noteRestart (q seq : Nat) : Prog := look fun s => block [
  bump (Quad.restarts q), setFlag (Quad.restarted q),
  raise 0x0C 3 1 ([BitVec.ofNat 8 q, 0, 0, 0] ++ leBytes 4 seq ++ leBytes 2 (s.get (Quad.epoch q) + 1))]

/-- The transmitter gives a packet up and enters RESTART. -/
def enterRestart (q seq : Nat) : Prog := look fun s => block [
  set (Quad.lstate q) lRestart, noteRestart q seq, setQuad q fun x => { x with restart := true },
  emit (.link q 8 ((s.get (Quad.epoch q) + 1) % 65536) 0)]

/-- Resending from a packet onward: one retry of each; a fourth retry of any restarts the link. -/
def resendFrom (q seq : Nat) : Prog := look fun s =>
  let ps := (s.quad q).unacked.dropWhile fun x => x.seq ≠ seq
  match ps.find? fun x => 3 ≤ x.retries with
  | some x => enterRestart q x.seq
  | none => when (!ps.isEmpty) (block [
      setQuad q fun t => { t with
        unacked := t.unacked.map fun x => if ps.contains x then { x with retries := x.retries + 1 } else x, resent := some (seq, s.now) },
      forEach ps fun x => block [bump (Quad.replays q), setFlag (Quad.replayed q), emit (.packet q x.seq x.pkt)]])

/-- The stream whose side record goes on after some packets. -/
def sideAfter (i : Nat) (ps : List TxPacket) : Nat :=
  ps.foldl (fun a x => if x.pkt.type = 2 && x.pkt.aux = 0 then leAt x.pkt.payload 1 1 % 16 else a) i

/-- CASCADE_ACK (R457, R458): everything up to the acknowledged SEQ is released. -/
def execCascadeAck (q : Fin 4) (seq : BitVec 32) (s : State) : Host.Outcome State Fault Refusal :=
  .next (run (look fun s => when (s.get (Quad.lstate q.val) = lUp && (s.quad q.val).unacked.any fun x => x.seq = seq.toNat)
    (setQuad q.val fun t =>
      let gone := (t.unacked.takeWhile fun x => x.seq ≠ seq.toNat) ++ (t.unacked.filter fun x => x.seq = seq.toNat)
      { t with unacked := t.unacked.drop gone.length, sideOf := sideAfter t.sideOf gone })) s)

/-- CASCADE_NAK (R459, Table 14-7): ignored while that packet is already being resent. -/
def execCascadeNak (q : Fin 4) (seq : BitVec 32) (s : State) : Host.Outcome State Fault Refusal :=
  .next (run (look fun s =>
    let busy := match (s.quad q.val).resent with | some (x, t) => x = seq.toNat && s.now < t + s.replayNs q.val | none => false
    when (s.get (Quad.lstate q.val) = lUp && !busy) (resendFrom q.val seq.toNat)) s)

/-- CASCADE_REPLAY_TIMEOUT (R459). -/
def execCascadeReplayTimeout (q : Fin 4) (s : State) : Host.Outcome State Fault Refusal :=
  .next (run (look fun s => when (s.get (Quad.lstate q.val) = lUp)
    (match (s.quad q.val).unacked with | x :: _ => resendFrom q.val x.seq | [] => .skip)) s)

/-- CASCADE_RESTART (R459, Table 14-7): the peer restarts the link layer; an end that restarts too takes this as its acknowledgement. -/
def execCascadeRestart (q : Fin 4) (epoch : BitVec 16) (s : State) : Host.Outcome State Fault Refusal :=
  .next (run (look fun s =>
    let oldest := match (s.quad q.val).unacked with | x :: _ => x.seq | [] => (s.quad q.val).txSeq
    if s.get (Quad.lstate q.val) = lRestart then restarted q.val
    else when (s.get (Quad.lstate q.val) = lUp) (block [
      emit (.link q.val 9 epoch.toNat 0), noteRestart q.val oldest, set (Quad.lstate q.val) lRestart, restarted q.val])) s)

/-- CASCADE_RESTART_ACK (R459). -/
def execCascadeRestartAck (q : Fin 4) (s : State) : Host.Outcome State Fault Refusal :=
  .next (run (look fun s => when (s.get (Quad.lstate q.val) = lRestart) (restarted q.val)) s)

/-- CASCADE_RESTART_TIMEOUT (R452): no answer within 20 µs. -/
def execCascadeRestartTimeout (q : Fin 4) (s : State) : Host.Outcome State Fault Refusal :=
  .next (run (look fun s => when (s.get (Quad.lstate q.val) = lRestart) (block [linkFalls q.val lDown, linkRestartDone q.val false])) s)

/-- CASCADE_CREDIT (R457, R460): the cumulative count of units freed, of one class. -/
def execCascadeCredit (q cls : Fin 4) (value : BitVec 32) (s : State) : Host.Outcome State Fault Refusal :=
  .next (run (look fun s => when (s.get (Quad.lstate q.val) = lUp) (block [
    setQuad q.val fun t =>
      let d := fun (seen : Nat) => (value.toNat + 0x100000000 - seen) % 0x100000000
      match cls.val with
      | 1 => { t with credit1 := t.credit1 + d t.seen1, seen1 := value.toNat }
      | 2 => { t with credit2 := t.credit2 + d t.seen2, seen2 := value.toNat }
      | 3 => { t with credit3 := t.credit3 + d t.seen3, seen3 := value.toNat }
      | _ => t,
    pump q.val])) s)

/-! Receiving packets (R456, R458, R460, R466, R467). -/

/-- A NAK with the expected SEQ, at most once until it advances or RTT + 256 fclk cycles pass. -/
def sendNak (q : Nat) : Prog := look fun s =>
  let quiet := match (s.quad q).nakAt with | some t => s.now < t + s.replayNs q | none => false
  when (!quiet) (block [bump (Quad.naksSent q), setQuad q fun t => { t with nakAt := some s.now }, emit (.link q 2 (s.quad q).rxSeq 0)])

def packetOf (p : PacketIn) (type : Nat) : Packet := ⟨type, p.cls.val, p.flags.toNat, p.src.val, p.dst.val, p.aux.toNat, p.payload⟩

/-- The units of a class that this end has freed so far. -/
def QuadSt.freed (t : QuadSt) (cls : Nat) : Nat := if cls = 1 then t.freed1 else if cls = 2 then t.freed2 else t.freed3

def QuadSt.free (t : QuadSt) (cls n : Nat) : QuadSt :=
  let up := fun (x : Nat) => (x + n) % 0x100000000
  if cls = 1 then { t with freed1 := up t.freed1 } else if cls = 2 then { t with freed2 := up t.freed2 } else { t with freed3 := up t.freed3 }

/-- Does a packet with AUTH end in the right tag? -/
def State.tagOk (s : State) (q seq : Nat) (p : Packet) : Bool :=
  16 ≤ p.payload.length
    && s.authTag q seq (if s.on (Quad.upstream q) then 0 else 1) p (p.payload.take (p.payload.length - 16)) = p.payload.drop (p.payload.length - 16)

/-- A packet that fails its tag: counted and raised in the S-world ring (R467). -/
def authFails (q seq type : Nat) : Prog := block [
  bump (Quad.authFail q), setFlag (Quad.authFailed q),
  raiseLimitedIn true 0x0C 9 1 q fun n => [BitVec.ofNat 8 q] ++ leBytes 4 seq ++ leBytes 1 type ++ leBytes 4 n]

/-- A packet for another device goes on, down or up. -/
def forward (p : Packet) : Prog := look fun s =>
  match s.quadTo p.dst with
  | some q => sendPacket q p
  | none => match s.upstream with | some q => sendPacket q p | none => .skip

/-- Is a packet for this device: it names its index, or the device has none yet? -/
def State.mine (s : State) (dst : Nat) : Bool := dst = s.dev.ownIndex || (s.on BootReg.role && s.dev.ownIndex = 0)

/-- A packet arrives: it is accepted in sequence with a good check, acknowledged and its credit returned; then it is authenticated, and
used here or sent on. A device that has no index yet is known by the quad it is on. -/
def receive (q seq : Nat) (crcOk : Bool) (type : Nat) (p : PacketIn) (k : Packet → Prog) : Prog := look fun s =>
  let pk0 := packetOf p type
  let pk := if pk0.src = 0 ∧ !s.on (Quad.upstream q) then { pk0 with src := s.get (Quad.peer q) } else pk0
  if s.get (Quad.lstate q) ≠ lUp then .skip
  else if !crcOk then block [bump (Quad.crcErr q), sendNak q]
  else if seq ≠ (s.quad q).rxSeq then block [bump (Quad.seqErr q), sendNak q]
  else block [
    setQuad q fun t => { t.free pk.cls pk.units with rxSeq := (t.rxSeq + 1) % 0x100000000, nakAt := none },
    bump (Quad.rxPackets q), emit (.link q 1 seq 0),
    look fun s => emit (.link q 5 ((s.quad q).freed pk.cls) pk.cls),
    if bit pk.flags 0 ∧ !s.tagOk q seq pk0 then authFails q seq type
    else if type = 9 ∧ !bit pk.flags 0 then authFails q seq type
    else if s.mine pk.dst then k pk.untagged else forward pk.untagged]

/-! Triggers (R247, R462). -/

/-- The trigger messages of a quad without some that are given up. -/
def resendTrigs (q : Nat) (ts : List (TrigMsg × Nat)) : Prog := look fun s =>
  let lost := ts.filter fun x => 3 ≤ x.2
  let again := ts.filter fun x => x.2 < 3
  block [
    setQuad q fun t => { t with
      trigUnacked := (t.trigUnacked.filter fun x => !lost.contains x).map fun x => if again.contains x then (x.1, x.2 + 1) else x,
      trigResent := (ts.head?).map fun x => (x.1.tseq, s.now) },
    loseTrigs q (lost.map Prod.fst),
    forEach again fun x => block [bump (Quad.trigRetries q), emit (.trig q x.1)]]

/-- CASCADE_TACK: everything up to the acknowledged TSEQ is released. -/
def execCascadeTack (q : Fin 4) (tseq : BitVec 16) (s : State) : Host.Outcome State Fault Refusal :=
  .next (run (look fun s => when (s.get (Quad.lstate q.val) = lUp && (s.quad q.val).trigUnacked.any fun x => x.1.tseq = tseq.toNat)
    (setQuad q.val fun t => { t with trigUnacked := (t.trigUnacked.dropWhile fun x => x.1.tseq ≠ tseq.toNat).drop 1 })) s)

/-- CASCADE_TNAK: resending from the expected TSEQ onward, unless that is under way. -/
def execCascadeTnak (q : Fin 4) (tseq : BitVec 16) (s : State) : Host.Outcome State Fault Refusal :=
  .next (run (look fun s =>
    let busy := match (s.quad q.val).trigResent with | some (x, t) => x = tseq.toNat && s.now < t + s.get (Quad.rtt q.val) + 64 | none => false
    when (s.get (Quad.lstate q.val) = lUp && !busy)
      (resendTrigs q.val ((s.quad q.val).trigUnacked.dropWhile fun x => x.1.tseq ≠ tseq.toNat))) s)

/-- CASCADE_TRIG_RETRY_TIMEOUT: RTT + 64 fclk cycles without a TACK of the oldest message. -/
def execCascadeTrigRetryTimeout (q : Fin 4) (s : State) : Host.Outcome State Fault Refusal :=
  .next (run (look fun s => when (s.get (Quad.lstate q.val) = lUp) (resendTrigs q.val (s.quad q.val).trigUnacked)) s)

/-! Time transfer (R257, R464). -/

/-- CASCADE_TIME_EXCHANGE: a downstream end sends a TIME block at t1, in 1/16 ns. -/
def execCascadeTimeExchange (q : Fin 4) (t1 : Nat) (s : State) : Host.Outcome State Fault Refusal :=
  .next (run (look fun s => when (s.get (Quad.lstate q.val) = lUp && !s.on (Quad.upstream q.val)) (
    let n := ((s.quad q.val).exchange + 1) % 65536
    block [setQuad q.val fun t => { t with exchange := n, t1 := t1 }, emit (.timeBlock q.val 0 n)])) s)

/-- CASCADE_TIME_BLOCK_RECEIVE: a block received at t. The upstream quad of a satellite answers one that comes down, at its own send time;
a downstream quad answers one that comes up with TIME_INFO, t1 and t4. -/
def execCascadeTimeBlockReceive (q : Fin 4) (up : Bool) (number : BitVec 16) (t sent : Nat) (s : State) : Host.Outcome State Fault Refusal :=
  .next (run (look fun s =>
    let q := q.val
    let x := s.quad q
    if s.get (Quad.lstate q) ≠ lUp then .skip
    else if up then when (!s.on (Quad.upstream q) && x.exchange = number.toNat) (block [
      setQuad q fun y => { y with t4 := t },
      sendPacket q ⟨9, 3, 1, s.dev.ownIndex, s.get (Quad.peer q), number.toNat, leBytes 8 x.t1.toNat ++ leBytes 8 t⟩])
    else when (s.on (Quad.upstream q)) (block [
      setQuad q fun y => { y with exchange := number.toNat, t2 := t, t3 := sent }, emit (.timeBlock q 1 number.toNat)])) s)

/-- The satellite's time follows the exchange (R254, R464, R465): before it has joined it steps when more than 1,000 ns off, else it
slews. -/
def followTime (q : Nat) (off : Int) : Prog := look fun s =>
  let ns := roundHalfUp off 16
  let good := decide (off.natAbs * max 1 s.dev.ownDepth ≤ 32)
  block [
    if !(s.quad q).joined ∧ 16000 < off.natAbs then stepTime ((s.now : Int) - ns).toNat (s.get TimeReg.frac) else startSlew (-ns),
    setHoldover false,
    setQuad q fun x => { x with goodTimes := if good then x.goodTimes + 1 else 0, badTimes := if good then 0 else x.badTimes + 1 },
    look fun s => when (8 ≤ (s.quad q).goodTimes) (setTimeLock q true),
    look fun s => when (4 ≤ (s.quad q).badTimes) (setTimeLock q false)]

/-- TIME_INFO_RECEIVE (R464): t1 and t4 of the exchange under way; a packet without a good tag is discarded. -/
def execTimeInfoReceive (q : Fin 4) (seq : BitVec 32) (crcOk : Bool) (p : PacketIn) (s : State) : Host.Outcome State Fault Refusal :=
  .next (run (receive q.val seq.toNat crcOk 9 p fun k => look fun s =>
    let q := q.val
    let x := s.quad q
    let t1 : Int := leAt k.payload 0 8
    let t4 : Int := leAt k.payload 8 8
    let off := ((x.t2 - t1) - (t4 - x.t3)) / 2 - 16 * s.sget (Quad.asym q)
    let mean := ((x.t2 - t1) + (t4 - x.t3)) / 2
    when (s.on (Quad.upstream q) && k.aux = x.exchange) (block [
      setS (Quad.offset q) (sat off (-(2 ^ 31)) (2 ^ 31 - 1)), set (Quad.meanDelay q) (satNat (mean / 16).toNat 0xFFFFFFFF),
      followTime q off])) s)

end Sys2Proof.Machine
end

