-- ==== Sys2Proof/Machine/CascadeData.lean ====
section
/-! DEFINITION. What cascade links carry: triggers, row parts, side records, events, images, and how satellites join (R186, R247, R353,
R390, R455, R462, R471, R474, R475). -/

namespace Sys2Proof.Machine
open Reg

/-! A satellite's share of a stream. -/

/-- What a satellite learns of an admission (log entry 8): the stream's state, its pipelines' format, its row store. -/
def satAdmit (k : Contract) (leads : List (Nat × Nat)) : Prog := look fun s =>
  let i := k.stream
  let a := s.asm i
  let mp := minPeriodOf k.rate
  let t := s.asIf k
  let heads := t.localHeads i
  let pipes := (heads.map fun x => x.2.2.2).dedup
  let policies := heads.map fun x => (x.2.2.2, t.policyFor k x.2.2.2 x.2.1 x.2.2.1)
  let store := (s.freeGranules k.worldS).take (ceilDiv (t.storeBytes i mp) 65536)
  when (!s.admitted i) (block [
    forEach pipes powerPipe,
    setStream i fun t => { StreamSt.reset with
      worldS := k.worldS, format := k.format, fill := k.fill, rowGranules := store, rate := k.rate, leads := leads
      dropped := t.dropped, rows := t.rows, marked := t.marked },
    forEach [(Del.state i, sAdmitted), (Asm.admitted i, 1), (Asm.storeGranules i, store.length), (Asm.storeFirst i, store.headD 0),
      (Asm.openRows i, 0), (Asm.openPeak i, 0), (Trig.minPeriod i, mp), (Trig.nextLo i, 0), (Trig.nextHi i, 0)] fun x => set x.1 x.2,
    setGen i fun _ => GenSt.reset,
    setAsm i fun _ => { AsmSt.reset with effort := s.get (Cod.effort i), cutout := a.cutout, cap := a.cap, margin := a.margin, audit := a.audit },
    forEach pipes fun p => block [
      set (Reg.Col.format p) k.format, set (Reg.Col.fill p) k.fill, set (Scr.cutout p) (boolNat a.cutout), set (Scr.margin p) a.margin,
      set (Scr.quota p) (if a.cutout then ((t.quotas i).find? fun x => x.1 = p).elim 0 Prod.snd else 0),
      setPipe p fun x => { x with heads := x.heads.filter fun e => !(heads.any fun h => h.2.2.2 = p && e.1 = 32 * h.2.1 + h.2.2.1) },
      updateLatency p],
    forEach policies fun x => when (!s.boundAdmitted x.1) (setPwr fun y => { y with resolved := Tbl.set 1 y.resolved x.1 x.2 }),
    forEach (policies.filter fun x => x.2 = 0) fun x => wakeRequest x.1,
    noteLatency])

/-- The admission that a control payload tells of. -/
def satContract (b : List Byte) : Contract :=
  ⟨leAt b 0 1 % 16, false, leAt b 4 4, [], leAt b 1 1, leAt b 2 2, 0, 0, none, none, leAt b 8 1 = 1⟩

/-- The rows of an index open at a satellite with the sequence that the root gave them. -/
def openPart (i n seq time : Nat) : Prog := look fun s =>
  when (s.admitted i && !(s.stream i).fast && !((s.asm i).rows.any fun r => r.index = n)) (block [
    when (s.sState i = sAdmitted) (block [set (Del.state i) sStarted, when (s.mode = mArmed) (modeChange mAcquire byStart)]),
    when (s.next i ≤ n) (advanceNext i n),
    openRow i n 0 time,
    setAsm i fun t => { t with rows := t.rows.map fun r => if r.index = n then { r with seq := seq + r.line } else r }])

/-- The time in ns with the given nanoseconds within its second that lies nearest another (R462). -/
def nearestTime (now ns : Nat) : Nat :=
  let t := now / 1000000000 * 1000000000 + ns
  if now + 500000000 < t then t - 1000000000 else if t + 500000000 ≤ now then t + 1000000000 else t

/-- A trigger message for a head of this device: its row opens, and the trigger waits for its emission time, or has missed it. -/
def takeTrig (m : TrigMsg) : Prog := look fun s =>
  let i := m.stream
  let t := nearestTime s.now m.emitNs
  let e := t + s.get (Head.timeOffset i m.head)
  block [
    openPart i m.index m.seq e, noteExposure i m.index m.head e,
    setGen i fun g => { g with emits := g.emits ++ [⟨m.head, m.index, t, e, decide (t < s.now)⟩] }]

/-- CASCADE_TRIG_RECEIVE (R462): a trigger message in TSEQ order, with a good check value, is accepted and used or sent on. -/
def execCascadeTrigReceive (q : Fin 4) (t : TrigIn) (ok : Bool) (s : State) : Host.Outcome State Fault Refusal :=
  .next (run (look fun s =>
    let q := q.val
    let x := s.quad q
    let m : TrigMsg := ⟨t.tseq.toNat, t.stream.val, t.head.toNat, t.dst.val, t.index.toNat, t.seq.toNat, t.emitNs.toNat⟩
    let quiet := match x.trigNakAt with | some a => s.now < a + s.replayNs q | none => false
    if s.get (Quad.lstate q) ≠ lUp ∨ !s.on (Quad.upstream q) then .skip
    else if !ok ∨ m.tseq ≠ x.rxTseq then when (!quiet) (block [setQuad q fun y => { y with trigNakAt := some s.now }, emit (.link q 4 x.rxTseq 0)])
    else block [
      setQuad q fun y => { y with rxTseq := (y.rxTseq + 1) % 65536, trigNakAt := none }, emit (.link q 3 m.tseq 0),
      if s.mine m.dst then takeTrig m else match s.quadTo m.dst with | some d => sendTrig d m | none => .skip]) s)

/-! Row parts (R353, R471). -/

/-- A part as its satellite lays it out (Table 14-8). -/
structure Part where
  seq : Nat
  stream : Nat
  left : Nat
  right : Nat
  deadline : Bool
  index : Nat
  heads : Nat
  first : Nat
  ratio : Nat
  closeDelta : Nat
  status : List Nat
  span : List Byte
  bandL : List Byte
  bandR : List Byte

def Part.bytes (p : Part) : List Byte :=
  leBytes 6 p.seq ++ leBytes 1 p.stream ++ leBytes 1 (boolNat (p.left ≠ 0) + 2 * boolNat (p.right ≠ 0) + 4 * boolNat p.deadline)
    ++ leBytes 6 p.index ++ leBytes 2 p.heads ++ leBytes 2 p.first ++ leBytes 1 p.ratio ++ [0] ++ leBytes 4 p.span.length
    ++ leBytes 2 p.left ++ leBytes 2 p.right ++ leBytes 4 p.closeDelta ++ padTo 8 (p.status.map (BitVec.ofNat 8))
    ++ padTo 8 p.span ++ padTo 8 p.bandL ++ padTo 8 p.bandR

/-- The component lists of columns. -/
def compsOf (c : Nat) (cols : List (List Nat)) : List (List Nat) := (List.range c).map fun k => cols.map fun v => v.getD k 0

/-- The columns of component lists. -/
def colsOf (w : Nat) (comps : List (List Nat)) : List (List Nat) := (List.range w).map fun j => comps.map fun c => c.getD j 0

/-- Columns packed under R362, and unpacked. -/
def packCols (n c : Nat) (cols : List (List Nat)) : List Byte := packBits n (interleave (compsOf c cols) cols.length)

def unpackCols (n c w : Nat) (bs : List Byte) : List (List Nat) :=
  let xs := unpackBits n (w * c) bs
  (List.range w).map fun j => (List.range c).map fun k => xs.getD (j * c + k) 0

/-- The prefix of a span's check (R387). -/
def spanPrefix (i d seq : Nat) : List Byte := leBytes 1 i ++ leBytes 1 (0x80 + d) ++ leBytes 6 seq

/-- The heads of a row from entry a on, n of them. -/
def RowSt.headsIn (r : RowSt) (a n : Nat) : List Nat := (r.slots.map SlotSt.head).filter fun h => a ≤ h && h < a + n

/-- The part of a closed row that this satellite sends, with the status bytes of its heads after coding. -/
def State.partOf (s : State) (i : Nat) (r : RowSt) (ratio : Nat) : Part :=
  let d := s.depth i
  let fill := (s.stream i).fill
  let x := s.partShape i s.dev.ownIndex
  let hs := r.slots.map SlotSt.head
  let gs := hs.map fun h => s.geo i h r.index
  let base := match gs with | g :: _ => g.col0 | [] => 0
  let cells := (joinRow (gs.map fun g => { g with col0 := g.col0 - base }) (r.slots.map SlotSt.cols) d.2 fill).map fun y =>
    if y.1.fill then List.replicate d.2 fill else y.1.v
  let body := (cells.drop x.left).take x.width
  let coded := encodeSegment ⟨d.1, d.2, x.width, budgetOf x.width d.1 d.2 ratio, true, 0⟩ (spanPrefix i s.dev.ownIndex r.seq) (compsOf d.2 body) []
  let lossy := if ratio = 0 then [] else coded.bad.flatMap fun j => s.headsOver i (base + x.left + 32 * j) (min 32 (x.width - 32 * j))
  let status := (List.range x.heads).map fun k =>
    match (r.slots.zip r.status).find? fun y => y.1.head = x.firstHead + k with
    | some y => if lossy.contains y.1.head then Nat.lor y.2 0x20 else y.2
    | none => 0
  { seq := r.seq, stream := i, left := x.left, right := x.right, deadline := r.deadline, index := r.index, heads := x.heads, first := x.firstHead
    ratio := ratio, closeDelta := satNat ((r.closed.getD r.lastExp) - r.lastExp) 0xFFFFFFFF, status := status
    span := if ratio = 0 then packCols d.1 d.2 body else coded.bytes
    bandL := packCols d.1 d.2 (cells.take x.left), bandR := packCols d.1 d.2 (cells.drop (x.left + x.width)) }

/-- A closed part goes up, and its row leaves the satellite. -/
def sendPart (i n y : Nat) : Prog := look fun s =>
  match s.row i n y, s.upstream with
  | some r, some q =>
    let clusters := (List.range 8).filter fun c => (s.spans i).any fun x => x.1 = nidCluster c
    block [
      sendWhole q 1 1 (s.quad q).peer.index (s.partOf i r (s.get (Quad.cascRatio q))).bytes,
      forEach clusters fun c => look fun s => block [
        bumpBy (Seam.spansClosed c) ((s.spans i).filter fun x => x.1 = nidCluster c).length,
        set (Seam.closeQueue c) (s.get (Seam.closeQueue c) - 1), bump (Node.counter (nidCluster c) none 1)],
      bump (Asm.rows i), when (r.status.any (· ≠ 0)) (block [bump (Asm.markedRows i), countMarked 1]), countTop 1 1,
      setAsm i fun t => { t with rows := t.rows.filter fun x => !(x.index = n && x.line = y), ends := t.ends.filter (· ≠ n) }]
  | _, _ => .skip

/-- SATELLITE_PART_CLOSE (R353, R472): the oldest row of a satellite's stream reaches its parent's close time less the lead. -/
def execSatellitePartClose (i : Fin 16) (s : State) : Host.Outcome State Fault Refusal :=
  .next (run (look fun s =>
    match (s.asm i.val).rows with
    | r :: _ => when (s.on BootReg.role) (block [when r.closed.isNone (closeRow i.val r.index r.line true), sendPart i.val r.index r.line])
    | [] => .skip) s)

/-- Gathering the packets of a part, record or image: those so far with the next one, where it continues them. -/
def gather (ps : List (Nat × Nat × List Byte)) (p : Packet) : List (Nat × Nat × List Byte) :=
  let rest := ps.filter fun x => !(x.1 = p.src && x.2.1 = p.type)
  if p.aux = 0 then rest ++ [(p.src, p.type, p.payload)]
  else match ps.find? fun x => x.1 = p.src && x.2.1 = p.type with
    | some x => if x.2.2.length = p.aux then rest ++ [(p.src, p.type, x.2.2 ++ p.payload)] else rest
    | none => rest

/-- A packet of a part or record; with the last one, the whole. -/
def gathered (q : Nat) (p : Packet) (k : List Byte → Prog) : Prog := look fun s =>
  let ps := gather (s.quad q).parts p
  let whole := ps.find? fun x => x.1 = p.src && x.2.1 = p.type
  if bit p.flags 1 then block [setQuad q fun t => { t with parts := ps.filter fun x => !(x.1 = p.src && x.2.1 = p.type) },
    match whole with | some x => k x.2.2 | none => .skip]
  else setQuad q fun t => { t with parts := ps }

/-- Counting and raising the outcome of a span (R390, Table 12-14). -/
def spanOutcome (d i seq : Nat) (o : SegOutcome) : Prog :=
  let data := fun (n : Nat) => [BitVec.ofNat 8 d, BitVec.ofNat 8 i] ++ leBytes 6 seq ++ leBytes 4 n
  block [bump RootCod.spansDecoded,
    match o with
    | .verified => .skip
    | .unverified => block [bump RootCod.spansUnverified, setFlag RootCod.decUnverified, countMarked 1, raiseLimited 0x0A 2 1 (16 * d + i) data]
    | _ => block [bump RootCod.spansCorrupt, setFlag RootCod.decCorrupt, countMarked 1, raiseLimited 0x0A 3 1 (16 * d + i) data]]

/-- A part from satellite d reaches its parent: the span is decoded and its columns, with the bands, fill the slots of its heads (R356,
R390). A corrupt span leaves its heads missing but for the bands. -/
def partArrived (d : Nat) (b : List Byte) : Prog := look fun s =>
  let i := leAt b 6 1 % 16
  let seq := leAt b 0 6
  let n := leAt b 14 2
  let first := leAt b 16 2
  let ratio := leAt b 18 1
  let size := leAt b 20 4
  let left := leAt b 24 2
  let right := leAt b 26 2
  match (s.asm i).rows.find? fun r => r.index = leAt b 8 6 && (if s.on BootReg.role then r.seq else s.rowSeq i r) = seq && r.closed.isNone with
  | none => .skip
  | some r =>
    let hs := r.headsIn first n
    let dp := s.depth i
    let gs := hs.map fun h => s.geo i h r.index
    let base := match gs with | g :: _ => g.col0 | [] => 0
    let w := (match gs.getLast? with | some g => g.col0 + g.outWidth | none => 0) - base - left - right
    let oStat := 32
    let oSpan := oStat + ceilDiv n 8 * 8
    let oL := oSpan + ceilDiv size 8 * 8
    let bandLen := fun (x : Nat) => ceilDiv (x * dp.1 * dp.2) 8
    let oR := oL + ceilDiv (bandLen left) 8 * 8
    let whole := size = spanBytes w dp.1 dp.2 ratio
    let dec := decodeSegment ⟨dp.1, dp.2, w, size, true, 0⟩ (spanPrefix i d seq) none (slice b oSpan size)
    let outcome : SegOutcome := if !whole then .corrupt else if ratio = 0 then .verified else dec.1
    let lost := outcome = .corrupt ∨ outcome = .unreferenced
    let body : List Col :=
      if lost then List.replicate w (fillCol dp.2 (s.stream i).fill)
      else (if ratio = 0 then unpackCols dp.1 dp.2 w (slice b oSpan size) else colsOf w dec.2.1).map fun v => ⟨false, v⟩
    let band := fun (o x : Nat) => (unpackCols dp.1 dp.2 x (slice b o (bandLen x))).map fun v => (⟨false, v⟩ : Col)
    let cells := band oL left ++ body ++ band oR right
    let stat := fun (h : Nat) => leAt b (oStat + (h - first)) 1
    let st := fun (h : Nat) =>
      if bit (stat h) 0 ∨ lost then 1 else if outcome = .unverified then Nat.lor (stat h) 0x10 else stat h
    let cols := fun (h : Nat) =>
      if bit (stat h) 0 then [] else (cells.drop (s.get (Geo.col0 i h) - base)).take (s.get (Geo.outWidth i h))
    let waits := hs.filter fun h => r.slots.any fun x => x.head = h && x.st < 2
    block [
      when (ratio ≠ 0 || !whole) (spanOutcome d i seq outcome),
      forEach waits fun h => block [
        updRow i r.index r.line fun r => r.setSlot h fun x =>
          { x with st := if bit (st h) 0 then 5 else if bit (st h) 3 then 4 else 2, cols := cols h, status := st h },
        when (bit (st h) 0) (block [bump (Geo.missingHead i h), bump (Asm.missingSlots i)]),
        when (bit (st h) 3) (block [bump (Geo.lateHead i h), bump (Asm.lateSlots i)])],
      when (lost && !waits.isEmpty) (remoteGone i d r.index),
      closeIfResolved i r.index r.line]

/-- ROW_PART_RECEIVE (R471). -/
def execRowPartReceive (q : Fin 4) (seq : BitVec 32) (crcOk : Bool) (p : PacketIn) (s : State) : Host.Outcome State Fault Refusal :=
  .next (run (receive q.val seq.toNat crcOk 1 p fun k => gathered q.val k (partArrived k.src)) s)

/-! Side records (R471). -/

/-- A satellite's side record enters its stream's FIFO. -/
def sideArrived (b : List Byte) : Prog := look fun s =>
  let i := leAt b 1 1 % 16
  let lost := if (s.stream i).sideLost then 2 else 0
  let flags := BitVec.ofNat 8 (Nat.lor (leAt b 12 1) lost)
  let r : EgRec := ⟨true, 0, b.take 12 ++ [flags] ++ b.drop 13, s.now, false, 0⟩
  if !s.admitted i then .skip
  else if (s.stream i).egressSize < (s.stream i).used + r.size then discardRecord i r
  else block [setStream i fun t => { t with sideLost := false }, enqueueRecord i r]

/-- SIDE_PACKET_RECEIVE (R471). -/
def execSidePacketReceive (q : Fin 4) (seq : BitVec 32) (crcOk : Bool) (p : PacketIn) (s : State) : Host.Outcome State Fault Refusal :=
  .next (run (receive q.val seq.toNat crcOk 2 p fun k => gathered q.val k sideArrived) s)

/-! Events of members (R31, R455). -/

/-- Members that left deeper in the tree (R474): they and those below them. -/
def deeperLeft (d : Nat) : Prog := look fun s =>
  let ds := (s.dev.group.filter fun m => m.leftSeq = 0 && s.under d m.index).map Member.index
  let last := (s.dev.group.map Member.leftSeq).foldl max 0
  block [
    forEach ds fun x => setMember x fun m => { m with joined := false, hold := false, locked := false, joinAt := [], leftSeq := last + 1 },
    forEach ds devMissing,
    forEach (s.dev.ctlWaits.filter fun w => ds.contains w.member) fun w => (match w.use with | .completion t => memberDone w t 0x34 | _ => .skip)]

/-- What a member's firmware answers of a device newly found at one of its quads (log entry 13). -/
def State.reportedAt (s : State) (d quad : Nat) : Found :=
  let far := fun (k : Nat) => Config.memberReport d k quad s.dev.ctlTag
  ⟨none, ⟨quad % 4, Nat.mod_lt _ (by decide)⟩, leBytes 16 (far 16), far 17 % 2 = 1, far 18 % 256, far 19 % 256⟩

/-- A link came up below member d at one of its quads: the device there takes its index (R468). -/
def deeperFound (d quad : Nat) : Prog := look fun s =>
  match s.quadTo d, s.dev.group.find? fun m => m.index = d && m.leftSeq = 0 with
  | some q, some m =>
    let f := s.reportedAt d quad
    if s.dev.group.any fun x => x.parent = d && x.quad = quad && x.leftSeq = 0 then .skip
    else match s.indexFor d quad (m.depth + 1) with
      | .inl x => block [placeMember x d (m.depth + 1) f, tellMember d ctlChild (childBytes x (m.depth + 1) f),
          tellMember x ctlIndex (leBytes 2 x ++ leBytes 2 (m.depth + 1))]
      | .inr r => joinRefused q r
  | _, _ => .skip

/-- What the root's firmware learns from a member's event. -/
def learn (d : Nat) (r : List Byte) : Prog :=
  let data := fun (k : Nat) => leAt r (16 + k) 1
  match leAt r 0 1, leAt r 1 1 with
  | 0x0C, 8 => if data 2 = 1 then setMember d fun m => { m with locked := true } else unlockMember d
  | 0x0C, 6 => deeperLeft (data 1)
  | 0x0C, 1 => look fun s => when (data 0 ≠ Config.memberReport d 20 0 s.dev.ctlTag % 4) (deeperFound d (data 0))
  | 3, 1 => when (leAt r 2 2 % 0x1000 = 1) (block [
      setMember d fun m => { m with hold := data 0 = mSafeHold }, when (data 0 = mSafeHold) (devMissing d)])
  | _, _ => .skip

/-- The completion event of a command that this device carried to a member, and the command. -/
def State.completes (s : State) (d : Nat) (r : List Byte) : Option (CtlWait × Nat) :=
  if leAt r 0 1 = 1 ∧ leAt r 1 1 = 1 ∧ leAt r 25 1 = 0x7E then
    s.dev.ctlWaits.findSome? fun w => match w.use with
      | .completion t => if w.member = d && s.dev.journal.any fun e =>
          e.seq = t && e.req.tag.toNat = leAt r 16 4 && e.cls = leAt r 23 1 && e.code = leAt r 22 1 then some (w, t) else none
      | _ => none
  else none

/-- EVENT_PACKET_RECEIVE (R455): the record goes to the ring of its world; the completion of a command that this device carried to the
member completes that command, and goes no further. -/
def execEventPacketReceive (q : Fin 4) (seq : BitVec 32) (crcOk : Bool) (p : PacketIn) (s : State) : Host.Outcome State Fault Refusal :=
  .next (run (receive q.val seq.toNat crcOk 3 p fun k => look fun s =>
    let r := slice k.payload 0 32
    match s.completes k.src r with
    | some x => memberDone x.1 x.2 (leAt r 24 1)
    | none => when (!(leAt r 0 1 = 1 && leAt r 1 1 = 1 && leAt r 25 1 = 0x7E)) (block [learn k.src r, postEvent (bit k.flags 0) r])) s)

/-! Boot images (R186). -/

/-- IMAGE_REQ_RECEIVE (R186): the root's firmware sends the image it runs. -/
def execImageReqReceive (q : Fin 4) (seq : BitVec 32) (crcOk : Bool) (p : PacketIn) (s : State) : Host.Outcome State Fault Refusal :=
  .next (run (receive q.val seq.toNat crcOk 7 p fun k => look fun s =>
    let slot := s.get Live.runSlot
    when (s.fwReady && (s.slotOf slot).valid) (sendWhole q.val 8 3 k.src (s.bytes (slotBase slot) (s.slotOf slot).len))) s)

/-- IMAGE_PACKET_RECEIVE (R186): a piece of the image reaches the control-processor memory of a booting satellite; the first one ends the
wait, the last one gives the length. -/
def execImagePacketReceive (q : Fin 4) (seq : BitVec 32) (crcOk : Bool) (p : PacketIn) (s : State) : Host.Outcome State Fault Refusal :=
  .next (run (receive q.val seq.toNat crcOk 8 p fun k => look fun s =>
    when (s.bootQuads && k.aux + k.payload.length ≤ 0x400000) (block [
      when (k.aux = 0) (block [clearMem 0 0x400000, set BootReg.waiting 0]),
      setBytes k.aux k.payload,
      when (bit k.flags 1) (setBoot fun b => { b with imageLen := k.aux + k.payload.length })])) s)

/-! Joining (R475). -/

/-- The streams admitted whose heads lie on a member or below it. -/
def State.streamsUnder (s : State) (d : Nat) : List Nat :=
  allStreams.filter fun i => s.admitted i && (s.satsOf i).contains d

/-- Did a direct satellite's link come up below what its streams were admitted with? -/
def State.belowNeed (s : State) (m : Member) : Bool :=
  m.parent = s.dev.ownIndex && (s.get (Quad.rate m.quad) < m.need.1 || s.get (Quad.width m.quad) < m.need.2) && !(s.streamsUnder m.index).isEmpty

/-- Replaying the shadow of a member's configuration (R475). -/
def replayShadow (d : Nat) : Prog := look fun s =>
  forEach (s.dev.shadow.filter fun x => x.1 = d) fun x => sendCtrl d false .note (leBytes 4 0 ++ x.2)

/-- SATELLITE_JOIN_INDEX (R475, Tables 14-9 and 14-10): the time of a member is locked; its configuration is compared and restored, and each
started stream gets its J. -/
def execSatelliteJoinIndex (d : Fin 16) (differ tablesLost : Bool) (s : State) : Host.Outcome State Fault Refusal :=
  .next (run (look fun s =>
    match s.dev.group.find? fun m => m.index = d.val && m.leftSeq = 0, s.quadTo d.val with
    | some m, some q =>
      let is := s.streamsUnder d.val
      let open_ := !m.joined || is.any fun i => s.sState i = sStarted && Tbl.get 0 m.joinAt i = noIndex
      let js := (is.filter fun i => s.sState i = sStarted).map fun i => (i, s.earliestN i)
      when (!s.on BootReg.role && s.pathUp d.val && m.locked && open_) (block [
        when (!m.joined) (block [
          when differ (replayShadow d.val),
          forEach is fun i => tellAdmitTo i d.val]),
        if s.belowNeed m then joinRefused q 1
        else block [
          setMember d.val fun m => { m with joined := true },
          forEach is fun i => setJoin d.val i (match js.find? fun x => x.1 = i with | some x => x.2 | none => noIndex),
          setFlag (Quad.joined q), tellMember d.val ctlJoin (leBytes 4 d.val),
          raise 0x0C 5 1 ([BitVec.ofNat 8 q, BitVec.ofNat 8 d.val, BitVec.ofNat 8 (boolNat tablesLost)] ++ js.flatMap fun x => leBytes 6 x.2)]])
    | _, _ => .skip) s)

end Sys2Proof.Machine
end

