-- ==== Sys2Proof/Machine/CascadeCommands.lean ====
section
/-! DEFINITION. The cascade commands, class 0x0C (R473, R476, R478). -/

namespace Sys2Proof.Machine
open Reg

def quadBase (q : Nat) : Nat := 0x01400000 + 0x40000 * q

/-- The commands of one quad are ordered among themselves. -/
def quadNode (c : Ctx) : Nat := 0x13000 + c.val 1

/-- Does a quad carry a satellite of a stream: one below it, or this satellite itself? -/
def State.carries (s : State) (q : Nat) (which : Nat → Bool) : Bool :=
  (s.belowQuad q).any (fun d => (s.streamsUnder d).any which) || (s.on (Quad.upstream q) && allStreams.any fun i => s.admitted i && which i)

/-- CASCADE_CONFIG (R448, R473): a quad is powered while it is enabled or upstream. -/
def specCascadeConfig : CmdSpec where
  cls := 0x0C
  code := 1
  bound := 200
  levels := [.device]
  keys := [needAny 1 0 3, optAny 2 0 1, optAny 3 1 4, optAny 4 0 2, raw 5 2 2 1 false, optAny 6 0 4]
  mode := fun c s =>
    let q := c.val 1
    let new := fun (k : Nat) (f : Fld) => c.has k && c.val k ≠ s.get f
    (new 2 (Quad.enable q) || new 3 (Quad.rateCap q) || new 4 (Quad.widthCap q) || new 6 (Quad.cascRatio q)) && s.carries q fun _ => true
  node := quadNode
  effect := fun c => look fun s =>
    let q := c.val 1
    block [
      forEach [(2, Quad.enable q), (3, Quad.rateCap q), (4, Quad.widthCap q), (5, Quad.asym q), (6, Quad.cascRatio q)] fun x =>
        when (c.has x.1) (set x.2 (c.val x.1)),
      when (c.has 2 && c.val 2 = 1) (setDomain (7 + q) true false),
      when (c.has 2 && c.val 2 = 0 && !s.on (Quad.upstream q)) (quadOff q)]

/-- CASCADE_STATUS. -/
def specCascadeStatus : CmdSpec where
  cls := 0x0C
  code := 2
  bound := 50
  levels := [.device]
  keys := [needAny 1 0 3]
  changes := false
  results := fun c s => [⟨0x10, s.words (quadBase (c.val 1)) 9⟩, ⟨0x11, s.words (quadBase (c.val 1) + 0x40) 12⟩]
  effect := fun _ => .skip

/-- An entry of TOPOLOGY. -/
def topoEntry (index parent quad depth lstate : Nat) (form : Bool) (formLevel ifLevel : Nat) (uid : List Byte) : List Byte :=
  [index, parent, quad, depth, lstate, boolNat form, formLevel, ifLevel].map (BitVec.ofNat 8) ++ slice uid 0 16 ++ zeros 8

/-- The devices of the group, this one first: its parent, quad and upstream link state are the satellite's own, or free values at a root,
which has none. The links deeper down are what the members' firmware answers (log entry 13). -/
def State.topology (s : State) : List Byte :=
  let none_ := Config.freeValue s.free
  let own := match s.upstream with
    | some q => topoEntry s.dev.ownIndex (s.quad q).peer.index (none_ % 4) s.dev.ownDepth (s.get (Quad.lstate q)) (s.on Ident.form) (s.get Ident.formLevel) (s.get Ident.ifLevel) s.dev.fuses.uid
    | none => topoEntry s.dev.ownIndex (none_ % 256) (none_ / 256 % 256) 0 (none_ / 65536 % 256) (s.on Ident.form) (s.get Ident.formLevel) (s.get Ident.ifLevel) s.dev.fuses.uid
  own ++ ((List.range 16).filterMap fun x => s.dev.group.find? fun m => m.index = x && m.leftSeq = 0).flatMap fun m =>
    topoEntry m.index m.parent m.quad m.depth
      (if m.parent = s.dev.ownIndex then s.get (Quad.lstate m.quad) else Config.memberReport m.index 15 0 s.dev.takes % 5)
      m.form m.formLevel m.ifLevel m.uid

/-- TOPOLOGY. -/
def specTopology : CmdSpec where
  cls := 0x0C
  code := 3
  bound := 100
  levels := [.group]
  changes := false
  results := fun _ s => [⟨0x20, s.topology⟩]
  effect := fun _ => fresh fun _ => .skip

/-- LINK_RESTART: a link-layer restart of an UP link, or a retrain from BASE. -/
def specLinkRestart : CmdSpec where
  cls := 0x0C
  code := 4
  bound := 50
  pends := some 20000
  levels := [.device]
  keys := [needAny 1 0 3, needAny 0x30 0 1]
  mode := fun c s => s.mode ≠ mMaintenance && s.carries (c.val 1) fun i => s.sState i = sStarted
  node := quadNode
  past := fun _ _ => true
  effect := fun c => look fun s =>
    let q := c.val 1
    if c.val 0x30 = 0 then when (s.get (Quad.lstate q) = lUp)
      (enterRestart q (match (s.quad q).unacked with | x :: _ => x.seq | [] => (s.quad q).txSeq))
    else when (s.get (Quad.lstate q) ≠ lDown) (enterBase q)

/-- PRBS_TEST (R476). -/
def specPrbsTest : CmdSpec where
  cls := 0x0C
  code := 5
  bound := 50
  pends := some 0
  extra := fun c _ => 1000000 * c.val 0x43
  levels := [.device]
  undo := fun c => block [setQuad (c.val 1) fun t => { t with prbsMask := 0 },
    forEach (List.range 4) fun l => block [set (Lane.gen (c.val 1) l) 0, set (Lane.chk (c.val 1) l) 0]]
  keys := [needAny 1 0 3, needAny 0x40 0 15, needAny 0x41 0 3, needAny 0x42 1 4, needAny 0x43 1 60000]
  mode := fun c s => s.mode ≠ mMaintenance || s.get (Quad.lstate (c.val 1)) = lUp
  node := quadNode
  past := fun _ _ => true
  effect := fun c => block [
    setQuad (c.val 1) fun t => { t with prbsMask := c.val 0x40 },
    forEach ((List.range 4).filter (bit (c.val 0x40))) fun l =>
      let q := c.val 1
      forEach [(Lane.gen q l, 1), (Lane.chk q l, 1), (Lane.pattern q l, c.val 0x41), (Lane.chkSync q l, 0), (Lane.prbsBitsLo q l, 0),
        (Lane.prbsBitsHi q l, 0), (Lane.prbsErr q l, 0)] fun x => set x.1 x.2]

/-- PRBS_TEST_DONE (R476): what the checkers of lanes 0 to 3 counted: synchronised or not, bits, bit errors. -/
def execPrbsTestDone (q : Fin 4) (r : List (Bool × Nat × Nat)) (s : State) : Host.Outcome State Fault Refusal :=
  .next (run (look fun s =>
    let q := q.val
    let m := (s.quad q).prbsMask
    let at_ := fun (l : Nat) => r.getD l (false, 0, 0)
    let lanes := (List.range 4).filter (bit m)
    when (m ≠ 0) (block [
      forEach lanes fun l => block [
        set (Lane.gen q l) 0, set (Lane.chk q l) 0, set (Lane.chkSync q l) (boolNat (at_ l).1),
        set (Lane.prbsBitsLo q l) (satNat (at_ l).2.1 (2 ^ 48 - 1)), set (Lane.prbsBitsHi q l) (satNat (at_ l).2.1 (2 ^ 48 - 1) / 0x100000000),
        set (Lane.prbsErr q l) (satNat (at_ l).2.2 0xFFFFFFFF)],
      setQuad q fun t => { t with prbsMask := 0 },
      look fun s => raise 0x0C 0xA 1 ([BitVec.ofNat 8 q, BitVec.ofNat 8 m]
        ++ (List.range 4).flatMap fun l => leBytes 3 (if bit m l then satNat (s.get (Lane.prbsErr q l)) 0xFFFFFF else 0)),
      finishKey 0xC 5 1 q (fun _ => .skip) 0])) s)

/-- PRBS_READ. -/
def specPrbsRead : CmdSpec where
  cls := 0x0C
  code := 6
  bound := 50
  levels := [.device]
  keys := [needAny 1 0 3]
  changes := false
  results := fun c s => [⟨0x44, (List.range 4).flatMap fun l =>
    let q := c.val 1
    leBytes 4 (s.get (Lane.prbsBitsLo q l)) ++ leBytes 2 (s.get (Lane.prbsBitsHi q l)) ++ leBytes 4 (s.get (Lane.prbsErr q l))
      ++ leBytes 1 (s.get (Lane.chkSync q l)) ++ [0]⟩]
  effect := fun _ => .skip

/-! The commands of this class. -/

def execCascadeConfig (m : MbId) (r : Req) (s : State) : Host.Outcome State Fault Refusal := runCommand specCascadeConfig m r s
def execCascadeStatus (m : MbId) (r : Req) (s : State) : Host.Outcome State Fault Refusal := runCommand specCascadeStatus m r s
def execTopology (m : MbId) (r : Req) (s : State) : Host.Outcome State Fault Refusal := runCommand specTopology m r s
def execLinkRestart (m : MbId) (r : Req) (s : State) : Host.Outcome State Fault Refusal := runCommand specLinkRestart m r s
def execPrbsTest (m : MbId) (r : Req) (s : State) : Host.Outcome State Fault Refusal := runCommand specPrbsTest m r s
def execPrbsRead (m : MbId) (r : Req) (s : State) : Host.Outcome State Fault Refusal := runCommand specPrbsRead m r s

end Sys2Proof.Machine
end

