-- ==== Sys2Proof/Machine/Stream.lean ====
section
/-! DEFINITION. The stream commands, class 0x0B: admission, start, stop and close, rings, and what delivery does on its own (R401 to
R446). -/

namespace Sys2Proof.Machine
open Reg

/-! Admission (R401 to R403, R594). -/

/-- The ports, pipelines and clusters that carry a contract's heads, and its rings, must be of the mailbox's world (R402). -/
def admitDenied (c : Ctx) (s : State) : Bool :=
  let i := c.val 1
  resultDenied c s || (!s.mbS c.mb &&
    (s.on (Ring.world i) || s.on (Ring.world (16 + i))
      || (s.localHeads i).any fun x => s.nodeS (nidPipe x.2.2.2) || s.nodeS (nidCluster (x.2.2.2 / 8)) || s.nodeS (nidCluster (portCluster x.2.1))))

/-- Does a device's join go on? -/
def State.joiningDev (s : State) (d : Nat) : Bool := s.dev.group.any fun m => m.index = d && !m.joined && m.leftSeq = 0

/-- The result of an admission: bound, breakdown, slots. -/
def Grant.results (g : Grant) : List Tlv :=
  [tlv 0x20 4 g.bound, ⟨0x21, (g.terms ++ g.arrival).flatMap (leBytes 4)⟩, tlv 0x22 1 g.slots]

/-- The failure of an admission: its mode, or the first term that fails. -/
def admitFails (c : Ctx) (s : State) : Option (Nat × List Tlv) :=
  if s.mode = mStandby ∨ s.mode = mMaintenance ∨ s.mode = mSafeHold ∨ s.admitted (c.val 1) then some (0x21, [])
  else match s.grade (c.contract s) c.take with
    | .inl (code, detail) => some (0x31, [tlv 0xF012 2 (0x100 * code + detail)])
    | .inr _ => none

/-- A stream is admitted with what it was granted. -/
def grantStream (k : Contract) (g : Grant) : Prog := look fun s =>
  let i := k.stream
  let t := s.stream i
  let a := s.asm i
  let heads := s.localHeads i
  let pipes := (heads.map fun x => x.2.2.2).dedup
  let use := match s.dev.sec.keys.find? fun x => x.1 = a.keySlot with | some x => x.2.use + 1 | none => 0
  let st : StreamSt := { StreamSt.reset with
    worldS := k.worldS, fast := k.fast, format := k.format, fill := k.fill, readouts := k.readouts, rowGranules := g.store
    egressGranules := g.egress, egressSize := 65536 * g.egress.length, sigma := g.sigma, avg := g.avg, terms := g.terms
    rate := k.rate, leads := g.leads, dropped := t.dropped, rows := t.rows, marked := t.marked }
  block [
    forEach pipes powerPipe,
    setStream i fun _ => st,
    forEach [(Del.state i, 1), (Del.suspended i, 0), (Del.fast i, boolNat k.fast), (Del.boundNs i, g.bound), (Del.acceptNs i, k.accept),
      (Del.slots i, g.slots), (Del.egressGranules i, g.egress.length), (Del.slack i, g.slack), (Del.worstNs i, 0),
      (Asm.admitted i, 1), (Asm.storeGranules i, g.store.length), (Asm.storeFirst i, g.store.headD 0), (Asm.recordBytes i, g.recordBytes),
      (Asm.openRows i, 0), (Asm.openPeak i, 0), (Trig.minPeriod i, g.minPeriod), (Trig.nextLo i, 0), (Trig.nextHi i, 0),
      (Ring.entryBytes i, 64 * ceilDiv g.recordBytes 64)] fun x => set x.1 x.2,
    setGen i fun _ => GenSt.reset,
    setAsm i fun a => { AsmSt.reset with
      effort := s.get (Cod.effort i), tagEn := a.tagEn, keySlot := a.keySlot, use := if a.tagEn then use else 0
      cutout := a.cutout, cap := a.cap, margin := a.margin, audit := a.audit },
    when a.tagEn (dev fun d => { d with sec := { d.sec with
      keys := d.sec.keys.map fun x => if x.1 = a.keySlot then (x.1, { x.2 with use := use }) else x } }),
    forEach pipes fun p => block [
      set (Reg.Col.format p) k.format, set (Reg.Col.fill p) k.fill,
      set (Scr.cutout p) (boolNat a.cutout), set (Scr.margin p) a.margin,
      set (Scr.quota p) (if a.cutout then ((s.quotas i).find? fun x => x.1 = p).elim 0 Prod.snd else 0),
      setPipe p fun x => { x with heads := x.heads.filter fun e => !(heads.any fun h => h.2.2.2 = p && e.1 = 32 * h.2.1 + h.2.2.1) },
      updateLatency p],
    forEach g.policies fun x => when (!s.boundAdmitted x.1) (setPwr fun y => { y with resolved := Tbl.set 1 y.resolved x.1 x.2 }),
    forEach (g.policies.filter fun x => x.2 = 0) fun x => wakeRequest x.1,
    dev fun d => { d with slotPlan := d.slotPlan ++ (s.freeSlots.take g.slots).map fun t => (t, i) },
    when (k.fast && s.get Car.fastFlits ≠ g.flits) (block [set Car.fastFlits g.flits, set Car.slotBytes (slotBytes s.rawBpc g.flits)]),
    noteLatency,
    raiseStream 1 i (leBytes 4 g.bound ++ leBytes 1 g.slots)]

/-- STREAM_ADMIT (R401 to R403, R594): FORMAT may be left out for a fast stream, whose records keep the width of their codes (R438). -/
def specStreamAdmit : CmdSpec where
  cls := 0x0B
  code := 1
  bound := 50
  pends := some 10000
  levels := [.device, .group]
  keys := [needAny 1 0 15, optAny 2 0 1, need 3 4 1 400000, raw 4 8 2048 8 true, optAny 5 0 9, opt 6 2 0 0xFFFF, opt 7 4 0 1000000, opt 8 2 0 224,
    optAny 9 1 2, opt 0xA 4 0 0xFFFFFFFF] ++ resultKeys
  denied := admitDenied
  params := fun c s =>
    let es := c.elems 4 8
    let hs := es.map fun e => leAt e 0 2
    if hs.dedup.length ≠ hs.length ∨ es.any (fun e => leAt e 2 2 ≠ 0) ∨ hs.any (fun h => !(s.heads (c.val 1)).contains h)
        ∨ (s.heads (c.val 1)).any (fun h => !hs.contains h) then some 4
    else if c.val 2 = 0 ∧ !c.has 5 then some 5
    else if 2 ^ (formatOf (c.val 5)).1 ≤ c.val 6 then some 6
    else if c.val 2 = 1 ∧ !c.has 9 ∧ !(allStreams.any fun i => s.admitted i && (s.stream i).fast) then some 9
    else resultBad c
  mode := fun c s => s.mode = mStandby || s.mode = mMaintenance || s.mode = mSafeHold || s.admitted (c.val 1)
  busy := fun c s => if (s.heads (c.val 1)).any fun h => s.joiningDev (s.get (Head.device (c.val 1) h)) then some 50000 else none
  late := fun c _ => if c.has 0xF004 then resultFull c 76 else none
  final := admitFails
  results := fun c s => match s.grade (c.contract s) c.take with | .inr g => g.results | .inl _ => []
  effect := fun _ => .skip
  node := fun _ => 1
  past := fun c s => s.admitted (c.val 1)

/-- STREAM_ADMIT_DONE (R403). -/
def execStreamAdmitDone (s : State) : Host.Outcome State Fault Refusal :=
  .next (run (finishCtx 0xB 1 1 admitFails fun c e => look fun s =>
    match s.grade (c.contract s) c.take with
    | .inr g => block [grantStream (c.contract s) g, tellAdmit (c.val 1), putResult e (tlvBytes g.results)]
    | .inl _ => .skip) s)

/-! Starting, stopping and closing (R443). -/

/-- STREAM_START (R57, R235, R443): the first start moves Armed to Acquire (Table 2-2). -/
def specStreamStart : CmdSpec where
  cls := 0x0B
  code := 2
  bound := 200
  levels := [.device, .group]
  keys := [needAny 1 0 15, raw 0x10 12 12 1 false]
  denied := streamDenied 1
  params := fun c _ => if c.has 0x10 && 1000000000 ≤ c.at 0x10 6 4 then some 0x10 else none
  mode := fun c s => s.mode = mStandby || s.mode = mMaintenance || s.mode = mSafeHold || s.sState (c.val 1) = sNone || s.sState (c.val 1) = sStarted
  node := streamNode
  effect := fun c => look fun s =>
    let i := c.val 1
    let at_ := c.at 0x10 0 6 * 1000000000 + c.at 0x10 6 4
    let later := c.has 0x10 && s.now < at_
    block [
      dropThresholds i, set (Del.state i) sStarted,
      if later then setStream i fun t => { t with startAt := some at_ } else latchOrigin i s.now,
      raiseStream 2 i (if c.has 0x10 then c.bytes 0x10 else s.time12),
      joinAtStart i,
      when (s.mode = mArmed) (modeChange mAcquire byStart)]

/-- ORIGIN_LATCH (R443): the start time of a stream is reached. -/
def execOriginLatch (i : Fin 16) (s : State) : Host.Outcome State Fault Refusal :=
  .next (run (look fun s =>
    match (s.stream i.val).startAt with
    | some t => when (s.sState i.val = sStarted) (block [setStream i.val fun t => { t with startAt := none }, latchOrigin i.val t])
    | none => .skip) s)

/-- A stop is requested: no index is issued, and a start time still to come is forgotten. -/
def stopStream (i : Nat) : Prog := block [setStream i fun t => { t with startAt := none }, stopIssuing i]

/-- STREAM_STOP (R443). -/
def specStreamStop : CmdSpec where
  cls := 0x0B
  code := 3
  bound := 50
  pends := some 1000
  extra := fun c s => s.get (Del.boundNs (c.val 1))
  levels := [.device, .group]
  keys := [needAny 1 0 15]
  denied := streamDenied 1
  mode := fun c s => s.sState (c.val 1) ≠ sStarted
  node := streamNode
  effect := fun c => stopStream (c.val 1)
  past := fun _ _ => true

/-- STREAM_STOPPED (R443): every issued row has closed and been produced. -/
def execStreamStopped (i : Fin 16) (s : State) : Host.Outcome State Fault Refusal :=
  .next (run (look fun s => when (s.asm i.val).rows.isEmpty (streamStopped i.val)) s)

/-- STREAM_CLOSE (R443). -/
def specStreamClose : CmdSpec where
  cls := 0x0B
  code := 4
  bound := 50
  pends := some 2000
  extra := fun c s => s.get (Del.boundNs (c.val 1))
  levels := [.device, .group]
  keys := [needAny 1 0 15]
  denied := streamDenied 1
  mode := fun c s => !s.admitted (c.val 1)
  node := streamNode
  effect := fun c => look fun s =>
    let i := c.val 1
    let was := s.sState i
    block [
      setStream i fun t => { t with closing := some closedByCommand },
      when (was = sStarted) (stopStream i), dropThresholds i,
      look fun s => when (was = sAdmitted) (sendTag i (s.band i (s.next i - 1)) true s.now)]
  past := fun _ _ => true

/-- STREAM_CLOSED (R443): once its rows have left assembly and its records are delivered; what a full ring or missing credit still holds is
dropped. -/
def execStreamClosed (i : Fin 16) (s : State) : Host.Outcome State Fault Refusal :=
  .next (run (look fun s =>
    match (s.stream i.val).closing with
    | none => .skip
    | some cause =>
      if !(s.asm i.val).rows.isEmpty then .skip
      else block [streamStopped i.val, look fun s =>
        let t := s.stream i.val
        let goes := match t.fifo with | r :: _ => s.canLeave i.val r | [] => false
        if goes || !t.flight.isEmpty then .skip
        else
          let n := (t.fifo.filter fun r => !r.side).length
          block [when (n ≠ 0) (dropRow i.val n), releaseStream i.val cause]]) s)

/-- STREAM_STATUS. -/
def specStreamStatus : CmdSpec where
  cls := 0x0B
  code := 5
  bound := 50
  levels := [.device, .group]
  keys := [needAny 1 0 15]
  denied := streamDenied 1
  changes := false
  results := fun c s => let b := 0x01200200 + 0x8000 * c.val 1; [⟨0x30, s.words b 7⟩, ⟨0x31, s.words (b + 0x40) 16⟩]
  effect := fun _ => .skip

/-! Rings (R417 to R422). -/

/-- The world that RING_SET gives a ring: slots 32 and 33 keep theirs, a completion ring follows its submission ring. -/
def State.ringWorld (s : State) (i : Nat) (m : MbId) : Nat :=
  if i = 32 then 0 else if i = 33 then 1
  else if 38 ≤ i ∧ s.on (Ring.enable (i - 4)) then s.get (Ring.world (i - 4)) else boolNat (s.mbS m)

/-- RING_SET (R418, R419): an enabled ring needs BASE, COUNT and INDEX_ADDR; keys left out of a disabled one write 0. -/
def specRingSet : CmdSpec where
  cls := 0x0B
  code := 6
  bound := 100
  levels := [.device, .group]
  keys := [needAny 0x40 0 41, raw 0x41 8 8 1 false, optAny 0x42 0 1048576, raw 0x43 8 8 1 false, opt 0x44 4 0 0xFFFFFF, needAny 0x45 0 1]
  denied := fun c s => !s.mbS c.mb && (c.val 0x40 = 33 || (c.val 0x40 < 42 && s.on (Ring.enable (c.val 0x40)) && s.on (Ring.world (c.val 0x40))))
  params := fun c _ =>
    let en := c.val 0x45 = 1
    if (en && !c.has 0x41) || c.val 0x41 % 64 ≠ 0 then some 0x41
    else if en && c.val 0x42 < 2 then some 0x42
    else if (en && !c.has 0x43) || c.val 0x43 % 4 ≠ 0 then some 0x43
    else if bit (c.val 0x44) 7 && c.val 0x44 % 128 < 16 then some 0x44 else none
  mode := fun c s => c.val 0x40 < 32 && s.admitted (c.val 0x40 % 16)
  node := fun c => 0x11000 + c.val 0x40
  effect := fun c => look fun s =>
    let i := c.val 0x40
    block [
      forEach [(Ring.enable i, c.val 0x45), (Ring.world i, s.ringWorld i c.mb), (Ring.baseLo i, c.val 0x41 / 64), (Ring.baseHi i, c.val 0x41 / 0x100000000),
        (Ring.count i, c.val 0x42), (Ring.vector i, c.val 0x44 % 128), (Ring.irqEn i, c.val 0x44 / 128 % 2), (Ring.holdoff i, c.val 0x44 / 256),
        (Ring.indexAddrLo i, c.val 0x43 / 4), (Ring.indexAddrHi i, c.val 0x43 / 0x100000000), (Ring.hostIndex i, 0), (Ring.devIndex i, 0)]
        fun x => set x.1 x.2,
      setRing i fun _ => RingSt.reset,
      when (i = 32 ∨ i = 33) (block [when (c.val 0x45 = 1) (setEvq (i = 33) fun q => { q with seq := 0 }), drainEvents (i = 33)])]

/-- CAROUSEL_READ. -/
def specCarouselRead : CmdSpec where
  cls := 0x0B
  code := 7
  bound := 50
  levels := [.device, .group]
  changes := false
  results := fun _ s => [⟨0x50, s.words 0x012C0000 3⟩, ⟨0x51, s.peek 0x012C0100 256⟩]
  effect := fun _ => .skip

/-- FLUSHES and STRANDED of a node's queues. -/
def State.queueCounts (s : State) (nid : Nat) : Nat × Nat := Tbl.get (0, 0) s.dev.qcounts nid

/-- QUEUE_STATUS. -/
def specQueueStatus : CmdSpec where
  cls := 0x0B
  code := 8
  bound := 50
  levels := [.device, .cluster, .pipeline]
  powers := true
  changes := false
  results := fun c s => let q := s.queueCounts c.tgt.local; [⟨0x60, leBytes 4 q.1 ++ leBytes 4 q.2⟩]
  effect := fun _ => .skip

/-! Delivery. -/

/-- CAROUSEL_SLOT_START (R412, R413). -/
def execCarouselSlotStart (t : Fin 256) (s : State) : Host.Outcome State Fault Refusal := .next (run (slotStart t.val) s)

/-- CAROUSEL_ROTATION_BOUNDARY (R415, R416). -/
def execCarouselRotationBoundary (s : State) : Host.Outcome State Fault Refusal := .next (run rotation s)

/-- HOST_INDEX_WRITE (R419, R420): a host write of a ring's HOST_INDEX through BAR0. -/
def execHostIndexWrite (fn : Fin 2) (ring : Fin 42) (v : BitVec 32) (s : State) : Host.Outcome State Fault Refusal :=
  .next (run (postWrite fn.val .bar0 (0x9020 + 0x40 * ring.val) ((leBytes 4 v.toNat).map some)) s)

/-- EGRESS_RECORD_DEPART (R424): the front record of a stream's buffer. -/
def execEgressRecordDepart (i : Fin 16) (s : State) : Host.Outcome State Fault Refusal := .next (run (departRecord i.val) s)

/-- DEV_INDEX_UPDATE (R421). -/
def execDevIndexUpdate (ring : Fin 42) (s : State) : Host.Outcome State Fault Refusal := .next (run (updateIndex ring.val) s)

/-- RING_HOLDOFF_EXPIRY (R421). -/
def execRingHoldoffExpiry (ring : Fin 42) (s : State) : Host.Outcome State Fault Refusal := .next (run (holdoffEnd ring.val) s)

/-- RECORD_DELIVERED (R404, R440): the oldest record on its way is complete; a violation found then carries the cause measured. -/
def execRecordDelivered (i : Fin 16) (cause : Fin 7) (component : Nat) (s : State) : Host.Outcome State Fault Refusal :=
  .next (run (recordDelivered i.val cause.val component) s)

/-- Is a record still to be delivered? -/
def State.undelivered (s : State) (i seq : Nat) : Bool :=
  ((s.stream i).find seq).isSome || (s.asm i).rows.any fun r => r.coding && r.seq = seq

/-- BOUND_EXPIRY (R440, R441): a record's bound expires undelivered, with the component measured as its cause (R442). -/
def execBoundExpiry (i : Fin 16) (seq : Nat) (cause : Fin 7) (component : Nat) (s : State) : Host.Outcome State Fault Refusal :=
  .next (run (look fun s => when (s.undelivered i.val seq) (boundExpired i.val seq cause.val component)) s)

/-! The commands of this class. -/

def execStreamAdmit (m : MbId) (r : Req) (s : State) : Host.Outcome State Fault Refusal := runCommand specStreamAdmit m r s
def execStreamStart (m : MbId) (r : Req) (s : State) : Host.Outcome State Fault Refusal := runCommand specStreamStart m r s
def execStreamStop (m : MbId) (r : Req) (s : State) : Host.Outcome State Fault Refusal := runCommand specStreamStop m r s
def execStreamClose (m : MbId) (r : Req) (s : State) : Host.Outcome State Fault Refusal := runCommand specStreamClose m r s
def execStreamStatus (m : MbId) (r : Req) (s : State) : Host.Outcome State Fault Refusal := runCommand specStreamStatus m r s
def execRingSet (m : MbId) (r : Req) (s : State) : Host.Outcome State Fault Refusal := runCommand specRingSet m r s
def execCarouselRead (m : MbId) (r : Req) (s : State) : Host.Outcome State Fault Refusal := runCommand specCarouselRead m r s
def execQueueStatus (m : MbId) (r : Req) (s : State) : Host.Outcome State Fault Refusal := runCommand specQueueStatus m r s

end Sys2Proof.Machine
end

