-- ==== Sys2Proof/Machine/Firmware.lean ====
section
/-! DEFINITION. The table of commands, and what firmware does with a request that it reads: taking it, releasing a held one, aborting one, and
resolving its journal after a restart (R138, R143, R147 to R154, R175, R551 to R553). -/

namespace Sys2Proof.Machine
open Reg

/-! The commands (Table 4-9 and the tables of the chapters). -/

def commandsA : List CmdSpec := [
  specGetIdentity, specGetVersions, specEcho, specClearFlagCounters, specGetHeader, specListChildren, specReadCounters, specClearCounters,
  specNodeReset, specGetMode, specSetMode, specRelease, specGetNodeState, specSetNodeState, specSetWakePolicy, specGetDomains, specRetire,
  specThermalRead, specThermalConfig]

def commandsB : List CmdSpec := [
  specPortConfig, specPortEnable, specSteeringSet, specFramerSet, specPortStatus, specFramerStatus, specClearPortCounters, specEqAdapt, specEyeScan,
  specGetEq, specEncConfig, specEncRead, specEncSet, specTriggerSet, specTriggerStatus, specLinkLatency, specTimeRead, specTimeSet, specTimeAdjust,
  specPtpConfig, specPtpStatus, specPinConfig, specPulseSet, specCaptureRead, specAlarmSet]

def commandsC : List CmdSpec := [
  specLinSet, specBlackSet, specDefectSet, specFlatSet, specGaugeLoad, specGaugeSwap, specGaugeRead, specSwatchStart, specSwatchAbort, specSwatchRead,
  specGaugeCompute, specCorrStatus, specWbSet, specDemosaicSet, specAlignSet, specMatrixSet, specStatsSet, specStatsRead, specColourStatus,
  specScreenSet, specScreenTune, specScreenStreamSet, specScreenStatus, specHistoryReset]

def commandsD : List CmdSpec := [
  specAssemblySet, specGeometrySet, specMatchSet, specAssemblyStatus, specCodingSet, specEffortSet, specCodingStatus, specJobAbort, specJobStatus,
  specStreamAdmit, specStreamStart, specStreamStop, specStreamClose, specStreamStatus, specRingSet, specCarouselRead, specQueueStatus,
  specCascadeConfig, specCascadeStatus, specTopology, specLinkRestart, specPrbsTest, specPrbsRead]

def commandsE : List CmdSpec := [
  specTwTargetSet, specTwTargetStatus, specTwConfig, specTwXfer, specTwStatus, specFaultStatus, specCrcCompute, specErrInject, specWorldStatus,
  specWorldQuery, specNworldReset, specAttestCert, specAttestReport, specKeyLoad, specKeyClear, specStreamTagSet, specRollbackAdvance,
  specFwSwap, specFwStatus, specSpareCopy, specSpareSwap, specAutoSpareSet, specHeadPark, specHeadResume, specLiveStatus,
  specDebugStatus, specDebugChallenge, specDebugUnlock, specDebugLock, specDbgAccess, specBistRun]

/-- Every command but ABORT. -/
def otherCommands : List CmdSpec := commandsA ++ commandsB ++ commandsC ++ commandsD ++ commandsE

/-- The command, other than ABORT, of a journal entry. -/
def Cmd.spec (e : Cmd) : Option CmdSpec := otherCommands.find? fun sp => sp.cls = e.cls && sp.code = e.code

/-- The node that a response to a journalled request names. -/
def Cmd.nid (e : Cmd) (s : State) : Nat := match e.ctx s with | some c => c.tgt.nid | none => e.req.node.toNat % 0x10000

/-- The response to a journalled request, unless a Function Level Reset took its mailbox away (R177). -/
def answer (e : Cmd) (status : Nat) (ts : List Tlv) : Prog := look fun s =>
  when (!e.answered) (respond e.mb e.cls e.code e.req 1 status (e.nid s) ts)

/-! ABORT (R154). -/

/-- The mailbox that key 0x000A names. -/
def abortBox (v : Nat) : Option MbId :=
  if v = 0x7F then some .twoWire
  else if v < 4 then some (.pf0 ⟨v % 4, Nat.mod_lt _ (by decide)⟩)
  else if v = 0x80 ∨ v = 0x81 then some (.pf1 ⟨v % 2, Nat.mod_lt _ (by decide)⟩)
  else none

/-- The oldest pending command of a tag in a mailbox. -/
def State.tagged (s : State) (m : MbId) (tag : Nat) : Option Cmd := s.dev.journal.find? fun e => e.mb = m && e.req.tag.toNat = tag

/-- Telling the members that carry a command that it is aborted. -/
def abortAt (ds : List Nat) (e : Cmd) : Prog :=
  forEach ds fun d => tellMember d ctlAbort (leBytes 4 e.req.tag.toNat)

/-- A command ends before its point of no return, its effects undone; past that point it goes on. One that other devices carry is aborted
there; what they answer then completes it. -/
def abortCmd (e : Cmd) : Prog := look fun s =>
  let far := 0x1000 ≤ e.node && e.node < 0x10000
  let back := fun (c : Ctx) (sp : CmdSpec) => block [sp.undo c, look fun s =>
    match s.dev.journal.find? fun x => x.seq = e.seq with | some x => completeCmd x 0x33 | none => .skip]
  match e.phase with
  | .held => block [dropCmd e.seq, raiseCompleted e 0x33, answer e 0x33 []]
  | .probe => block [dropCmd e.seq, raiseCompleted e 0x33, answer e 0x33 []]
  | .remote => abortAt ((s.dev.ctlWaits.filter fun w => w.use = .command e.seq || w.use = .completion e.seq).map fun w => w.member) e
  | .pending => (match e.ctx s, e.spec with | some c, some sp => when (!sp.past c s) (back c sp) | _, _ => .skip)
  | .armed st n => (match e.ctx s, e.spec with
      | some c, some sp =>
        if far then when (s.next st ≤ n) (block [abortAt [c.tgt.dev] e, completeCmd e 0x33])
        else when (!sp.past c s) (block [abortAt (if sp.fanout then s.membersOf c.tgt else []) e, back c sp])
      | _, _ => .skip)

/-- ABORT. -/
def specAbort : CmdSpec where
  cls := 1
  code := 4
  bound := 100
  levels := [.device]
  changes := false
  keys := [need 9 4 0 0xFFFFFFFF, needAny 0xA 0 0xFF]
  denied := fun c s => !s.mbS c.mb && (match abortBox (c.val 0xA) with | some m => s.mbS m | none => false)
  params := fun c s => match abortBox (c.val 0xA) with
    | none => some 0xA
    | some m => if (s.tagged m (c.val 9)).isSome then none else some 9
  results := fun c _ => [tlv 9 4 (c.val 9)]
  effect := fun c => look fun s => match (abortBox (c.val 0xA)).bind fun m => s.tagged m (c.val 9) with
    | some e => abortCmd e
    | none => .skip

/-- The command of a class and code: none for status 0x10. -/
def findSpec (cls code : Nat) : Option CmdSpec :=
  if cls = specAbort.cls ∧ code = specAbort.code then some specAbort else otherCommands.find? fun sp => sp.cls = cls && sp.code = code

/-! Taking requests (R138, R144, R147). -/

/-- A request that names no command, or whose frame is bad, is answered at its take. -/
def refuseTake (m : MbId) (cls code : Nat) (r : Req) (status : Nat) : Prog := block [
  dropBell m, setMbState m 2, dev fun d => { d with takes := d.takes + 1 },
  respond m cls code r (respVersion r status) status (r.node.toNat % 0x10000) []]

/-- Does a request's frame break R144's first check? -/
def badFrame (r : Req) : Bool := 1008 < r.length.toNat || r.length.toNat % 4 ≠ 0 || r.rsv ≠ 0 || (parseTlvs 252 r.body).isNone

/-- A request that bytes spell is taken; two-wire says that it came through the two-wire buffer, which its LENGTH has to fill (R491). -/
def takeBytes (m : MbId) (bs : List Byte) : Prog :=
  match readReq bs with
  | (cls, code, r) =>
    if m = .twoWire ∧ bs.length ≠ 16 + r.length.toNat then refuseTake m cls code r 0x14
    else match findSpec cls code with
      | some sp => sp.take m r
      | none => refuseTake m cls code r (if badFrame r then 0x14 else 0x10)

/-- MAILBOX_TAKE (R138, R147): the request whose doorbell came first. -/
def execMailboxTake (s : State) : Host.Outcome State Fault Refusal :=
  .next (run (look fun s => match s.dev.doorbells with
    | m :: _ => when s.fwReady (takeBytes m (s.mbBytes m))
    | [] => .skip) s)

/-- A command whose mailbox a Function Level Reset took away: it runs, and what it answers is not written (R177). -/
def muted (m : MbId) (p : Prog) : Prog := look fun s =>
  let b := m.base
  block [p,
    match m with
    | .pf0 _ | .pf1 _ => block [
        setBytes (b + 0x400) (s.bytes (b + 0x400) 0x400),
        forEach [Mbx.state b, Mbx.respReady b, Mbx.lastStatus b, Mbx.flagCount b 0] fun f => set f (s.get f)]
    | _ => .skip]

/-- ORDERED_COMMAND_RELEASE (R148): the checks of a held command are made again as it goes on. -/
def execOrderedCommandRelease (s : State) : Host.Outcome State Fault Refusal :=
  .next (run (look fun s => when s.fwReady (
    match s.dev.journal.find? fun e => e.phase = .held && s.worldIdle (s.mbS e.mb) e.seq with
    | none => .skip
    | some e => match findSpec e.cls e.code, e.ctx s with
      | some sp, some c => block [dropCmd e.seq, look fun s =>
          let v := sp.verdict c s
          if v.1 ≠ 0 then answer e v.1 v.2
          else if e.answered then
            let c' := { c with req := { c.req with flags := c.req.flags ||| 1 } }
            muted e.mb (sp.begin c')
          else sp.begin c]
      | _, _ => block [dropCmd e.seq, answer e 0x13 []])) s)

/-- ABORT. -/
def execAbort (m : MbId) (r : Req) (s : State) : Host.Outcome State Fault Refusal := runCommand specAbort m r s

/-! FW_READY (R175, R551 to R553). -/

/-- The first FW_READY after a boot: LATENCY is that of the reset configuration (R49), the world map is locked, and what was logged before the reset is reported (R87, R527, R549). -/
def firstReady : Prog := look fun s => block [
  forEach (List.range 64) updateLatency,
  raise 0xF 1 1 ([BitVec.ofNat 8 (s.get Wld.owned), BitVec.ofNat 8 (s.get Wld.default)] ++ leBytes 4 (s.get (Wld.policyDigest 0))
    ++ leBytes 4 (s.get (Wld.policyDigest 1))),
  forEach s.dev.boot.logged fun x => (match x with
    | 0xFF :: old => forEach [false, true] fun w => raiseIn w 0x11 1 1 ([0] ++ old.take 1 ++ [2])
    | _ => raise 3 6 1 x),
  setBoot fun b => { b with logged := [] }]

/-- A journalled command that a restart leaves as it is: armed changes, a stream that is ending, an N-world reset, the firmware swap itself
while it ends with this restart, and, around a swap, what members carry. -/
def staysOver (swapping : Bool) (e : Cmd) : Bool :=
  match e.phase with
  | .armed _ _ => true
  | .probe => swapping
  | .remote => swapping
  | .held => false
  | .pending => (e.cls = 0xB && (e.code = 3 || e.code = 4)) || (e.cls = 0xF && e.code = 3) || (swapping && e.cls = 0x10 && e.code = 1)

/-- Resolving a journalled command (R150): its effects are undone and it reports 0x33, in its mailbox where it has no response yet, else by
its event. -/
def resolve (e : Cmd) : Prog := look fun s =>
  let forget := dev fun d => { d with ctlWaits := d.ctlWaits.filter fun w => w.use ≠ .command e.seq && w.use ≠ .completion e.seq }
  match e.phase with
  | .pending => block [forget, match e.ctx s, e.spec with | some c, some sp => sp.undo c | _, _ => .skip, dropCmd e.seq, raiseCompleted e 0x33]
  | .remote => block [forget, dropCmd e.seq, if e.answered then raiseCompleted e 0x33 else answer e 0x33 []]
  | _ => block [forget, dropCmd e.seq, answer e 0x33 []]

/-- The firmware that starts after a restart resolves the journal; a swap or its revert ends. -/
def restartReady : Prog := look fun s =>
  let swap := s.dev.boot.swapStep
  let revert := s.dev.boot.swapCause ≠ 0
  let todo := s.dev.journal.filter fun e => !staysOver (swap || revert) e
  let gap := set Live.lastGapUs (satNat (s.now / 1000 - s.dev.boot.downAt) 0xFFFFFFFF)
  let restarted := fun (cause : Nat) => raise 1 4 1 (leBytes 1 cause ++ leBytes 1 (s.get Live.runSlot)
    ++ leBytes 4 (todo.length + boolNat (swap || revert)))
  block [
    setBoot fun b => { b with restarting := false, swapStep := false, swapCause := 0 },
    drainEvents false, drainEvents true,
    forEach todo resolve,
    if swap then block [gap, set Live.swapping 0, setFlag Live.fwSwapped, restarted 1, finish 0x10 1 1 (fun _ => .skip) 0]
    else if revert then block [gap,
      raise 0x10 1 1 [BitVec.ofNat 8 (1 - s.get Live.runSlot), BitVec.ofNat 8 (s.dev.boot.swapCause - 1)],
      finish 0x10 1 1 (fun _ => .skip) 0x33, restarted 0]
    else restarted 0]

end Sys2Proof.Machine
end

