-- ==== Sys2Proof/Machine/Remote.lean ====
section
/-! DEFINITION. Control requests and responses of the cascade, what members answer to the commands of a group, and firmware that becomes ready
(R42, R61, R175, R470, R475). -/

namespace Sys2Proof.Machine
open Reg

/-! What members answer. -/

/-- The status of a response. -/
def rspStatus (bs : List Byte) : Nat := leAt bs 10 1

/-- The result TLVs of a response. -/
def rspTlvs (bs : List Byte) : List Tlv := (parseTlvs 252 (slice bs 16 (leAt bs 8 2))).getD []

/-- The answers kept for a journalled command: each a member's index and its response. -/
def Cmd.answers (e : Cmd) : List (Nat × List Byte) := e.parts.map fun p => (leAt p 0 1, p.drop 1)

/-- The answers that are neither OK nor "accepted". -/
def Cmd.refusals (e : Cmd) : List (Nat × List Byte) := e.answers.filter fun x => rspStatus x.2 ≠ 0 && rspStatus x.2 ≠ 1

/-- A configuration command in force on a member's nodes, which its shadow keeps: no staged table, no DRY_RUN (R475). -/
def shadows (sp : CmdSpec) (e : Cmd) : Bool :=
  sp.changes && 4 ≤ e.cls && e.cls ≤ 0xA && (e.find 0xF001).isNone && !bit e.req.flags.toNat 2

/-- A command succeeded on a member. -/
def noteShadow (sp : CmdSpec) (e : Cmd) (member node : Nat) : Prog := when (shadows sp e)
  (dev fun d => { d with shadow := d.shadow ++ [(member, reqBytes e.cls e.code { e.req with node := BitVec.ofNat 32 node })] })

/-- A wait for an answer is over; where the member has only accepted the command, its completion event is waited for. -/
def endWait (w : CtlWait) (take : Nat) (accepted : Bool) : Prog := dev fun d =>
  { d with ctlWaits := if accepted then d.ctlWaits.map fun x => if x = w then { x with use := .completion take } else x else d.ctlWaits.erase w }

/-- The response of a command to a remote node reaches its mailbox as it is (R470). A command armed there stays pending until its index. -/
def relay (sp : CmdSpec) (e : Cmd) (member : Nat) (bs : List Byte) : Prog := look fun s =>
  let st := rspStatus bs
  let put := when (!e.answered) (putResponse e.mb (bit e.req.flags.toNat 0) st bs)
  let arms := match e.ctx s with | some c => if e.cls = 7 ∨ e.cls = 8 then none else sp.arms c s | none => none
  block [
    when (decide (st < 2)) (noteShadow sp e member e.req.node.toNat),
    if st = 1 then block [setJournal fun j => j.map fun x => if x.seq = e.seq then { x with answered := true, waits := 0 } else x, put]
    else match (if st = 0 ∧ !bit e.req.flags.toNat 2 then arms else none) with
      | some (i, n) => block [setJournal fun j => j.map fun x => if x.seq = e.seq then { x with phase := .armed i n, answered := true, waits := 0 } else x, put]
      | none => block [dropCmd e.seq, put]]

/-- The order in which members take a group's command: enumeration order, or its reverse on the way to Standby (R62). -/
def memberOrder (c : Ctx) (ds : List Nat) : List Nat := if c.cls = 3 ∧ c.code = 2 ∧ c.val 1 = mStandby then ds.reverse else ds

/-- A refusal by a member: its status, and for a mode change the member's NID (R61). -/
def refused (e : Cmd) (x : Nat × List Byte) : Prog := block [dropCmd e.seq,
  answer e (rspStatus x.2) (rspTlvs x.2 ++ if e.cls = 3 then [tlv 0x10 2 (0x1000 * x.1 + 1)] else [])]

/-- Every member has checked a group's command: it is carried out by all, or by none (R61). -/
def probed (sp : CmdSpec) (c : Ctx) (e : Cmd) : Prog := look fun s =>
  let ds := memberOrder c (e.answers.map Prod.fst)
  match e.refusals.head? with
  | some x => refused e x
  | none =>
    if bit c.req.flags.toNat 2 then block [dropCmd e.seq, if s.selfIn c.tgt then sp.dryRun c else answer e 0 []]
    else match (if s.selfIn c.tgt then sp.late c s else none) with
      | some (st, ts) => block [dropCmd e.seq, answer e st ts]
      | none => block [
          setJournal fun j => j.map fun x => if x.seq = e.seq then { x with phase := .remote, waits := ds.length, parts := [] } else x,
          sendAll c ds (c.req.flags.toNat % 2) (s.mbS c.mb)]

/-- Every member has answered a group's command. One that changes is then carried out here; one that reads gathers its results. -/
def gatheredAll (sp : CmdSpec) (c : Ctx) (e : Cmd) : Prog := look fun s =>
  let local_ := s.selfIn c.tgt
  match e.refusals.head? with
  | some x => refused e x
  | none =>
    if sp.changes then
      block [forEach e.answers fun x => noteShadow sp e x.1 (0x1000 * x.1 + 1),
        if local_ && !e.answered then block [dropCmd e.seq, sp.execute c]
        else if local_ then block [dropCmd e.seq, muted e.mb (sp.execute { c with req := { c.req with flags := c.req.flags ||| 1 } })]
        else if e.answers.any fun x => rspStatus x.2 = 1 then
          block [setJournal fun j => j.map fun x => if x.seq = e.seq then { x with answered := true } else x, answer e 1 []]
        else block [dropCmd e.seq, answer e 0 []]]
    else
      let others := e.answers.map fun x => (x.1, rspTlvs x.2)
      let all := if local_ then sp.gather c (sp.results c s) others
        else match others with | x :: xs => sp.gather c x.2 xs | [] => []
      let out := deliver c all
      match (if local_ then sp.late c s else none).orElse fun _ => resultFull c (tlvBytes all).length with
      | some (st, ts) => block [dropCmd e.seq, answer e st ts]
      | none => block [dropCmd e.seq, when local_ (sp.effect c), out.1, answer e 0 out.2]

/-- A member's answer to a command that it was sent. -/
def answerFrom (w : CtlWait) (take : Nat) (bs : List Byte) : Prog := look fun s =>
  match s.dev.journal.find? fun e => e.seq = take with
  | none => endWait w take false
  | some e => match findSpec e.cls e.code, e.ctx s with
    | some sp, some c =>
      block [endWait w take (e.phase = .remote && rspStatus bs = 1),
        if c.tgt.kind = .group ∧ sp.fanout then
          let e' := { e with waits := e.waits - 1, parts := e.parts ++ [leBytes 1 w.member ++ bs] }
          block [setJournal fun j => j.map fun x => if x.seq = take then e' else x,
            when (e'.waits = 0) (if e.phase = .probe then probed sp c e' else gatheredAll sp c e')]
        else relay sp e w.member bs]
    | _, _ => block [endWait w take false, dropCmd take, answer e (rspStatus bs) []]

/-- What a control response or its absence means to what waited for it. -/
def ctlAnswer (w : CtlWait) (bs : List Byte) : Prog :=
  let done := dev fun d => { d with ctlWaits := d.ctlWaits.erase w }
  match w.use with
  | .command take => answerFrom w take bs
  | .completion _ => .skip
  | .read id off => block [done, fillRead id off (if leAt bs 0 4 = 0 then slice bs 4 (bs.length - 4) else zeros (bs.length - 4))]
  | .write fn _ a => block [done, when (leAt bs 0 4 ≠ 0) (postedFault fn .bar2 (some a) 0 (leAt bs 0 4 % 8) 4)]
  | .note => done

/-- A response with its tag and member: firmware that is not ready reads it later. -/
def ctlResponse (tag member : Nat) (bs : List Byte) : Prog := look fun s =>
  match s.dev.ctlWaits.find? fun w => w.tag = tag && w.member = member with
  | none => .skip
  | some w => match w.use with
    | .command _ => if s.fwReady then ctlAnswer w bs else dev fun d => { d with lateAnswers := d.lateAnswers ++ [(tag, member, bs)] }
    | _ => ctlAnswer w bs

/-- CTRL_RSP_RECEIVE (R470). -/
def execCtrlRspReceive (q : Fin 4) (seq : BitVec 32) (crcOk : Bool) (p : PacketIn) (s : State) : Host.Outcome State Fault Refusal :=
  .next (run (receive q.val seq.toNat crcOk 4 p fun k => ctlResponse k.aux k.src k.payload) s)

/-- The bytes of the word of a read at an offset. -/
def State.wordLeft (s : State) (id off : Nat) : Nat :=
  match s.dev.remoteReads.find? fun r => r.id = id with | some r => min 4 (r.data.length - off) | none => 0

/-- REMOTE_COMMAND_TIMEOUT (R470): no answer within 20 µs a hop. A command gets 0x34, a read zeros, a write a fault of cause 1; a command that
waits for firmware waits on. -/
def execRemoteCommandTimeout (tag : BitVec 32) (s : State) : Host.Outcome State Fault Refusal :=
  .next (run (look fun s => match s.dev.ctlWaits.find? fun w => w.tag = tag.toNat with
    | none => .skip
    | some w => match w.use with
      | .command take => when s.fwReady (match s.dev.journal.find? fun e => e.seq = take with
          | none => ctlAnswer w []
          | some e =>
            let nid := match e.ctx s with | some c => if c.tgt.kind = .group then 0x1000 * w.member + 1 else c.tgt.nid | none => 0
            ctlAnswer w (respBytes e.cls e.code e.req 1 0x34 nid []))
      | .read id off => ctlAnswer w (leBytes 4 1 ++ zeros (s.wordLeft id off))
      | _ => ctlAnswer w (leBytes 4 1)) s)
/-! Control requests at a member. -/

/-- An answer goes up the link that the request came down, and is kept in case the request is repeated. -/
def ctlReply (auth : Bool) (tag : Nat) (bs : List Byte) : Prog := look fun s => block [
  dev fun d => { d with answered := (tag, bs) :: d.answered },
  match s.upstream with
  | some q => sendPacket q ⟨4, 2, boolNat auth, s.dev.ownIndex, 0, tag, bs⟩
  | none => .skip]

/-- The check of an access that arrived through this device's window (R42): its own map and power, no windows of its own. -/
def State.windowCheck (s : State) (auth : Bool) (a : Nat) (write : Bool) : Nat :=
  if 0x800000000 ≤ a ∨ !s.mapped a then 1
  else if !auth && s.addrS a then 2
  else if write && !s.writable a then 5
  else if (s.offNode a).isSome ∨ s.bankOff a then 4
  else 0

/-- A read of up to four bytes: status word, then the bytes. -/
def ctlRead (auth : Bool) (tag a n : Nat) : Prog := look fun s =>
  let c := s.windowCheck auth a false
  if c = 0 then block [ctlReply auth tag (leBytes 4 0 ++ s.readHost (boolNat auth) a n), readRange a n]
  else block [when (c = 4) (unpowered a), ctlReply auth tag (leBytes 4 c ++ zeros n)]
where
  unpowered (a : Nat) : Prog := look fun s => match s.offNode a with | some n => raiseUnpowered n a | none => .skip

/-- A word's value and mask as byte lanes. -/
def lanes (v m : Nat) : List (Option Byte) :=
  (List.range 4).map fun i => if m / 256 ^ i % 256 = 0 then none else some (BitVec.ofNat 8 (v / 256 ^ i))

/-- A write of a word under its byte mask. -/
def ctlWrite (auth : Bool) (tag a v m : Nat) : Prog := look fun s =>
  let c := s.windowCheck auth a true
  if c = 0 then block [wordWrite (boolNat auth) a (lanes v m),
    when (isMemory a && (lanes v m).all Option.isSome) (eccMend a 4), ctlReply auth tag (leBytes 4 0)]
  else block [when (c = 4) (ctlRead.unpowered a), ctlReply auth tag (leBytes 4 c)]

/-- What the root's firmware tells a member (log entry 8). -/
def told (op : Nat) (b : List Byte) : Prog := look fun s =>
  match op with
  | 3 => satAdmit (satContract b) ((chunks 8 32 (b.drop 12)).map fun x => (leAt x 0 4, leAt x 4 4))
  | 4 => when (s.admitted (leAt b 0 4 % 16)) (releaseStream (leAt b 0 4 % 16) closedByCommand)
  | 5 => (match s.upstream with | some q => setQuad q fun t => { t with joined := true } | none => .skip)
  | 6 => dev fun d => { d with ownIndex := leAt b 0 2 % 16, ownDepth := leAt b 2 2, answered := [] }
  | 7 =>
    let f : Found := ⟨none, ⟨leAt b 1 1 % 4, Nat.mod_lt _ (by decide)⟩, slice b 8 16, leAt b 3 1 % 2 = 1, leAt b 4 1, leAt b 5 1⟩
    block [placeMember (leAt b 0 1 % 16) s.dev.ownIndex (leAt b 2 1) f, set (Quad.peer f.quad.val) (leAt b 0 1 % 16)]
  | 8 => (match s.dev.journal.find? fun e => e.mb.code = 0x7E && e.req.tag.toNat = leAt b 0 4 with | some e => abortCmd e | none => .skip)
  | _ => .skip

/-- A control request that is for this device: a command for its firmware, an access to its window, or something it is told. -/
def ctlRequest (auth : Bool) (tag : Nat) (b : List Byte) : Prog := look fun s =>
  let op := leAt b 0 4
  let body := b.drop 4
  match s.dev.answered.find? fun a => a.1 = tag with
  | some a => ctlReply auth tag a.2
  | none =>
    if op < 3 then when s.fwReady (
      if op = 0 then takeBytes (.cascade auth (BitVec.ofNat 32 tag)) body
      else if op = 1 then ctlRead auth tag (leAt body 0 8) (min 4 (leAt body 8 4))
      else ctlWrite auth tag (leAt body 0 8) (leAt body 8 4) (leAt body 12 4))
    else block [told op body, ctlReply auth tag (leBytes 4 0)]

/-- CTRL_REQ_RECEIVE (R470). -/
def execCtrlReqReceive (q : Fin 4) (seq : BitVec 32) (crcOk : Bool) (p : PacketIn) (s : State) : Host.Outcome State Fault Refusal :=
  .next (run (receive q.val seq.toNat crcOk 5 p fun k => look fun s =>
    when (s.on (Quad.upstream q.val)) (ctlRequest (bit k.flags 0) k.aux k.payload)) s)

/-! Firmware ready. -/

/-- The answers that came while firmware was not ready. -/
def readLate : Prog := look fun s => block [dev fun d => { d with lateAnswers := [] },
  forEach s.dev.lateAnswers fun x => ctlResponse x.1 x.2.1 x.2.2]

/-- FIRMWARE_READY (R175, R180, R527, R551 to R553): firmware, in step 7, has started; it sets FW_READY last. -/
def execFirmwareReady (s : State) : Host.Outcome State Fault Refusal :=
  .next (run (look fun s =>
    let again := s.dev.boot.restarting
    when (s.get BootReg.step = 7 && s.mode ≠ mBoot && s.mode ≠ mStandby && !s.on BootReg.failed && s.get Therm.state ≠ 4 && !s.on Dbg.halted
        && (again || !s.fwReady)) (block [
      noteElapsed, set BootReg.step 8, if again then restartReady else firstReady, setFwReady true, readLate])) s)

end Sys2Proof.Machine
end

