-- ==== Sys2Proof/Machine/Dispatch.lean ====
section
/-! DEFINITION. One arm per command: its meaning, or its rejection by name. -/

namespace Sys2Proof.Machine

def exec (instr : Instr) (s : State) : Host.Outcome State Fault Refusal :=
  match instr with
  | .inboundPostedWrite fn bar off data => Sys2Proof.Machine.execInboundPostedWrite fn bar off data s
  | .inboundRead fn bar off len => Sys2Proof.Machine.execInboundRead fn bar off len s
  | .atomicOp fn bar off op wide operand compare => Sys2Proof.Machine.execAtomicOp fn bar off op wide operand compare s
  | .w1cFlagClear at_ value => Sys2Proof.Machine.execW1cFlagClear at_ value s
  | .sramWinBaseWrite fn value => Sys2Proof.Machine.execSramWinBaseWrite fn value s
  | .msixVectorUnmask fn vec => Sys2Proof.Machine.execMsixVectorUnmask fn vec s
  | .ucieModuleTrained m hostRate lowLat repairs roundTrip => Sys2Proof.Machine.execUcieModuleTrained m hostRate lowLat repairs roundTrip s
  | .ucieTrainingRetry m => Sys2Proof.Machine.execUcieTrainingRetry m s
  | .ucieModuleDown m ltsm => Sys2Proof.Machine.execUcieModuleDown m ltsm s
  | .ucieLinkReplay rec => Sys2Proof.Machine.execUcieLinkReplay rec s
  | .functionLevelReset fn => Sys2Proof.Machine.execFunctionLevelReset fn s
  | .flrDone fn => Sys2Proof.Machine.execFlrDone fn s
  | .hostCreditReturn bytes => Sys2Proof.Machine.execHostCreditReturn bytes s
  | .outboundReadCompletion tag ok data => Sys2Proof.Machine.execOutboundReadCompletion tag ok data s
  | .doorbellRing m => Sys2Proof.Machine.execDoorbellRing m s
  | .responseConsume m => Sys2Proof.Machine.execResponseConsume m s
  | .mailboxTake => Sys2Proof.Machine.execMailboxTake s
  | .orderedCommandRelease => Sys2Proof.Machine.execOrderedCommandRelease s
  | .getIdentity m r => Sys2Proof.Machine.execGetIdentity m r s
  | .getVersions m r => Sys2Proof.Machine.execGetVersions m r s
  | .echo m r => Sys2Proof.Machine.execEcho m r s
  | .abort m r => Sys2Proof.Machine.execAbort m r s
  | .clearFlagCounters m r => Sys2Proof.Machine.execClearFlagCounters m r s
  | .getHeader m r => Sys2Proof.Machine.execGetHeader m r s
  | .listChildren m r => Sys2Proof.Machine.execListChildren m r s
  | .readCounters m r => Sys2Proof.Machine.execReadCounters m r s
  | .clearCounters m r => Sys2Proof.Machine.execClearCounters m r s
  | .nodeReset m r => Sys2Proof.Machine.execNodeReset m r s
  | .nodeResetBistDone nid pass => Sys2Proof.Machine.execNodeResetBistDone nid pass s
  | .dataPortAddrWrite fn n hi value => Sys2Proof.Machine.execDataPortAddrWrite fn n hi value s
  | .dataPortCtrlWrite fn n value => Sys2Proof.Machine.execDataPortCtrlWrite fn n value s
  | .dataPortNext fn n => Sys2Proof.Machine.execDataPortNext fn n s
  | .dataPortRefresh fn n => Sys2Proof.Machine.execDataPortRefresh fn n s
  | .dataPortFillDone fn n => Sys2Proof.Machine.execDataPortFillDone fn n s
  | .dataPortWindowWrite fn n off data => Sys2Proof.Machine.execDataPortWindowWrite fn n off data s
  | .statusPageRefresh => Sys2Proof.Machine.execStatusPageRefresh s
  | .powerOn => Sys2Proof.Machine.execPowerOn s
  | .nreset => Sys2Proof.Machine.execNreset s
  | .strapSample v => Sys2Proof.Machine.execStrapSample v s
  | .bootStepComplete o => Sys2Proof.Machine.execBootStepComplete o s
  | .bootGo => Sys2Proof.Machine.execBootGo s
  | .bootStepTimeout => Sys2Proof.Machine.execBootStepTimeout s
  | .firmwareReady => Sys2Proof.Machine.execFirmwareReady s
  | .watchdogExpiry => Sys2Proof.Machine.execWatchdogExpiry s
  | .watchdogEscalation => Sys2Proof.Machine.execWatchdogEscalation s
  | .setMode m r => Sys2Proof.Machine.execSetMode m r s
  | .modeTransitionDone => Sys2Proof.Machine.execModeTransitionDone s
  | .ucieSidebandActivity => Sys2Proof.Machine.execUcieSidebandActivity s
  | .cascadeLaneEnergy => Sys2Proof.Machine.execCascadeLaneEnergy s
  | .orderlyStopStreamClose i => Sys2Proof.Machine.execOrderlyStopStreamClose i s
  | .getMode m r => Sys2Proof.Machine.execGetMode m r s
  | .getNodeState m r => Sys2Proof.Machine.execGetNodeState m r s
  | .setNodeState m r => Sys2Proof.Machine.execSetNodeState m r s
  | .setWakePolicy m r => Sys2Proof.Machine.execSetWakePolicy m r s
  | .getDomains m r => Sys2Proof.Machine.execGetDomains m r s
  | .thermalRead m r => Sys2Proof.Machine.execThermalRead m r s
  | .thermalConfig m r => Sys2Proof.Machine.execThermalConfig m r s
  | .release m r => Sys2Proof.Machine.execRelease m r s
  | .retire m r => Sys2Proof.Machine.execRetire m r s
  | .pipelineWakeDone p => Sys2Proof.Machine.execPipelineWakeDone p s
  | .pipelineIdleTimeout p => Sys2Proof.Machine.execPipelineIdleTimeout p s
  | .pipelinePowerDownDone p => Sys2Proof.Machine.execPipelinePowerDownDone p s
  | .clusterIdleTimeout c => Sys2Proof.Machine.execClusterIdleTimeout c s
  | .sensorSample readings grid => Sys2Proof.Machine.execSensorSample readings grid s
  | .throttleStepTimer => Sys2Proof.Machine.execThrottleStepTimer s
  | .throttleUndoTimer => Sys2Proof.Machine.execThrottleUndoTimer s
  | .throttleStepApply i => Sys2Proof.Machine.execThrottleStepApply i s
  | .supplyUndervoltage n => Sys2Proof.Machine.execSupplyUndervoltage n s
  | .refclkLoss => Sys2Proof.Machine.execRefclkLoss s
  | .portConfig m r => Sys2Proof.Machine.execPortConfig m r s
  | .portEnable m r => Sys2Proof.Machine.execPortEnable m r s
  | .steeringSet m r => Sys2Proof.Machine.execSteeringSet m r s
  | .framerSet m r => Sys2Proof.Machine.execFramerSet m r s
  | .portStatus m r => Sys2Proof.Machine.execPortStatus m r s
  | .framerStatus m r => Sys2Proof.Machine.execFramerStatus m r s
  | .clearPortCounters m r => Sys2Proof.Machine.execClearPortCounters m r s
  | .eqAdapt m r => Sys2Proof.Machine.execEqAdapt m r s
  | .eqAdaptDone n => Sys2Proof.Machine.execEqAdaptDone n s
  | .eyeScan m r => Sys2Proof.Machine.execEyeScan m r s
  | .eyeScanDone n counts => Sys2Proof.Machine.execEyeScanDone n counts s
  | .getEq m r => Sys2Proof.Machine.execGetEq m r s
  | .portLinkLocked n gear rtx rtt => Sys2Proof.Machine.execPortLinkLocked n gear rtx rtt s
  | .portStartupTimeout n => Sys2Proof.Machine.execPortStartupTimeout n s
  | .portLinkLoss n => Sys2Proof.Machine.execPortLinkLoss n s
  | .comboBurstTimeout k => Sys2Proof.Machine.execComboBurstTimeout k s
  | .aphyPacketReceive n damaged => Sys2Proof.Machine.execAphyPacketReceive n damaged s
  | .csi2LongPacket n h vc dt payload crcOk t => Sys2Proof.Machine.execCsi2LongPacket n h vc dt payload crcOk t s
  | .csi2ShortPacket n h vc dt t => Sys2Proof.Machine.execCsi2ShortPacket n h vc dt t s
  | .framerTakeLineHeader p => Sys2Proof.Machine.execFramerTakeLineHeader p s
  | .framerTakeLineData p count => Sys2Proof.Machine.execFramerTakeLineData p count s
  | .framerTakeLineEnd p => Sys2Proof.Machine.execFramerTakeLineEnd p s
  | .framerTakeFrameStart p => Sys2Proof.Machine.execFramerTakeFrameStart p s
  | .framerTakeFrameEnd p => Sys2Proof.Machine.execFramerTakeFrameEnd p s
  | .lineTimeoutExpiry p => Sys2Proof.Machine.execLineTimeoutExpiry p s
  | .frameTimeoutExpiry p => Sys2Proof.Machine.execFrameTimeoutExpiry p s
  | .timeSharedWaitExpiry p => Sys2Proof.Machine.execTimeSharedWaitExpiry p s
  | .queueStaleTimeout q valid => Sys2Proof.Machine.execQueueStaleTimeout q valid s
  | .encConfig m r => Sys2Proof.Machine.execEncConfig m r s
  | .encRead m r => Sys2Proof.Machine.execEncRead m r s
  | .encSet m r => Sys2Proof.Machine.execEncSet m r s
  | .triggerSet m r => Sys2Proof.Machine.execTriggerSet m r s
  | .triggerStatus m r => Sys2Proof.Machine.execTriggerStatus m r s
  | .linkLatency m r => Sys2Proof.Machine.execLinkLatency m r s
  | .linkLatencyDone c roundTrip => Sys2Proof.Machine.execLinkLatencyDone c roundTrip s
  | .timeRead m r => Sys2Proof.Machine.execTimeRead m r s
  | .timeSet m r => Sys2Proof.Machine.execTimeSet m r s
  | .timeAdjust m r => Sys2Proof.Machine.execTimeAdjust m r s
  | .ptpConfig m r => Sys2Proof.Machine.execPtpConfig m r s
  | .ptpStatus m r => Sys2Proof.Machine.execPtpStatus m r s
  | .pinConfig m r => Sys2Proof.Machine.execPinConfig m r s
  | .pulseSet m r => Sys2Proof.Machine.execPulseSet m r s
  | .captureRead m r => Sys2Proof.Machine.execCaptureRead m r s
  | .alarmSet m r => Sys2Proof.Machine.execAlarmSet m r s
  | .encoderCount e ab t => Sys2Proof.Machine.execEncoderCount e ab t s
  | .encoderIndexEdge e t => Sys2Proof.Machine.execEncoderIndexEdge e t s
  | .thresholdFire i => Sys2Proof.Machine.execThresholdFire i s
  | .timeSourceFire i => Sys2Proof.Machine.execTimeSourceFire i s
  | .headTriggerEmit i => Sys2Proof.Machine.execHeadTriggerEmit i s
  | .headWindowOpen i => Sys2Proof.Machine.execHeadWindowOpen i s
  | .headWindowClose i => Sys2Proof.Machine.execHeadWindowClose i s
  | .timeAlarm => Sys2Proof.Machine.execTimeAlarm s
  | .slewEnd => Sys2Proof.Machine.execSlewEnd s
  | .ppsOutRise => Sys2Proof.Machine.execPpsOutRise s
  | .ppsOutFall => Sys2Proof.Machine.execPpsOutFall s
  | .pulseStart u => Sys2Proof.Machine.execPulseStart u s
  | .pulseEnd u => Sys2Proof.Machine.execPulseEnd u s
  | .timingPinEdge i rising ns frac => Sys2Proof.Machine.execTimingPinEdge i rising ns frac s
  | .ppsInEdge ns frac => Sys2Proof.Machine.execPpsInEdge ns frac s
  | .ppsInTimeout => Sys2Proof.Machine.execPpsInTimeout s
  | .ptpFrameReceive frame fcsOk t => Sys2Proof.Machine.execPtpFrameReceive frame fcsOk t s
  | .ptpAnnounceTimeout => Sys2Proof.Machine.execPtpAnnounceTimeout s
  | .ptpMessageTransmit kind => Sys2Proof.Machine.execPtpMessageTransmit kind s
  | .linSet m r => Sys2Proof.Machine.execLinSet m r s
  | .blackSet m r => Sys2Proof.Machine.execBlackSet m r s
  | .defectSet m r => Sys2Proof.Machine.execDefectSet m r s
  | .flatSet m r => Sys2Proof.Machine.execFlatSet m r s
  | .gaugeLoad m r => Sys2Proof.Machine.execGaugeLoad m r s
  | .gaugeLoadDone p => Sys2Proof.Machine.execGaugeLoadDone p s
  | .gaugeSwap m r => Sys2Proof.Machine.execGaugeSwap m r s
  | .gaugeRead m r => Sys2Proof.Machine.execGaugeRead m r s
  | .gaugeReadDone p => Sys2Proof.Machine.execGaugeReadDone p s
  | .swatchStart m r => Sys2Proof.Machine.execSwatchStart m r s
  | .swatchAbort m r => Sys2Proof.Machine.execSwatchAbort m r s
  | .swatchRead m r => Sys2Proof.Machine.execSwatchRead m r s
  | .swatchReadDone c => Sys2Proof.Machine.execSwatchReadDone c s
  | .gaugeCompute m r => Sys2Proof.Machine.execGaugeCompute m r s
  | .gaugeComputeDone p => Sys2Proof.Machine.execGaugeComputeDone p s
  | .corrStatus m r => Sys2Proof.Machine.execCorrStatus m r s
  | .wbSet m r => Sys2Proof.Machine.execWbSet m r s
  | .demosaicSet m r => Sys2Proof.Machine.execDemosaicSet m r s
  | .alignSet m r => Sys2Proof.Machine.execAlignSet m r s
  | .matrixSet m r => Sys2Proof.Machine.execMatrixSet m r s
  | .statsSet m r => Sys2Proof.Machine.execStatsSet m r s
  | .statsRead m r => Sys2Proof.Machine.execStatsRead m r s
  | .statsReadDone p => Sys2Proof.Machine.execStatsReadDone p s
  | .colourStatus m r => Sys2Proof.Machine.execColourStatus m r s
  | .screenSet m r => Sys2Proof.Machine.execScreenSet m r s
  | .screenTune m r => Sys2Proof.Machine.execScreenTune m r s
  | .screenStreamSet m r => Sys2Proof.Machine.execScreenStreamSet m r s
  | .screenStatus m r => Sys2Proof.Machine.execScreenStatus m r s
  | .historyReset m r => Sys2Proof.Machine.execHistoryReset m r s
  | .assemblySet m r => Sys2Proof.Machine.execAssemblySet m r s
  | .geometrySet m r => Sys2Proof.Machine.execGeometrySet m r s
  | .geometrySetDone i => Sys2Proof.Machine.execGeometrySetDone i s
  | .matchSet m r => Sys2Proof.Machine.execMatchSet m r s
  | .assemblyStatus m r => Sys2Proof.Machine.execAssemblyStatus m r s
  | .slotComplete p => Sys2Proof.Machine.execSlotComplete p s
  | .rowDeadline i => Sys2Proof.Machine.execRowDeadline i s
  | .rowClosePhase i => Sys2Proof.Machine.execRowClosePhase i s
  | .satellitePartClose i => Sys2Proof.Machine.execSatellitePartClose i s
  | .segmentCodeDone i k => Sys2Proof.Machine.execSegmentCodeDone i k s
  | .codingSet m r => Sys2Proof.Machine.execCodingSet m r s
  | .effortSet m r => Sys2Proof.Machine.execEffortSet m r s
  | .codingStatus m r => Sys2Proof.Machine.execCodingStatus m r s
  | .jobAbort m r => Sys2Proof.Machine.execJobAbort m r s
  | .jobStatus m r => Sys2Proof.Machine.execJobStatus m r s
  | .jobDescriptorTake j => Sys2Proof.Machine.execJobDescriptorTake j s
  | .jobRowDone j => Sys2Proof.Machine.execJobRowDone j s
  | .jobEnd j => Sys2Proof.Machine.execJobEnd j s
  | .streamAdmit m r => Sys2Proof.Machine.execStreamAdmit m r s
  | .streamAdmitDone => Sys2Proof.Machine.execStreamAdmitDone s
  | .streamStart m r => Sys2Proof.Machine.execStreamStart m r s
  | .streamStop m r => Sys2Proof.Machine.execStreamStop m r s
  | .streamStopped i => Sys2Proof.Machine.execStreamStopped i s
  | .streamClose m r => Sys2Proof.Machine.execStreamClose m r s
  | .streamClosed i => Sys2Proof.Machine.execStreamClosed i s
  | .streamStatus m r => Sys2Proof.Machine.execStreamStatus m r s
  | .ringSet m r => Sys2Proof.Machine.execRingSet m r s
  | .carouselRead m r => Sys2Proof.Machine.execCarouselRead m r s
  | .queueStatus m r => Sys2Proof.Machine.execQueueStatus m r s
  | .carouselSlotStart t => Sys2Proof.Machine.execCarouselSlotStart t s
  | .carouselRotationBoundary => Sys2Proof.Machine.execCarouselRotationBoundary s
  | .hostIndexWrite fn ring v => Sys2Proof.Machine.execHostIndexWrite fn ring v s
  | .egressRecordDepart i => Sys2Proof.Machine.execEgressRecordDepart i s
  | .devIndexUpdate ring => Sys2Proof.Machine.execDevIndexUpdate ring s
  | .ringHoldoffExpiry ring => Sys2Proof.Machine.execRingHoldoffExpiry ring s
  | .recordDelivered i cause component => Sys2Proof.Machine.execRecordDelivered i cause component s
  | .boundExpiry i seq cause component => Sys2Proof.Machine.execBoundExpiry i seq cause component s
  | .cascadeLaneLock q l => Sys2Proof.Machine.execCascadeLaneLock q l s
  | .cascadeLaneLockLoss q l => Sys2Proof.Machine.execCascadeLaneLockLoss q l s
  | .cascadeInitTimer q => Sys2Proof.Machine.execCascadeInitTimer q s
  | .cascadeInitReceive q info => Sys2Proof.Machine.execCascadeInitReceive q info s
  | .cascadeTrainTimeout q => Sys2Proof.Machine.execCascadeTrainTimeout q s
  | .cascadeLinkUp q u => Sys2Proof.Machine.execCascadeLinkUp q u s
  | .satelliteJoinIndex d differ tablesLost => Sys2Proof.Machine.execSatelliteJoinIndex d differ tablesLost s
  | .rowPartReceive q seq crcOk p => Sys2Proof.Machine.execRowPartReceive q seq crcOk p s
  | .sidePacketReceive q seq crcOk p => Sys2Proof.Machine.execSidePacketReceive q seq crcOk p s
  | .eventPacketReceive q seq crcOk p => Sys2Proof.Machine.execEventPacketReceive q seq crcOk p s
  | .ctrlReqReceive q seq crcOk p => Sys2Proof.Machine.execCtrlReqReceive q seq crcOk p s
  | .ctrlRspReceive q seq crcOk p => Sys2Proof.Machine.execCtrlRspReceive q seq crcOk p s
  | .imageReqReceive q seq crcOk p => Sys2Proof.Machine.execImageReqReceive q seq crcOk p s
  | .imagePacketReceive q seq crcOk p => Sys2Proof.Machine.execImagePacketReceive q seq crcOk p s
  | .timeInfoReceive q seq crcOk p => Sys2Proof.Machine.execTimeInfoReceive q seq crcOk p s
  | .cascadeTimeExchange q t1 => Sys2Proof.Machine.execCascadeTimeExchange q t1 s
  | .cascadeTimeBlockReceive q up number t sent => Sys2Proof.Machine.execCascadeTimeBlockReceive q up number t sent s
  | .cascadeAck q seq => Sys2Proof.Machine.execCascadeAck q seq s
  | .cascadeNak q seq => Sys2Proof.Machine.execCascadeNak q seq s
  | .cascadeTack q tseq => Sys2Proof.Machine.execCascadeTack q tseq s
  | .cascadeTnak q tseq => Sys2Proof.Machine.execCascadeTnak q tseq s
  | .cascadeCredit q cls value => Sys2Proof.Machine.execCascadeCredit q cls value s
  | .cascadeEcho q n => Sys2Proof.Machine.execCascadeEcho q n s
  | .cascadeEchoReply q n rtt => Sys2Proof.Machine.execCascadeEchoReply q n rtt s
  | .cascadeRestart q epoch => Sys2Proof.Machine.execCascadeRestart q epoch s
  | .cascadeRestartAck q => Sys2Proof.Machine.execCascadeRestartAck q s
  | .cascadeReplayTimeout q => Sys2Proof.Machine.execCascadeReplayTimeout q s
  | .cascadeRestartTimeout q => Sys2Proof.Machine.execCascadeRestartTimeout q s
  | .cascadeTrigReceive q t ok => Sys2Proof.Machine.execCascadeTrigReceive q t ok s
  | .cascadeTrigRetryTimeout q => Sys2Proof.Machine.execCascadeTrigRetryTimeout q s
  | .remoteCommandTimeout tag => Sys2Proof.Machine.execRemoteCommandTimeout tag s
  | .cascadeConfig m r => Sys2Proof.Machine.execCascadeConfig m r s
  | .cascadeStatus m r => Sys2Proof.Machine.execCascadeStatus m r s
  | .topology m r => Sys2Proof.Machine.execTopology m r s
  | .linkRestart m r => Sys2Proof.Machine.execLinkRestart m r s
  | .prbsTest m r => Sys2Proof.Machine.execPrbsTest m r s
  | .prbsTestDone q r => Sys2Proof.Machine.execPrbsTestDone q r s
  | .prbsRead m r => Sys2Proof.Machine.execPrbsRead m r s
  | .twMailboxStartWord n => Sys2Proof.Machine.execTwMailboxStartWord n s
  | .twMailboxDataWord w => Sys2Proof.Machine.execTwMailboxDataWord w s
  | .twWakeWord => Sys2Proof.Machine.execTwWakeWord s
  | .twIdentityWrite => Sys2Proof.Machine.execTwIdentityWrite s
  | .twResponseConsume => Sys2Proof.Machine.execTwResponseConsume s
  | .twMbAbort => Sys2Proof.Machine.execTwMbAbort s
  | .twOutptrWrite v => Sys2Proof.Machine.execTwOutptrWrite v s
  | .twShortWrite => Sys2Proof.Machine.execTwShortWrite s
  | .twProtocolError => Sys2Proof.Machine.execTwProtocolError s
  | .twRequestTimeout => Sys2Proof.Machine.execTwRequestTimeout s
  | .twAlertSend o => Sys2Proof.Machine.execTwAlertSend o s
  | .twAlertRetry o => Sys2Proof.Machine.execTwAlertRetry o s
  | .twTargetSet m r => Sys2Proof.Machine.execTwTargetSet m r s
  | .twTargetStatus m r => Sys2Proof.Machine.execTwTargetStatus m r s
  | .twConfig m r => Sys2Proof.Machine.execTwConfig m r s
  | .twXfer m r => Sys2Proof.Machine.execTwXfer m r s
  | .twTransferDone x data => Sys2Proof.Machine.execTwTransferDone x data s
  | .twNack x addr seg byte data => Sys2Proof.Machine.execTwNack x addr seg byte data s
  | .twArbitrationLost x byte bitNo => Sys2Proof.Machine.execTwArbitrationLost x byte bitNo s
  | .twArbRetry x => Sys2Proof.Machine.execTwArbRetry x s
  | .twBusStuck x sda pulses => Sys2Proof.Machine.execTwBusStuck x sda pulses s
  | .twTunnelReport n r => Sys2Proof.Machine.execTwTunnelReport n r s
  | .twStatus m r => Sys2Proof.Machine.execTwStatus m r s
  | .eccWriteback a => Sys2Proof.Machine.execEccWriteback a s
  | .patrolRead a pass => Sys2Proof.Machine.execPatrolRead a pass s
  | .lockstepMismatch cclk => Sys2Proof.Machine.execLockstepMismatch cclk s
  | .headerWordRepair a => Sys2Proof.Machine.execHeaderWordRepair a s
  | .faultStatus m r => Sys2Proof.Machine.execFaultStatus m r s
  | .crcCompute m r => Sys2Proof.Machine.execCrcCompute m r s
  | .crcComputeDone => Sys2Proof.Machine.execCrcComputeDone s
  | .errInject m r => Sys2Proof.Machine.execErrInject m r s
  | .worldStatus m r => Sys2Proof.Machine.execWorldStatus m r s
  | .worldQuery m r => Sys2Proof.Machine.execWorldQuery m r s
  | .nworldReset m r => Sys2Proof.Machine.execNworldReset m r s
  | .nworldResetDone => Sys2Proof.Machine.execNworldResetDone s
  | .attestCert m r => Sys2Proof.Machine.execAttestCert m r s
  | .attestCertDone => Sys2Proof.Machine.execAttestCertDone s
  | .attestReport m r => Sys2Proof.Machine.execAttestReport m r s
  | .keyLoad m r => Sys2Proof.Machine.execKeyLoad m r s
  | .keyClear m r => Sys2Proof.Machine.execKeyClear m r s
  | .streamTagSet m r => Sys2Proof.Machine.execStreamTagSet m r s
  | .rollbackAdvance m r => Sys2Proof.Machine.execRollbackAdvance m r s
  | .rollbackAdvanceDone => Sys2Proof.Machine.execRollbackAdvanceDone s
  | .debugStatus m r => Sys2Proof.Machine.execDebugStatus m r s
  | .debugChallenge m r => Sys2Proof.Machine.execDebugChallenge m r s
  | .debugUnlock m r => Sys2Proof.Machine.execDebugUnlock m r s
  | .debugLock m r => Sys2Proof.Machine.execDebugLock m r s
  | .dbgAccess m r => Sys2Proof.Machine.execDbgAccess m r s
  | .bistRun m r => Sys2Proof.Machine.execBistRun m r s
  | .bistRunDone nid pass macroNo => Sys2Proof.Machine.execBistRunDone nid pass macroNo s
  | .tapUnlockReq state => Sys2Proof.Machine.execTapUnlockReq state s
  | .tapUnlockResp sig => Sys2Proof.Machine.execTapUnlockResp sig s
  | .tapDapAccess write a v => Sys2Proof.Machine.execTapDapAccess write a v s
  | .tapExtest captured shifted => Sys2Proof.Machine.execTapExtest captured shifted s
  | .tapSamplePreload captured shifted => Sys2Proof.Machine.execTapSamplePreload captured shifted s
  | .tapClamp => Sys2Proof.Machine.execTapClamp s
  | .tapHighz => Sys2Proof.Machine.execTapHighz s
  | .unlockVerifyDone => Sys2Proof.Machine.execUnlockVerifyDone s
  | .challengeLapse => Sys2Proof.Machine.execChallengeLapse s
  | .lockoutEnd => Sys2Proof.Machine.execLockoutEnd s
  | .coreHaltReq => Sys2Proof.Machine.execCoreHaltReq s
  | .coreResume => Sys2Proof.Machine.execCoreResume s
  | .coreStep => Sys2Proof.Machine.execCoreStep s
  | .debugPowerRelease d => Sys2Proof.Machine.execDebugPowerRelease d s
  | .fwSwap m r => Sys2Proof.Machine.execFwSwap m r s
  | .fwSwapRestart => Sys2Proof.Machine.execFwSwapRestart s
  | .fwSwapRevert => Sys2Proof.Machine.execFwSwapRevert s
  | .fwStatus m r => Sys2Proof.Machine.execFwStatus m r s
  | .spareCopy m r => Sys2Proof.Machine.execSpareCopy m r s
  | .spareCopyDone c => Sys2Proof.Machine.execSpareCopyDone c s
  | .spareSwap m r => Sys2Proof.Machine.execSpareSwap m r s
  | .autoSpareSet m r => Sys2Proof.Machine.execAutoSpareSet m r s
  | .headPark m r => Sys2Proof.Machine.execHeadPark m r s
  | .headResume m r => Sys2Proof.Machine.execHeadResume m r s
  | .liveStatus m r => Sys2Proof.Machine.execLiveStatus m r s
  | .originLatch i => Sys2Proof.Machine.execOriginLatch i s
  | .ucieTrainingFailure m => Sys2Proof.Machine.execUcieTrainingFailure m s
  | .supplyRestore n => Sys2Proof.Machine.execSupplyRestore n s
  | .refclkRestore => Sys2Proof.Machine.execRefclkRestore s
  | .configurationWrite fn w => Sys2Proof.Machine.execConfigurationWrite fn w s
  | .timePortPcsLock tenG => Sys2Proof.Machine.execTimePortPcsLock tenG s
  | .timePortPcsLockLoss => Sys2Proof.Machine.execTimePortPcsLockLoss s
  | .cascadeBadBlock q => Sys2Proof.Machine.execCascadeBadBlock q s
  | .tapTestLogicReset => Sys2Proof.Machine.execTapTestLogicReset s

end Sys2Proof.Machine
end

