-- ==== Sys2Proof/Safety.lean ====
section
/-! DEFINITION. What a safe run is: the forms of the state that every step keeps, and the terms that statements about a command use. -/

namespace Sys2Proof.Machine

/-- Memory is in its canonical form: addresses strictly rise and no cell holds what an unlisted address reads as. -/
abbrev Memory.wf (s : State) : Prop := Tbl.wf Mem.default s.mem = true

/-- The register table is in its canonical form, and no word holds a bit that does not exist (R11). -/
def RegsOk (s : State) : Prop :=
  Tbl.wf Reg.rst s.regs = true ∧ ∀ a, Reg.fit a (s.reg a) = s.reg a

/-- The invariant of the block: both tables canonical and reserved bits at their reset values. -/
def Inv (s : State) : Prop := Memory.wf s ∧ RegsOk s

/-- A run never stops: no command of the queue is refused and none faults. -/
def Runs (s : State) : Prop := ∃ t, step s = .next t

/-- A command is carried out: it answers a next state, and that state is as said. -/
def Answers (c : Instr) (s : State) (P : State → Prop) : Prop := ∃ t, exec c s = .next t ∧ P t

/-- The registers that messages, events and packets write: common counters, the pending bits of MSI-X, the bridge's discard counter and
flag, event-ring indices, and the sending counters of a quad. -/
abbrev Told (a : Nat) : Prop :=
  (0x01120000 ≤ a ∧ a < 0x01140000)
    ∨ (0x01300000 ≤ a ∧ a < 0x01320000 ∧ (a % 0x10000 = 0x4 ∨ a % 0x10000 = 0x44 ∨ (0x80 ≤ a % 0x10000 ∧ a % 0x10000 < 0x98)))
    ∨ a = 0x01320824 ∨ a = 0x01320864
    ∨ (0x01400000 ≤ a ∧ a < 0x01500000 ∧ a % 0x40000 = 0x40)
    ∨ (0x10000003800 ≤ a ∧ a < 0x10000020000 ∧ 0x3800 ≤ a % 0x10000 ∧ a % 0x10000 < 0x3810)

/-! What rows leave alone. -/

/-- What a row leaves alone: memory, and every register but those it tells others through and those said. -/
abbrev LeavesRest (mine : Nat → Prop) (s t : State) : Prop := t.mem = s.mem ∧ ∀ a, ¬ Told a → ¬ mine a → t.reg a = s.reg a

/-- Words of the two-wire blocks. -/
abbrev BusWord (a : Nat) : Prop := 0x01600000 ≤ a ∧ a < 0x01608000
/-- Words of the time base and the time port. -/
abbrev TimeWord (a : Nat) : Prop := (0x01500000 ≤ a ∧ a < 0x01500100) ∨ (0x01560000 ≤ a ∧ a < 0x01561000)
/-- Words of the cascade quads. -/
abbrev QuadWord (a : Nat) : Prop := 0x01400000 ≤ a ∧ a < 0x01500000
/-- Words of the debug block. -/
abbrev DebugWord (a : Nat) : Prop := 0x01800000 ≤ a ∧ a < 0x01800100
/-- Words of the streams and the rings. -/
abbrev StreamWord (a : Nat) : Prop := (0x01200000 ≤ a ∧ a < 0x01280000) ∨ (0x01320000 ≤ a ∧ a < 0x01321000)

/-! Packets of a cascade link. -/

/-- A packet stands next in its link's order and is for this device, without AUTH (R456, R458, R462). -/
abbrev Arrives (q : Fin 4) (seq : BitVec 32) (p : PacketIn) (s : State) : Prop :=
  s.get (Reg.Quad.lstate q.val) = lUp ∧ seq.toNat = (s.quad q.val).rxSeq ∧ bit p.flags.toNat 0 = false ∧ p.src.val ≠ 0 ∧ s.mine p.dst.val = true

/-- A packet was accepted: the next SEQ is expected, the packet counted, and ACK sent. -/
abbrev Accepted (q : Fin 4) (s t : State) : Prop :=
  (t.quad q.val).rxSeq = ((s.quad q.val).rxSeq + 1) % 0x100000000 ∧ .link q.val 1 (s.quad q.val).rxSeq 0 ∈ t.out
    ∧ t.get (Reg.Quad.rxPackets q.val) = satNat (s.get (Reg.Quad.rxPackets q.val) + 1) 0xFFFFFFFF

/-! Commands that firmware takes from a mailbox. -/

/-- A host or two-wire mailbox is Idle, firmware is ready outside Boot, and no doorbell waits, so that a command rung there is taken at
once (R135, R136, R139). -/
abbrev Ready (m : MbId) (s : State) : Prop :=
  (match m with | .cascade _ _ => false | _ => true) = true ∧ s.mode ≠ mBoot ∧ s.fwReady = true ∧ s.mbState m = 0 ∧ s.dev.doorbells = []

/-- The state in which firmware has just taken a request: it lies in the mailbox, whose STATE is Executing (R136). -/
def CmdSpec.taken (sp : CmdSpec) (m : MbId) (r : Req) (s : State) : State :=
  run (block [putRequest m sp.cls sp.code r, ring m, dropBell m, setMbState m 2, dev fun d => { d with takes := d.takes + 1 }]) s

/-- The same with the target powered, where the command needs that (R590). -/
def CmdSpec.powered (sp : CmdSpec) (c : Ctx) (s : State) : State := run (when sp.powers (powerTarget c.tgt.kind)) (sp.taken c.mb c.req s)

/-- A command that is carried out here: it is taken at once, every check of R144 passes, its flags ask for neither ORDERED nor DRY_RUN,
its target is of this device and takes in no member, and no failure arises as it executes. -/
abbrev Executes (sp : CmdSpec) (m : MbId) (r : Req) (s : State) (c : Ctx) : Prop :=
  Ready m s ∧ sp.context m r (sp.taken m r s) = .inr c ∧ sp.verdict c (sp.taken m r s) = (0, [])
    ∧ bit r.flags.toNat 1 = false ∧ bit r.flags.toNat 2 = false ∧ c.tgt.dev = s.dev.ownIndex
    ∧ (sp.fanout = true → s.membersOf c.tgt = []) ∧ sp.late c (sp.powered c s) = none

/-- The first n bytes of a mailbox's response (R138, R491). -/
def State.response (s : State) (m : MbId) (n : Nat) : List Byte :=
  match m with | .twoWire => s.dev.tw.resp.take n | _ => s.bytes (m.base + 0x400) n

/-- LAST_STATUS of a mailbox (R138, R491). -/
def State.lastStatus (s : State) (m : MbId) : Nat := match m with | .twoWire => s.dev.tw.lastStatus | _ => s.get (Reg.Mbx.lastStatus m.base)

/-- A mailbox is Response ready with a status (R138). -/
abbrev Done (m : MbId) (st : Nat) (t : State) : Prop := t.mbState m = 3 ∧ t.lastStatus m = st

/-- A mailbox is Response ready, and the response is that of a request with a status and parameters (R138, R143). -/
abbrev Replied (sp : CmdSpec) (m : MbId) (r : Req) (nid st : Nat) (ts : List Tlv) (t : State) : Prop :=
  Done m st t ∧ t.response m (16 + (tlvBytes ts).length) = respBytes sp.cls sp.code r 1 st nid ts

end Sys2Proof.Machine

namespace Sys2Proof
open Sys2Proof.Machine

/-- The commands of the mailboxes among the rows, each with its description, mailbox and request. -/
def Instr.command (i : Instr) : Option (CmdSpec × MbId × Req) :=
  match i with
  | .getIdentity m r => some (specGetIdentity, m, r)
  | .getVersions m r => some (specGetVersions, m, r)
  | .echo m r => some (specEcho, m, r)
  | .abort m r => some (specAbort, m, r)
  | .clearFlagCounters m r => some (specClearFlagCounters, m, r)
  | .getHeader m r => some (specGetHeader, m, r)
  | .listChildren m r => some (specListChildren, m, r)
  | .readCounters m r => some (specReadCounters, m, r)
  | .clearCounters m r => some (specClearCounters, m, r)
  | .nodeReset m r => some (specNodeReset, m, r)
  | .setMode m r => some (specSetMode, m, r)
  | .getMode m r => some (specGetMode, m, r)
  | .getNodeState m r => some (specGetNodeState, m, r)
  | .setNodeState m r => some (specSetNodeState, m, r)
  | .setWakePolicy m r => some (specSetWakePolicy, m, r)
  | .getDomains m r => some (specGetDomains, m, r)
  | .thermalRead m r => some (specThermalRead, m, r)
  | .thermalConfig m r => some (specThermalConfig, m, r)
  | .release m r => some (specRelease, m, r)
  | .retire m r => some (specRetire, m, r)
  | .portConfig m r => some (specPortConfig, m, r)
  | .portEnable m r => some (specPortEnable, m, r)
  | .steeringSet m r => some (specSteeringSet, m, r)
  | .framerSet m r => some (specFramerSet, m, r)
  | .portStatus m r => some (specPortStatus, m, r)
  | .framerStatus m r => some (specFramerStatus, m, r)
  | .clearPortCounters m r => some (specClearPortCounters, m, r)
  | .eqAdapt m r => some (specEqAdapt, m, r)
  | .eyeScan m r => some (specEyeScan, m, r)
  | .getEq m r => some (specGetEq, m, r)
  | .encConfig m r => some (specEncConfig, m, r)
  | .encRead m r => some (specEncRead, m, r)
  | .encSet m r => some (specEncSet, m, r)
  | .triggerSet m r => some (specTriggerSet, m, r)
  | .triggerStatus m r => some (specTriggerStatus, m, r)
  | .linkLatency m r => some (specLinkLatency, m, r)
  | .timeRead m r => some (specTimeRead, m, r)
  | .timeSet m r => some (specTimeSet, m, r)
  | .timeAdjust m r => some (specTimeAdjust, m, r)
  | .ptpConfig m r => some (specPtpConfig, m, r)
  | .ptpStatus m r => some (specPtpStatus, m, r)
  | .pinConfig m r => some (specPinConfig, m, r)
  | .pulseSet m r => some (specPulseSet, m, r)
  | .captureRead m r => some (specCaptureRead, m, r)
  | .alarmSet m r => some (specAlarmSet, m, r)
  | .linSet m r => some (specLinSet, m, r)
  | .blackSet m r => some (specBlackSet, m, r)
  | .defectSet m r => some (specDefectSet, m, r)
  | .flatSet m r => some (specFlatSet, m, r)
  | .gaugeLoad m r => some (specGaugeLoad, m, r)
  | .gaugeSwap m r => some (specGaugeSwap, m, r)
  | .gaugeRead m r => some (specGaugeRead, m, r)
  | .swatchStart m r => some (specSwatchStart, m, r)
  | .swatchAbort m r => some (specSwatchAbort, m, r)
  | .swatchRead m r => some (specSwatchRead, m, r)
  | .gaugeCompute m r => some (specGaugeCompute, m, r)
  | .corrStatus m r => some (specCorrStatus, m, r)
  | .wbSet m r => some (specWbSet, m, r)
  | .demosaicSet m r => some (specDemosaicSet, m, r)
  | .alignSet m r => some (specAlignSet, m, r)
  | .matrixSet m r => some (specMatrixSet, m, r)
  | .statsSet m r => some (specStatsSet, m, r)
  | .statsRead m r => some (specStatsRead, m, r)
  | .colourStatus m r => some (specColourStatus, m, r)
  | .screenSet m r => some (specScreenSet, m, r)
  | .screenTune m r => some (specScreenTune, m, r)
  | .screenStreamSet m r => some (specScreenStreamSet, m, r)
  | .screenStatus m r => some (specScreenStatus, m, r)
  | .historyReset m r => some (specHistoryReset, m, r)
  | .assemblySet m r => some (specAssemblySet, m, r)
  | .geometrySet m r => some (specGeometrySet, m, r)
  | .matchSet m r => some (specMatchSet, m, r)
  | .assemblyStatus m r => some (specAssemblyStatus, m, r)
  | .codingSet m r => some (specCodingSet, m, r)
  | .effortSet m r => some (specEffortSet, m, r)
  | .codingStatus m r => some (specCodingStatus, m, r)
  | .jobAbort m r => some (specJobAbort, m, r)
  | .jobStatus m r => some (specJobStatus, m, r)
  | .streamAdmit m r => some (specStreamAdmit, m, r)
  | .streamStart m r => some (specStreamStart, m, r)
  | .streamStop m r => some (specStreamStop, m, r)
  | .streamClose m r => some (specStreamClose, m, r)
  | .streamStatus m r => some (specStreamStatus, m, r)
  | .ringSet m r => some (specRingSet, m, r)
  | .carouselRead m r => some (specCarouselRead, m, r)
  | .queueStatus m r => some (specQueueStatus, m, r)
  | .cascadeConfig m r => some (specCascadeConfig, m, r)
  | .cascadeStatus m r => some (specCascadeStatus, m, r)
  | .topology m r => some (specTopology, m, r)
  | .linkRestart m r => some (specLinkRestart, m, r)
  | .prbsTest m r => some (specPrbsTest, m, r)
  | .prbsRead m r => some (specPrbsRead, m, r)
  | .twTargetSet m r => some (specTwTargetSet, m, r)
  | .twTargetStatus m r => some (specTwTargetStatus, m, r)
  | .twConfig m r => some (specTwConfig, m, r)
  | .twXfer m r => some (specTwXfer, m, r)
  | .twStatus m r => some (specTwStatus, m, r)
  | .faultStatus m r => some (specFaultStatus, m, r)
  | .crcCompute m r => some (specCrcCompute, m, r)
  | .errInject m r => some (specErrInject, m, r)
  | .worldStatus m r => some (specWorldStatus, m, r)
  | .worldQuery m r => some (specWorldQuery, m, r)
  | .nworldReset m r => some (specNworldReset, m, r)
  | .attestCert m r => some (specAttestCert, m, r)
  | .attestReport m r => some (specAttestReport, m, r)
  | .keyLoad m r => some (specKeyLoad, m, r)
  | .keyClear m r => some (specKeyClear, m, r)
  | .streamTagSet m r => some (specStreamTagSet, m, r)
  | .rollbackAdvance m r => some (specRollbackAdvance, m, r)
  | .debugStatus m r => some (specDebugStatus, m, r)
  | .debugChallenge m r => some (specDebugChallenge, m, r)
  | .debugUnlock m r => some (specDebugUnlock, m, r)
  | .debugLock m r => some (specDebugLock, m, r)
  | .dbgAccess m r => some (specDbgAccess, m, r)
  | .bistRun m r => some (specBistRun, m, r)
  | .fwSwap m r => some (specFwSwap, m, r)
  | .fwStatus m r => some (specFwStatus, m, r)
  | .spareCopy m r => some (specSpareCopy, m, r)
  | .spareSwap m r => some (specSpareSwap, m, r)
  | .autoSpareSet m r => some (specAutoSpareSet, m, r)
  | .headPark m r => some (specHeadPark, m, r)
  | .headResume m r => some (specHeadResume, m, r)
  | .liveStatus m r => some (specLiveStatus, m, r)
  | _ => none

end Sys2Proof
end

