-- ==== Sys2Proof/Certificates/Slice0/Obligations.lean ====
section
/-! DEFINITION. The statements for the provers, each over the rows and rules its docstring names. -/

open Sys2Proof Sys2Proof.Machine Sys2Proof.Machine.Reg

/-- A step takes the command at the front of the queue and runs it on the state with the rest of the queue (the order in which a mailbox, a
bus or a pin delivers what it does is that of the queue). -/
def Obligations.StepTakesTheFrontCommand : Prop :=
  (∀ (c : Instr) (q : List Instr) (s : State), s.pending = c :: q → step s = exec c { s with pending := q })

/-- With no command waiting, one cycle of the time base passes (R255; the model's choice, log entry 6): no memory changes, and with the
reference clock lost nothing changes at all. -/
def Obligations.IdleStepIsOneCycle : Prop :=
  (∀ s : State, s.pending = [] → ∃ t, step s = .next t ∧ t.pending = [] ∧ t.mem = s.mem ∧ (s.dev.pwr.refclkLost = true → t = s)
      ∧ (s.dev.pwr.refclkLost = false → s.now + (s.get TimeReg.frac * 0x10000 + s.dev.time.low + s.addend) / 0x100000000 < 0x1000000000000 * 1000000000 →
          t.now = s.now + (s.get TimeReg.frac * 0x10000 + s.dev.time.low + s.addend) / 0x100000000)
      ∧ ∀ a, ¬ Told a → ¬ (0x01500000 ≤ a ∧ a < 0x01500100) → a ≠ BootReg.elapsed.addr → a ≠ Dbg.lockoutMs.addr → t.reg a = s.reg a)

/-- The state after reset has its memory and registers in canonical form, with every reserved bit 0 (R11). -/
def Obligations.ResetMeetsTheInvariant : Prop :=
  (Inv State.reset)

/-- Every step keeps memory and registers in canonical form and every bit that does not exist at its reset value (R11). -/
def Obligations.EveryStepKeepsTheInvariant : Prop :=
  (∀ s t : State, Inv s → step s = .next t → Inv t)

/-- No row of the table stops: each answers a next state and leaves the queue alone. -/
def Obligations.EveryRowAnswersANextState : Prop :=
  (∀ (c : Instr) (s : State), Answers c s fun t => t.pending = s.pending)

/-- Reset leaves Boot with firmware not ready, no memory written, no stream admitted, no ring or port enabled and every mailbox Idle (Tables
2-5, 4-4, 5-5, 13-4). -/
def Obligations.ResetLeavesBoot : Prop :=
  (State.reset.mode = mBoot ∧ State.reset.fwReady = false ∧ State.reset.get BootReg.step = 0 ∧ State.reset.get BootReg.resetCause = 0
    ∧ State.reset.mem = [] ∧ State.reset.pending = []
    ∧ (∀ i : Fin 16, State.reset.sState i.val = 0) ∧ (∀ i : Fin 42, State.reset.on (Ring.enable i.val) = false)
    ∧ (∀ k : Fin 4, State.reset.mbState (.pf0 k) = 0) ∧ (∀ k : Fin 2, State.reset.mbState (.pf1 k) = 0)
    ∧ (∀ n : Fin 56, State.reset.on (Port.enable n.val) = false))

/-- A mailbox command that fails a check of R144 is answered with the first code that applies and changes nothing but its mailbox and what
telling writes. -/
def Obligations.CommandsAreCheckedFirst : Prop :=
  (∀ (i : Instr) (sp : CmdSpec) (m : MbId) (r : Req) (s : State) (st : Nat) (ts : List Tlv), i.command = some (sp, m, r) → Ready m s →
    sp.context m r (sp.taken m r s) = .inl (st, ts) →
    Answers i s fun t => Done m st t ∧ t.dev.journal = s.dev.journal
      ∧ t.response m (16 + (tlvBytes ts).length) = respBytes sp.cls sp.code r (respVersion r st) st (r.node.toNat % 0x10000) ts
      ∧ (∀ a, a < m.base ∨ m.base + 0x800 ≤ a → t.byte a = s.byte a)
      ∧ ∀ a, ¬ Told a → (a < m.base + 0x800 ∨ m.base + 0x1000 ≤ a) → ¬ BusWord a → t.reg a = s.reg a)
  ∧ (∀ (i : Instr) (sp : CmdSpec) (m : MbId) (r : Req) (s : State) (c : Ctx), i.command = some (sp, m, r) → Ready m s →
    sp.context m r (sp.taken m r s) = .inr c → (sp.verdict c (sp.taken m r s)).1 ≠ 0 →
    Answers i s fun t => Replied sp m r c.tgt.nid (sp.verdict c (sp.taken m r s)).1 (sp.verdict c (sp.taken m r s)).2 t ∧ t.dev.journal = s.dev.journal
      ∧ (∀ a, a < m.base ∨ m.base + 0x800 ≤ a → t.byte a = s.byte a)
      ∧ ∀ a, ¬ Told a → (a < m.base + 0x800 ∨ m.base + 0x1000 ≤ a) → ¬ BusWord a → t.reg a = s.reg a)

/-- A mailbox command that passes every check is carried out: a command that completes at once answers 0x00 with its results after its
effect, and one that pends is journalled, answers 0x01 and begins (R138, R144, R151). -/
def Obligations.CommandsExecute : Prop :=
  (∀ (i : Instr) (sp : CmdSpec) (m : MbId) (r : Req) (s : State) (c : Ctx), i.command = some (sp, m, r) → Executes sp m r s c → sp.pends = none →
    (tlvBytes (deliver c (sp.results c (sp.powered c s))).2).length ≤ 1008 →
    Answers i s fun t => Replied sp m r c.tgt.nid 0 (deliver c (sp.results c (sp.powered c s))).2 t
      ∧ ∃ u, u = run (sp.effect c) (sp.powered c s) ∧ (sp.arms c (sp.powered c s) = none →
        t = run (block [(deliver c (sp.results c (sp.powered c s))).1, respond m sp.cls sp.code r 1 0 c.tgt.nid (deliver c (sp.results c (sp.powered c s))).2]) u))
  ∧ (∀ (i : Instr) (sp : CmdSpec) (m : MbId) (r : Req) (s : State) (c : Ctx) (b : Nat), i.command = some (sp, m, r) → Executes sp m r s c → sp.pends = some b →
    (tlvBytes (sp.early c (sp.powered c s))).length ≤ 1008 →
    ∃ u, Replied sp m r c.tgt.nid 1 (sp.early c (sp.powered c s)) u ∧ (∃ e ∈ u.dev.journal, e.seq = s.dev.takes + 1 ∧ e.phase = .pending ∧ e.req = r ∧ e.mb = m)
      ∧ u.dev.journal.length = s.dev.journal.length + 1 ∧ (∀ a, ¬ Told a → (a < m.base + 0x800 ∨ m.base + 0x1000 ≤ a) → ¬ BusWord a → u.reg a = (sp.powered c s).reg a)
      ∧ Answers i s fun t => t = run (sp.effect c) u)

/-- DRY_RUN makes every check and applies nothing (R147). -/
def Obligations.DryRunAppliesNothing : Prop :=
  (∀ (i : Instr) (sp : CmdSpec) (m : MbId) (r : Req) (s : State) (c : Ctx), i.command = some (sp, m, r) → Ready m s →
    sp.context m r (sp.taken m r s) = .inr c → sp.verdict c (sp.taken m r s) = (0, []) → bit r.flags.toNat 1 = false → bit r.flags.toNat 2 = true →
    c.tgt.dev = s.dev.ownIndex → (sp.fanout = true → s.membersOf c.tgt = []) → c.has 0xF004 = false → (tlvBytes (sp.results c (sp.taken m r s))).length ≤ 1008 →
    Answers i s fun t => t.mbState m = 3 ∧ t.dev.journal = s.dev.journal
      ∧ t.lastStatus m = (match (sp.late c (sp.taken m r s)).orElse fun _ => sp.final c (sp.taken m r s) with | some x => x.1 | none => 0)
      ∧ (∀ a, a < m.base ∨ m.base + 0x800 ≤ a → t.byte a = s.byte a)
      ∧ ∀ a, ¬ Told a → (a < m.base + 0x800 ∨ m.base + 0x1000 ≤ a) → ¬ BusWord a → t.reg a = s.reg a)

/-- A pipeline wakes, idles and powers down, and an idle cluster stops its PLL (R71, R73, R74, R76). Wake sources, mode transitions and an
orderly stop (R55, R58, R94). -/
def Obligations.PowerDomainsAndModesFollow : Prop :=
  (∀ (p : Fin 64) (s : State), s.sleep p.val = 4 →
    Answers (.pipelineWakeDone p) s fun t => t.get (Node.state (nidPipe p.val)) = stRunning ∧ t.domainOn (29 + p.val) = true ∧ t.domainRet (29 + p.val) = false ∧ t.sleep p.val = 0)
  ∧ (∀ (p : Fin 64) (s : State), s.boundAdmitted p.val = true → s.get (Node.state (nidPipe p.val)) = stRunning → s.policy p.val ≠ 0 →
    Answers (.pipelineIdleTimeout p) s fun t => t.get (Node.state (nidPipe p.val)) = stGated ∧ (2 ≤ s.policy p.val → t.sleep p.val = 1) ∧ (s.policy p.val = 1 → t.sleep p.val = s.sleep p.val))
  ∧ (∀ (p : Fin 64) (s : State), s.sleep p.val = 1 →
    Answers (.pipelinePowerDownDone p) s fun t => t.get (Node.state (nidPipe p.val)) = stRetained ∧ t.domainOn (29 + p.val) = false ∧ t.domainRet (29 + p.val) = true ∧ t.sleep p.val = 0)
  ∧ (∀ (c : Fin 8) (s : State), s.get (Node.state (nidCluster c.val)) = stRunning → (∀ j : Fin 8, (s.get (Node.state (nidPipe (8 * c.val + j.val))) = stOff ∨ s.get (Node.state (nidPipe (8 * c.val + j.val))) = stRetained) ∧ s.boundStarted (8 * c.val + j.val) = false) →
    Answers (.clusterIdleTimeout c) s fun t => t.get (Node.state (nidCluster c.val)) = stGated ∧ c.val ∉ t.dev.pwr.plls)
  ∧ (∀ (s : State), s.on BootReg.role = false → s.mode = mStandby → s.on ModeReg.pending = false → bit s.dev.pwr.wakeMask 1 = true →
    Answers (.ucieSidebandActivity) s fun t => t.on ModeReg.pending = true ∧ t.get ModeReg.target = mArmed ∧ t.get ModeReg.wakeSrc = 2 ∧ t.mode = mStandby)
  ∧ (∀ (s : State), s.on BootReg.role = true → s.mode = mStandby → s.on ModeReg.pending = false → bit s.dev.pwr.wakeMask 2 = true →
    Answers (.cascadeLaneEnergy) s fun t => t.on ModeReg.pending = true ∧ t.get ModeReg.target = mArmed ∧ t.get ModeReg.wakeSrc = 3 ∧ t.mode = mStandby)
  ∧ (∀ (m : Nat) (s : State), s.on ModeReg.pending = true → s.get ModeReg.target = m → (m = mStandby ∨ m = mMaintenance) → s.dev.pwr.wakeNext = none →
    Answers (.modeTransitionDone) s fun t => t.mode = m ∧ t.on ModeReg.pending = false ∧ t.get ModeReg.cause = byCommand)
  ∧ (∀ (s : State), s.on ModeReg.pending = true → s.get ModeReg.target = mArmed → s.mode = mStandby →
    Answers (.modeTransitionDone) s fun t => t.mode = mArmed ∧ t.on ModeReg.pending = false ∧ t.get ModeReg.cause = byWake)
  ∧ (∀ (s : State), s.on ModeReg.pending = true → s.get ModeReg.target = mArmed → s.mode = mSafeHold →
    Answers (.modeTransitionDone) s fun t => t.mode = mArmed ∧ t.on ModeReg.pending = false ∧ t.get ModeReg.cause = byCommand ∧ t.dev.pwr.faultLive = false)
  ∧ (∀ (i : Fin 16) (s : State), s.get Therm.state = 3 → s.dev.pwr.stopping = true → s.admitted i.val = true →
    Answers (.orderlyStopStreamClose i) s fun t => t.admitted i.val = false)

/-- The safety net samples the sensors, throttles and undoes, and takes the whole device down on a trip; a supply that fails takes it to
Safe-hold (R56, R78, R87, R88, R576). -/
def Obligations.ThermalNetActs : Prop :=
  (∀ (r : Vector (BitVec 16) 20) (n : Fin 20) (s : State), s.supervised = true →
    Answers (.sensorSample r false) s fun t => t.get (Therm.temp n.val) = (r[n]).toNat ∧ t.on (Therm.valid n.val) = true)
  ∧ (∀ (r : Vector (BitVec 16) 20) (n : Fin 20) (s : State), s.supervised = true → (∀ j : Fin 20, r[j] = 2000) → (∀ j : Fin 20, (s.sensor j.val).trip = 1) → (∀ j : Fin 20, s.excluded j.val = false) → (∀ j : Fin 20, s.on (Therm.suspect j.val) = false) →
    Answers (.sensorSample r false) s fun t => t.mode = mSafeHold ∧ t.get Therm.state = 4 ∧ t.on Therm.tripSeen = true ∧ t.get ModeReg.cause = byTrip ∧ t.dev.elec.tripLow = true ∧ t.fwReady = false ∧ t.dev.journal = [])
  ∧ (∀ (s : State), s.get Therm.state = 2 → s.get Therm.step < 5 → (((16 * s.get Therm.throttle : Nat) : Int) ≤ s.tmaxNow) →
    Answers (.throttleStepTimer) s fun t => t.get Therm.step = s.get Therm.step + 1 ∧ t.get Therm.state = 2 ∧ t.mode = s.mode)
  ∧ (∀ (s : State), s.get Therm.state = 2 → 1 ≤ s.get Therm.step → (s.tmaxNow < ((16 * s.get Therm.throttle : Nat) : Int) - 48) →
    Answers (.throttleUndoTimer) s fun t => t.get Therm.step = s.get Therm.step - 1 ∧ t.get Therm.state = (if s.get Therm.step = 1 then 1 else 2))
  ∧ (∀ (i : Fin 16) (s : State), s.admitted i.val = true → s.get Therm.state = 2 → 3 ≤ s.get Therm.step →
    Answers (.throttleStepApply i) s fun t => t.throttled i.val 2 = true ∧ t.throttled i.val 3 = true ∧ (4 < s.get Therm.step → t.throttled i.val 5 = true))
  ∧ (∀ (n : Fin 12) (s : State), n.val ≠ 0 → n.val ≠ 7 → s.mode = mArmed →
    Answers (.supplyUndervoltage n) s fun t => t.mode = mSafeHold ∧ t.get ModeReg.cause = byFault ∧ n.val ∈ t.dev.elec.bad)
  ∧ (∀ (s : State), 
    Answers (.supplyUndervoltage 0) s fun t => t.mode = mBoot ∧ t.mem = [] ∧ t.get BootReg.step = 0 ∧ 0 ∈ t.dev.elec.bad ∧ t.out.head? = some (.highZ 0xFFFFFFFF))
  ∧ (∀ (s : State), s.dev.pwr.refclkLost = false → s.mode = mArmed →
    Answers (.refclkLoss) s fun t => t.dev.pwr.refclkLost = true ∧ t.mode = mSafeHold ∧ t.get ModeReg.cause = byFault)
  ∧ (∀ (n : Fin 12) (s : State), n.val ≠ 0 → s.dev.elec.bad.contains n.val = true →
    Answers (.supplyRestore n) s fun t => n.val ∉ t.dev.elec.bad ∧ (n.val, s.now) ∈ t.dev.elec.restored ∧ t.regs = s.regs ∧ t.mem = s.mem)
  ∧ (∀ (s : State), s.dev.pwr.refclkLost = true →
    Answers (.refclkRestore) s fun t => t.dev.pwr.refclkLost = false ∧ (12, s.now) ∈ t.dev.elec.restored ∧ t.regs = s.regs ∧ t.mem = s.mem)

/-- Host accesses that pass the checks of R118 are carried out (R106, R114, R117, R125, R130, R169, R591). -/
def Obligations.BridgeWritesLand : Prop :=
  (∀ (fn : Fin 2) (off a : Nat) (d : List (Option Byte)) (s : State), d.length = 4 → (off % 4 = 0) → 0x2000 ≤ off → s.check fn.val .bar2 off true = 0 → s.barAddr fn.val .bar2 off = some a → isShared a = true → s.dev.sec.injected = none →
    Answers (.inboundPostedWrite fn .bar2 off d) s fun t => (∀ i : Fin 4, t.byte (a + i.val) = (d.getD i.val none).getD (s.byte (a + i.val))) ∧ (∀ x, x < a ∨ a + 4 ≤ x → t.byte x = s.byte x) ∧ t.regs = s.regs)
  ∧ (∀ (fn : Fin 2) (off a : Nat) (s : State), (off % 4 = 0) → 0x2000 ≤ off → s.check fn.val .bar2 off false = 0 → s.barAddr fn.val .bar2 off = some a → isShared a = true → s.dev.sec.injected = none → (s.dev.ecc = []) →
    Answers (.inboundRead fn .bar2 off 4) s fun t => t.out = .completion fn.val .success (s.bytes a 4) :: s.out ∧ t.mem = s.mem)
  ∧ (∀ (fn : Fin 2) (off : Nat) (s : State), (off % 4 = 0) → s.check fn.val .bar2 off false ≠ 0 →
    Answers (.inboundRead fn .bar2 off 4) s fun t => t.out = .completion fn.val .success (zeros 4) :: s.out ∧ t.mem = s.mem ∧ t.regs = s.regs)
  ∧ (∀ (fn : Fin 2) (off : Nat) (op : AtomicFn) (wide : Bool) (x y : Nat) (s : State), 0x100000 ≤ off → off < 0x200000 → (off % (if wide then 8 else 4) = 0) → (op = .cas → wide = true) → s.check fn.val .bar2 off true = 0 → (wide = true → s.check fn.val .bar2 (off + 4) true = 0) → (s.dev.ecc = []) →
    Answers (.atomicOp fn .bar2 off op wide x y) s fun t => t.out = .completion fn.val .success (s.bytes (0x100000000 + (off - 0x100000)) (if wide then 8 else 4)) :: s.out
      ∧ t.bytes (0x100000000 + (off - 0x100000)) (if wide then 8 else 4) = leBytes (if wide then 8 else 4)
        (atomicNew op (if wide then 8 else 4) (leVal (s.bytes (0x100000000 + (off - 0x100000)) (if wide then 8 else 4))) x y))
  ∧ (∀ (fn : Fin 2) (v : BitVec 32) (s : State), s.mode ≠ mBoot → s.check fn.val .bar0 0x2004 true = 0 → s.dev.sec.injected = none →
    Answers (.w1cFlagClear (.host fn .bar0 0x2004) v) s fun t => t.get ⟨0x01300004 + 0x10000 * fn.val, 0, 6, 0⟩ = s.get ⟨0x01300004 + 0x10000 * fn.val, 0, 6, 0⟩ - Nat.land v.toNat (s.get ⟨0x01300004 + 0x10000 * fn.val, 0, 6, 0⟩)
      ∧ ∀ j : Fin 6, t.reg (0x01300080 + 0x10000 * fn.val + 4 * j.val) = s.reg (0x01300080 + 0x10000 * fn.val + 4 * j.val))
  ∧ (∀ (fn : Fin 2) (v : BitVec 32) (s : State), s.check fn.val .bar0 0x2020 true = 0 → s.dev.sec.injected = none →
    Answers (.sramWinBaseWrite fn v) s fun t => t.get (Bridge.sramWinBase fn.val) = v.toNat % 0x1000000 ∧ t.mem = s.mem)
  ∧ (∀ (fn : Fin 2) (vec : Fin 128) (s : State), s.dev.sec.injected = none → s.mode ≠ mBoot → s.linkUp = true →
    Answers (.msixVectorUnmask fn vec) s fun t => t.reg (hostKey fn.val (0x300C + 16 * vec.val)) = 0 ∧ ((if fn = 0 then s.dev.host.pf0 else s.dev.host.pf1).msixEnable = true → (if fn = 0 then s.dev.host.pf0 else s.dev.host.pf1).msixMask = false →
        (if fn = 0 then s.dev.host.pf0 else s.dev.host.pf1).busMaster = true →
        t.on ⟨hostKey fn.val (0x3800 + 4 * (vec.val / 32)), vec.val % 32, 1, 0⟩ = false))

/-- UCIe modules train, fail, train again and go down (R97, R98, R100, R101). A function reset returns one function to reset and is reported
when it is over; credits, read completions and configuration writes act on their own function (R107, R109, R117, R128, R131, R177). -/
def Obligations.UcieAndFunctionsFollow : Prop :=
  (∀ (m : Fin 2) (rate : Fin 7) (lowLat : Bool) (repairs : Fin 16) (rt : BitVec 16) (s : State), (s.domainOn (4 + m.val) = true) → s.get (modRate m.val 0) = 0 → rate ≠ 0 → s.get (Bridge.rateCap 0) ≠ 0 →
    Answers (.ucieModuleTrained m rate lowLat repairs rt) s fun t => ∀ fn : Fin 2, t.get (modRate m.val fn.val) = min rate.val (s.get (Bridge.rateCap 0)) ∧ t.get (modRepairs m.val fn.val) = repairs.val
      ∧ t.get (Bridge.flitLo fn.val) = boolNat lowLat)
  ∧ (∀ (m : Fin 2) (s : State), (s.domainOn (4 + m.val) = true) → s.get (modRate m.val 0) = 0 →
    Answers (.ucieTrainingFailure m) s fun t => (m = 0 → t.dev.host.fails0 = s.dev.host.fails0 + 1 ∧ t.dev.host.fails1 = s.dev.host.fails1) ∧ (m = 1 → t.dev.host.fails1 = s.dev.host.fails1 + 1 ∧ t.dev.host.fails0 = s.dev.host.fails0))
  ∧ (∀ (m : Fin 2) (s : State), (s.domainOn (4 + m.val) = true) → s.get (modRate m.val 0) = 0 → ((if m = 0 then s.dev.host.fails0 else s.dev.host.fails1) ≠ 0) → ((if m = 0 then s.dev.host.fails0 else s.dev.host.fails1) ≤ 3) →
    Answers (.ucieTrainingRetry m) s fun t => t.out = .uncoreLink m.val (s.get (Bridge.rateCap 0)) :: s.out)
  ∧ (∀ (m : Fin 2) (l : BitVec 8) (s : State), s.get (modRate m.val 0) ≠ 0 →
    Answers (.ucieModuleDown m l) s fun t => ∀ fn : Fin 2, t.get (modRate m.val fn.val) = 0 ∧ t.on (modDown m.val fn.val) = true)
  ∧ (∀ (s : State), 
    Answers (.ucieLinkReplay none) s fun t => ∀ fn : Fin 2, t.get (Bridge.replays fn.val) = satNat (s.get (Bridge.replays fn.val) + 1) 0xFFFFFFFF)
  ∧ (∀ (i : Fin 16) (seq : BitVec 48) (n : Nat) (s : State), ((s.dev.host.replayed.find? fun x => x.1 = i.val && x.2.1 = seq.toNat).elim 0 (fun x => x.2.2) = n) →
    Answers (.ucieLinkReplay (some (i, seq))) s fun t => (i.val, seq.toNat, n + 1) ∈ t.dev.host.replayed ∧ (1 ≤ n → ∀ fn : Fin 2, t.on (Bridge.replayExcess fn.val) = true))
  ∧ (∀ (fn : Fin 2) (s : State), (s.pendingCmd 0xF 3 1).isSome = false →
    Answers (.functionLevelReset fn) s fun t => t.get BootReg.resetCause = 4 + fn.val ∧ (if fn = 0 then t.dev.host.flr0 = true else t.dev.host.flr1 = true)
      ∧ (if fn = 0 then t.dev.host.pf0 = PciFn.reset else t.dev.host.pf1 = PciFn.reset))
  ∧ (∀ (fn : Fin 2) (s : State), ((if fn = 0 then s.dev.host.flr0 else s.dev.host.flr1) = true) →
    Answers (.flrDone fn) s fun t => (if fn = 0 then t.dev.host.flr0 = false else t.dev.host.flr1 = false) ∧ (fn = 0 → t.dev.host.flr1 = s.dev.host.flr1) ∧ (fn = 1 → t.dev.host.flr0 = s.dev.host.flr0))
  ∧ (∀ (n : Nat) (s : State), (s.dev.host.waiting = []) →
    Answers (.hostCreditReturn n) s fun t => t.dev.host.credit = s.dev.host.credit + n ∧ t.out = s.out)
  ∧ (∀ (tag : Nat) (id off n : Nat) (d : List Byte) (s : State), ((s.dev.host.reads.find? fun r => r.1 = tag) = some (tag, .window id off n)) →
    Answers (.outboundReadCompletion tag true d) s fun t => (∀ x ∈ t.dev.host.reads, x.1 ≠ tag)
      ∧ ∀ r ∈ s.dev.remoteReads.head?, r.id = id → r.waits = 1 → t.out = .completion r.fn .success (r.data.take off ++ slice d 0 n ++ r.data.drop (off + n)) :: s.out)
  ∧ (∀ (fn : Fin 2) (b : Bool) (s : State), 
    Answers (.configurationWrite fn (.busMaster b)) s fun t => (if fn = 0 then t.dev.host.pf0 else t.dev.host.pf1).busMaster = b ∧ (if fn = 0 then t.dev.host.pf1 else t.dev.host.pf0) = (if fn = 0 then s.dev.host.pf1 else s.dev.host.pf0) ∧ t.regs = s.regs)
  ∧ (∀ (fn : Fin 2) (a b : Bool) (s : State), 
    Answers (.configurationWrite fn (.msixControl a b)) s fun t => (if fn = 0 then t.dev.host.pf0 else t.dev.host.pf1).msixEnable = a ∧ (if fn = 0 then t.dev.host.pf0 else t.dev.host.pf1).msixMask = b)

/-- A doorbell queues a mailbox, firmware takes the oldest one, and consuming the response returns it to Idle (R135, R136, R138, R148).
Data-port registers move the port and its prefetch buffer; firmware refreshes the status page; a BIST ends (R155, R157, R158, R159, R164).
-/
def Obligations.MailboxesAndDataPortsMove : Prop :=
  (∀ (j : Fin 4) (s : State), s.mode ≠ mBoot → s.fwReady = true → s.mbState (.pf0 j) = 0 → s.dev.sec.injected = none →
    Answers (.doorbellRing (.pf0 j)) s fun t => t.mbState (.pf0 j) = 1 ∧ t.dev.doorbells = s.dev.doorbells ++ [.pf0 j])
  ∧ (∀ (j : Fin 2) (s : State), s.mode ≠ mBoot → s.fwReady = true → s.mbState (.pf1 j) = 0 → s.dev.sec.injected = none →
    Answers (.doorbellRing (.pf1 j)) s fun t => t.mbState (.pf1 j) = 1 ∧ t.dev.doorbells = s.dev.doorbells ++ [.pf1 j])
  ∧ (∀ (j : Fin 4) (r : Req) (ds : List MbId) (s : State), s.fwReady = true → (s.dev.doorbells = .pf0 j :: ds) → (.pf0 j ∉ ds) → s.mbBytes (.pf0 j) = padTo 1024 (reqBytes 1 1 r) → r.version = 1 → r.flags = 0 → r.rsv = 0 → r.length = 0 → r.node = 1 → (r.payload = []) → s.get (Node.state 1) ≠ stFaulted → s.dev.ownIndex = 0 →
    Answers (.mailboxTake) s fun t => t.dev.doorbells = ds ∧ t.mbState (.pf0 j) = 3 ∧ t.get (Mbx.lastStatus (MbId.base (.pf0 j))) = 0 ∧ t.dev.takes = s.dev.takes + 1)
  ∧ (∀ (e : Cmd) (s : State), s.fwReady = true → (s.dev.journal = [e]) → e.phase = .held → e.cls = 1 → e.code = 1 →
    Answers (.orderedCommandRelease) s fun t => ∀ x ∈ t.dev.journal, x.seq = e.seq → x.phase ≠ .held)
  ∧ (∀ (j : Fin 4) (s : State), s.mode ≠ mBoot → s.mbState (.pf0 j) = 3 → s.dev.sec.injected = none →
    Answers (.responseConsume (.pf0 j)) s fun t => t.mbState (.pf0 j) = 0 ∧ t.on (Mbx.respReady (MbId.base (.pf0 j))) = false)
  ∧ (∀ (j : Fin 2) (s : State), s.mode ≠ mBoot → s.mbState (.pf1 j) = 3 → s.dev.sec.injected = none →
    Answers (.responseConsume (.pf1 j)) s fun t => t.mbState (.pf1 j) = 0 ∧ t.on (Mbx.respReady (MbId.base (.pf1 j))) = false)
  ∧ (∀ (fn n : Fin 2) (v : BitVec 32) (s : State), s.mode ≠ mBoot → s.dev.sec.injected = none →
    Answers (.dataPortAddrWrite fn n false v) s fun t => t.get (DPort.addrLo (dportBase fn.val n.val)) = v.toNat / 4 ∧ t.on (DPort.pfValid (dportBase fn.val n.val)) = false)
  ∧ (∀ (fn n : Fin 2) (v : BitVec 32) (s : State), s.mode ≠ mBoot → s.dev.sec.injected = none →
    Answers (.dataPortAddrWrite fn n true v) s fun t => t.get (DPort.addrHi (dportBase fn.val n.val)) = v.toNat % 256 ∧ t.on (DPort.pfValid (dportBase fn.val n.val)) = false)
  ∧ (∀ (fn n : Fin 2) (v : BitVec 32) (s : State), s.mode ≠ mBoot → s.dev.sec.injected = none →
    Answers (.dataPortCtrlWrite fn n v) s fun t => t.get (DPort.inc (dportBase fn.val n.val)) = (if v.toNat % 4 = 3 then s.get (DPort.inc (dportBase fn.val n.val)) else v.toNat % 4)
      ∧ t.get (DPort.prefetch (dportBase fn.val n.val)) = v.toNat / 4 % 2)
  ∧ (∀ (fn n : Fin 2) (s : State), s.mode ≠ mBoot → s.dev.sec.injected = none →
    Answers (.dataPortNext fn n) s fun t => t.dpAddr fn.val n.val = (s.dpAddr fn.val n.val + 1024 * s.dpInc fn.val n.val) % 0x10000000000)
  ∧ (∀ (fn n : Fin 2) (s : State), s.mode ≠ mBoot → s.dev.sec.injected = none →
    Answers (.dataPortRefresh fn n) s fun t => t.dpAddr fn.val n.val = s.dpAddr fn.val n.val ∧ t.on (DPort.pfValid (dportBase fn.val n.val)) = false
      ∧ t.on (DPort.pfFilling (dportBase fn.val n.val)) = (s.on (DPort.prefetch (dportBase fn.val n.val)) && s.spanOk fn.val n.val))
  ∧ (∀ (fn n : Fin 2) (s : State), s.on (DPort.pfFilling (dportBase fn.val n.val)) = true → s.spanOk fn.val n.val = true →
    Answers (.dataPortFillDone fn n) s fun t => t.on (DPort.pfValid (dportBase fn.val n.val)) = true ∧ t.on (DPort.pfFilling (dportBase fn.val n.val)) = false
      ∧ ∀ o < 0x1000, t.byte (prefetchBase fn.val n.val + o) = s.byte (s.dpByte fn.val n.val o))
  ∧ (∀ (fn n : Fin 2) (off : Nat) (b : Byte) (s : State), off < 0x1000 → (s.check fn.val .bar2 (0x1000 * n.val + off) true = 0) → isShared (s.dpByte fn.val n.val off) = true → s.dev.sec.injected = none →
    Answers (.dataPortWindowWrite fn n off [some b]) s fun t => t.byte (s.dpByte fn.val n.val off) = b ∧ t.dpAddr fn.val n.val = s.dpAddr fn.val n.val)
  ∧ (∀ (s : State), s.fwReady = true →
    Answers (.statusPageRefresh) s fun t => ∀ fn : Fin 2, leVal (t.bytes (statusPageBase fn.val) 4) = (leVal (s.bytes (statusPageBase fn.val) 4) + 2) % 0x100000000)
  ∧ (∀ (nid : Fin 0x140) (pass : Bool) (s : State), nid.val ≠ 1 → s.dev.pwr.bist.contains nid.val = true → localNid nid.val = true → s.get (Node.state nid.val) = stFaulted →
    Answers (.nodeResetBistDone nid pass) s fun t => t.get (Node.state nid.val) = (if pass then stGated else stRetired))

/-- The resets keep of Table 5-1 what is said here, and the straps are latched before step 1 (R171, R174, R176). -/
def Obligations.ResetsKeepWhatTheyKeep : Prop :=
  (∀ (s : State), 
    Answers (.powerOn) s fun t => t.mem = [] ∧ t.mode = mBoot ∧ t.get BootReg.step = 0 ∧ t.get BootReg.resetCause = 0 ∧ t.get ModeReg.cause = 0 ∧ t.dev.journal = [] ∧ t.dev.doorbells = [] ∧ t.fwReady = false ∧ t.on Therm.tripSeen = false)
  ∧ (∀ (e : Fin 4) (s : State), 
    Answers (.nreset) s fun t => t.mem = [] ∧ t.mode = mBoot ∧ t.get BootReg.step = 0 ∧ t.get BootReg.resetCause = 1 ∧ t.dev.journal = [] ∧ t.fwReady = false
      ∧ t.get (Enc.posLo e.val) = s.get (Enc.posLo e.val) ∧ t.get (Enc.posHi e.val) = s.get (Enc.posHi e.val) ∧ t.now = s.now
      ∧ t.on Therm.tripSeen = s.on Therm.tripSeen ∧ t.get (Enc.filter e.val) = State.reset.get (Enc.filter e.val))
  ∧ (∀ (v : StrapIn) (s : State), s.mode = mBoot → s.get BootReg.step = 0 →
    Answers (.strapSample v) s fun t => t.get BootReg.role = boolNat v.role ∧ t.get BootReg.bootsrc = v.bootsrc.toNat ∧ t.get BootReg.twaddr = v.twaddr.toNat
      ∧ t.get TwT.base = 0x14 + v.twaddr.toNat ∧ t.get BootReg.step = 1 ∧ t.mem = s.mem)
  ∧ (∀ (s : State), s.dev.boot.restarting = true → s.dev.boot.swapStep = false → s.fwReady = false →
    Answers (.watchdogEscalation) s fun t => t.mode = mBoot ∧ t.get BootReg.step = 1 ∧ t.get BootReg.resetCause = 2 ∧ t.get ModeReg.cause = 9 ∧ t.get BootReg.role = s.get BootReg.role
      ∧ t.get BootReg.bootsrc = s.get BootReg.bootsrc ∧ t.get BootReg.twaddr = s.get BootReg.twaddr ∧ t.dev.journal = [])

/-- The boot ROM goes from step to step, fails with the code of Table 5-6, and firmware ends it (R79, R175, R180, R183, R184). -/
def Obligations.BootRuns : Prop :=
  (∀ (o : BootObs) (s : State), s.mode = mBoot → s.dev.boot.restarting = false → s.on BootReg.failed = false → s.tapHolds = false → s.get BootReg.step = 1 → s.supplyBad = none →
    Answers (.bootStepComplete o) s fun t => (o.pll = none → t.get BootReg.step = 2 ∧ t.on BootReg.failed = false) ∧ (∀ n ∈ o.pll, t.on BootReg.failed = true ∧ t.get BootReg.code = 2 ∧ t.get BootReg.failDetail = n % 0x100000000))
  ∧ (∀ (o : BootObs) (s : State), s.mode = mBoot → s.dev.boot.restarting = false → s.on BootReg.failed = false → s.tapHolds = false → s.get BootReg.step = 2 →
    Answers (.bootStepComplete o) s fun t => (o.sram = none → t.get BootReg.step = 3 ∧ t.dev.ecc = [] ∧ ∀ a, 0x100000000 ≤ a → a < 0x103000000 → t.byte a = 0) ∧ (∀ n ∈ o.sram, t.on BootReg.failed = true ∧ t.get BootReg.code = 3 ∧ t.mem = s.mem))
  ∧ (∀ (o : BootObs) (n : Nat) (s : State), s.mode = mBoot → s.dev.boot.restarting = false → s.on BootReg.failed = false → s.tapHolds = false → s.get BootReg.step = 3 → o.fuse = some n →
    Answers (.bootStepComplete o) s fun t => t.on BootReg.failed = true ∧ t.get BootReg.code = 4 ∧ t.get BootReg.failDetail = n % 0x100000000 ∧ t.get BootReg.step = 3)
  ∧ (∀ (s : State), s.mode = mBoot → s.on BootReg.waiting = true → s.get BootReg.source = 0 → s.dev.sec.injected = none →
    Answers (.bootGo) s fun t => t.on BootReg.waiting = false ∧ t.dev.boot.go = true ∧ t.get BootReg.attempt = (s.get BootReg.attempt + 1) % 16 ∧ t.get BootReg.code = 0)
  ∧ (∀ (s : State), 1 ≤ s.get BootReg.step → s.get BootReg.step ≤ 7 → s.on BootReg.waiting = false → s.on BootReg.failed = false → s.fwReady = false → s.tapHolds = false →
    Answers (.bootStepTimeout) s fun t => t.on BootReg.failed = true ∧ t.get BootReg.code = 0xD ∧ t.get BootReg.failDetail = s.get BootReg.step ∧ t.get BootReg.step = s.get BootReg.step)
  ∧ (∀ (s : State), s.get BootReg.step = 7 → s.mode ≠ mBoot → s.mode ≠ mStandby → s.on BootReg.failed = false → s.get Therm.state ≠ 4 → s.on Dbg.halted = false → s.fwReady = false → s.dev.boot.restarting = false → (s.dev.lateAnswers = []) →
    Answers (.firmwareReady) s fun t => t.fwReady = true ∧ t.get BootReg.step = 8 ∧ t.mode = s.mode)
  ∧ (∀ (s : State), s.watched = true → (s.dev.boot.expiries = []) → s.dev.boot.swapStep = false →
    Answers (.watchdogExpiry) s fun t => t.on BootReg.wdogSeen = true ∧ t.get BootReg.resetCause = 3 ∧ t.dev.boot.restarting = true ∧ t.fwReady = false)

/-- Camera links lock, fail to lock and are lost; an equalizer re-adaptation and an eye scan end (R193, R195, R196, R199, R200). -/
def Obligations.CameraLinksComeAndGo : Prop :=
  (∀ (n : Fin 56) (gear : Fin 6) (rtx : Bool) (rtt : BitVec 20) (s : State), s.on (Port.enable n.val) = true → s.get (Port.link n.val) = 1 →
    Answers (.portLinkLocked n gear rtx rtt) s fun t => t.get (Port.link n.val) = 2 ∧ (n.val < 48 → t.get (Port.gear n.val) = min gear.val (s.get (Port.rateCap n.val)))
      ∧ t.get (Port.rtt n.val) = (if n.val < 48 ∧ rtx = true ∧ s.on (Port.rtxEn n.val) = true then rtt.toNat else 0) ∧ (t.port n.val).attempts = 0)
  ∧ (∀ (n : Fin 56) (s : State), n.val < 48 → s.on (Port.enable n.val) = true → s.get (Port.link n.val) = 1 →
    Answers (.portStartupTimeout n) s fun t => (t.port n.val).attempts = (s.port n.val).attempts + 1 ∧ t.get (Port.link n.val) = 1)
  ∧ (∀ (n : Fin 48) (s : State), s.get (Port.link n.val) = 2 →
    Answers (.portLinkLoss n) s fun t => t.get (Port.link n.val) = 1 ∧ t.get (Port.rate n.val) = 0 ∧ t.on (Port.linkLost n.val) = true ∧ (t.port n.val).lost = true)
  ∧ (∀ (j : Fin 8) (s : State), (s.get (Port.link (48 + j.val)) = 2) →
    Answers (.comboBurstTimeout j) s fun t => t.get (Port.link (48 + j.val)) = 1 ∧ t.get (Port.rate (48 + j.val)) = 0 ∧ t.on (Port.linkLost (48 + j.val)) = true ∧ (t.port (48 + j.val)).lost = true)
  ∧ (∀ (n : Fin 48) (d : Nat) (s : State), s.get (Port.link n.val) = 2 → s.on (Port.rtxActive n.val) = true → d ≤ s.get (Port.rtxLimit n.val) →
    Answers (.aphyPacketReceive n d) s fun t => t.get (Port.lost n.val) = s.get (Port.lost n.val) ∧ t.get (Port.retrans n.val) = satNat (s.get (Port.retrans n.val) + d) 0xFFFFFFFF ∧ t.get (Port.linkErr n.val) = satNat (s.get (Port.linkErr n.val) + d) 0xFFFFFFFF)
  ∧ (∀ (n : Fin 48) (d : Nat) (s : State), s.get (Port.link n.val) = 2 → s.on (Port.rtxActive n.val) = true → s.get (Port.rtxLimit n.val) < d →
    Answers (.aphyPacketReceive n d) s fun t => t.get (Port.lost n.val) = satNat (s.get (Port.lost n.val) + 1) 0xFFFFFFFF ∧ t.get (Port.retrans n.val) = satNat (s.get (Port.retrans n.val) + s.get (Port.rtxLimit n.val)) 0xFFFFFFFF
      ∧ t.get (Port.linkErr n.val) = satNat (s.get (Port.linkErr n.val) + s.get (Port.rtxLimit n.val) + 1) 0xFFFFFFFF)
  ∧ (∀ (n : Fin 56) (e : Cmd) (s : State), ((s.dev.journal.find? fun x => x.cls = 4 && x.code = 8 && x.phase = .pending && x.val 1 = n.val) = some e) → s.awaited e.seq = false →
    Answers (.eqAdaptDone n) s fun t => (∀ x ∈ t.dev.journal, x.seq ≠ e.seq) ∧ (e.val 0x40 = 1 → t.on (Port.eqReadapt n.val) = true))
  ∧ (∀ (n : Fin 56) (counts : List (BitVec 32)) (e : Cmd) (s : State), ((s.dev.journal.find? fun x => x.cls = 4 && x.code = 9 && x.phase = .pending && x.val 1 = n.val) = some e) → s.awaited e.seq = false →
    Answers (.eyeScanDone n counts) s fun t => ∀ x ∈ t.dev.journal, x.seq ≠ e.seq)

/-- A packet is checked and steered to its queue, and a queue that holds a stranded tail is flushed (R206, R213, R432). A framer takes items
from its port buffer and opens, fills and closes lines and frames; time-outs close them (R212, R217, R218, R219). -/
def Obligations.PacketsReachFramers : Prop :=
  (∀ (n : Fin 56) (vc : Fin 32) (dt : Fin 64) (d : List Byte) (ok : Bool) (time : Nat) (s : State), s.portUp n.val .good = true → supportedDt dt.val = false → dt ≠ 0x10 → dt ≠ 0x11 →
    Answers (.csi2LongPacket n .good vc dt d ok time) s fun t => t.get (Port.unsupportedDt n.val) = satNat (s.get (Port.unsupportedDt n.val) + 1) 0xFFFFFFFF ∧ (t.port n.val).queues = (s.port n.val).queues)
  ∧ (∀ (n : Fin 56) (vc : Fin 32) (dt : Fin 64) (d : List Byte) (ok : Bool) (time : Nat) (e : Nat) (x : Steer) (s : State), s.portUp n.val .good = true → s.get (Port.link n.val) = 2 → supportedDt dt.val = true → dt.val < 0x30 → (((s.steers n.val).find? fun x => x.2.vc = vc.val && x.2.dt = dt.val) = some (e, x)) → x.action = 0 → ((s.port n.val).dropping = []) → ((d.length + 3 + 15) / 16 ≤ s.queueRoom n.val x.pipe) →
    Answers (.csi2LongPacket n .good vc dt d ok time) s fun t => (t.port n.val).queue x.pipe = (s.port n.val).queue x.pipe ++ [⟨0, vc.val, dt.val, time, d, false, ok, false, false⟩] ∧ (t.port n.val).ref = some (vc.val, dt.val))
  ∧ (∀ (n : Fin 56) (vc : Fin 32) (dt : Fin 16) (time : Nat) (s : State), s.portUp n.val .good = true → 8 ≤ dt.val →
    Answers (.csi2ShortPacket n .good vc dt time) s fun t => t.get (Port.shortOther n.val) = satNat (s.get (Port.shortOther n.val) + 1) 0xFFFFFFFF ∧ (t.port n.val).queues = (s.port n.val).queues)
  ∧ (∀ (n : Fin 56) (vc : Fin 32) (dt : Fin 16) (time : Nat) (s : State), s.on (Port.enable n.val) = true → s.get (Port.link n.val) = 2 →
    Answers (.csi2ShortPacket n .bad vc dt time) s fun t => t.get (Port.hdrUncorr n.val) = satNat (s.get (Port.hdrUncorr n.val) + 1) 0xFFFFFFFF ∧ t.on (Port.headerLost n.val) = true ∧ (t.port n.val).queues = (s.port n.val).queues)
  ∧ (∀ (q : QueueId) (v : Fin 4) (s : State), (∀ n k, q = .port n k → (s.port n.val).queue k.val ≠ []) →
    Answers (.queueStaleTimeout q v) s fun t => (Tbl.get (0, 0) t.dev.qcounts (queueOwner q)).2 = satNat ((Tbl.get (0, 0) s.dev.qcounts (queueOwner q)).2 + 1) 0xFFFFFFFFFFFFFFFF)
  ∧ (∀ (p : Fin 64) (n vc : Nat) (x : QItem) (s : State), (s.nextItem p.val = some (n, vc, x)) → x.kind = 1 → x.lostLine = false → s.on (Framer.area p.val) = false → (s.pipe p.val).line = none → (s.pipe p.val).frame = none → s.headOf n vc = none →
    Answers (.framerTakeLineHeader p) s fun t => (∃ l, (t.pipe p.val).line = some l ∧ l.port = n ∧ l.vc = vc ∧ l.time = x.time ∧ l.byStart = true ∧ l.bytes = [] ∧ l.dt = 0) ∧ (t.port n).queue (p.val % 8) = mapVc vc (fun _ => none) ((s.port n).queue (p.val % 8)))
  ∧ (∀ (p : Fin 64) (n vc : Nat) (x : QItem) (l : OpenLine) (c : Nat) (s : State), (s.nextItem p.val = some (n, vc, x)) → x.kind = 0 → x.taken = true → (s.pipe p.val).line = some l → c < x.data.length →
    Answers (.framerTakeLineData p c) s fun t => (t.pipe p.val).line = some { l with dt := x.dt, mark := Nat.lor l.mark (boolNat x.bad), bytes := if l.fate = 0 then l.bytes ++ x.data.take c else [] }
      ∧ (t.port n).queue (p.val % 8) = mapVc vc (fun y => some { y with data := y.data.drop c, taken := true }) ((s.port n).queue (p.val % 8)))
  ∧ (∀ (p : Fin 64) (n vc : Nat) (x : QItem) (l : OpenLine) (s : State), (s.nextItem p.val = some (n, vc, x)) → x.kind = 2 → (s.pipe p.val).resync = 0 → (s.pipe p.val).line = some l →
    Answers (.framerTakeLineEnd p) s fun t => (t.pipe p.val).line = none ∧ (t.port n).queue (p.val % 8) = mapVc vc (fun _ => none) ((s.port n).queue (p.val % 8)))
  ∧ (∀ (p : Fin 64) (n vc : Nat) (x : QItem) (s : State), (s.nextItem p.val = some (n, vc, x)) → x.kind = 2 → (s.pipe p.val).resync = 0 → (s.pipe p.val).line = none →
    Answers (.framerTakeLineEnd p) s fun t => t.get (Framer.missingLe p.val) = satNat (s.get (Framer.missingLe p.val) + 1) 0xFFFFFFFF ∧ (t.port n).queue (p.val % 8) = mapVc vc (fun _ => none) ((s.port n).queue (p.val % 8)))
  ∧ (∀ (p : Fin 64) (n vc : Nat) (x : QItem) (s : State), (s.nextItem p.val = some (n, vc, x)) → x.kind = 3 → s.on (Framer.area p.val) = true → (s.pipe p.val).frame = none → (s.pipe p.val).resync ≠ 1 → s.headOf n vc = none →
    Answers (.framerTakeFrameStart p) s fun t => (∃ f, (t.pipe p.val).frame = some f ∧ f.port = n ∧ f.vc = vc ∧ f.lines = []) ∧ (t.pipe p.val).resync = 0 ∧ (t.port n).queue (p.val % 8) = mapVc vc (fun _ => none) ((s.port n).queue (p.val % 8)))
  ∧ (∀ (p : Fin 64) (n vc : Nat) (x : QItem) (f : FrameSt) (s : State), (s.nextItem p.val = some (n, vc, x)) → x.kind = 4 → (s.pipe p.val).resync = 0 → s.on (Framer.area p.val) = true → (s.pipe p.val).frame = some f →
    Answers (.framerTakeFrameEnd p) s fun t => (t.pipe p.val).frame = none ∧ (t.pipe p.val).line = none ∧ (t.port n).queue (p.val % 8) = mapVc vc (fun _ => none) ((s.port n).queue (p.val % 8)))
  ∧ (∀ (p : Fin 64) (l : OpenLine) (s : State), (s.pipe p.val).line = some l →
    Answers (.lineTimeoutExpiry p) s fun t => (t.pipe p.val).line = none ∧ (t.pipe p.val).resync = 1 ∧ t.get (Framer.truncated p.val) = (if l.fate = 0 then satNat (s.get (Framer.truncated p.val) + 1) 0xFFFFFFFF else s.get (Framer.truncated p.val)))
  ∧ (∀ (p : Fin 64) (f : FrameSt) (s : State), (s.pipe p.val).frame = some f →
    Answers (.frameTimeoutExpiry p) s fun t => (t.pipe p.val).frame = none ∧ (t.pipe p.val).line = none ∧ (t.pipe p.val).resync = 2 ∧ t.get (Framer.frameTrunc p.val) = satNat (s.get (Framer.frameTrunc p.val) + 1) 0xFFFFFFFF)
  ∧ (∀ (p : Fin 64) (l : OpenLine) (n vc : Nat) (x : QItem) (s : State), (s.pipe p.val).line = some l → (s.pipe p.val).frame = none → (leastBy (fun x => x.2.2.time * 4096 + s.steerIndex p.val x.1 x.2.1 * 64 + x.1) ((s.fronts p.val).filter fun x => !(x.1 = l.port && x.2.1 = l.vc)) = some (n, vc, x)) →
    Answers (.timeSharedWaitExpiry p) s fun t => t.get (Framer.waitDrop p.val) = satNat (s.get (Framer.waitDrop p.val) + 1) 0xFFFFFFFF ∧ (t.pipe p.val).line = some l)

/-- An accepted change of A and B moves the position by one, an illegal one is a quadrature error, an index edge captures the position
(R227, R228, R231). A trigger generator latches its origin, fires indices at their thresholds or times, emits head triggers and opens and
closes their windows (R236, R237, R243, R249, R251, R443). -/
def Obligations.TriggersFire : Prop :=
  (∀ (e ab : Fin 4) (time : Nat) (s : State), s.on (Enc.enable e.val) = true → (quadStep (s.enc e.val).ab ab.val = 1 ∨ quadStep (s.enc e.val).ab ab.val = -1) →
    Answers (.encoderCount e ab time) s fun t => t.position e.val = signed 48 (unsigned 48 (s.position e.val + if s.on (Enc.reverseCount e.val) then -quadStep (s.enc e.val).ab ab.val else quadStep (s.enc e.val).ab ab.val))
      ∧ (t.enc e.val).ab = ab.val ∧ t.get (Enc.edgeNs e.val) = time % 1000000000)
  ∧ (∀ (e ab : Fin 4) (time : Nat) (s : State), s.on (Enc.enable e.val) = true → quadStep (s.enc e.val).ab ab.val = 2 →
    Answers (.encoderCount e ab time) s fun t => t.position e.val = s.position e.val ∧ t.on (Enc.qerr e.val) = true ∧ t.get (Enc.qerrCount e.val) = satNat (s.get (Enc.qerrCount e.val) + 1) 0xFFFFFFFF ∧ t.get (Enc.interval e.val) = 0xFFFFFFFF)
  ∧ (∀ (e : Fin 4) (time : Nat) (s : State), s.on (Enc.enable e.val) = true → s.on (Enc.indexEn e.val) = true →
    Answers (.encoderIndexEdge e time) s fun t => t.on (Enc.indexSeen e.val) = true ∧ t.get (Enc.idxPosLo e.val) + 0x100000000 * t.get (Enc.idxPosHi e.val) = unsigned 48 (s.position e.val) ∧ t.get (Enc.idxNs e.val) = time % 1000000000
      ∧ t.position e.val = (if s.on (Enc.indexZero e.val) then 0 else s.position e.val) ∧ t.on (Enc.indexZero e.val) = false)
  ∧ (∀ (i : Fin 16) (t0 : Nat) (s : State), (s.stream i.val).startAt = some t0 → s.sState i.val = sStarted →
    Answers (.originLatch i) s fun t => (t.stream i.val).startAt = none ∧ t.on (Trig.armed i.val) = true ∧ (t.gen i.val).start = t0 ∧ (t.gen i.val).n0 = s.next i.val ∧ (t.gen i.val).issuing = true
      ∧ t.get (Trig.originLo i.val) = (if s.get (Trig.source i.val) < 4 then s.get (Enc.posLo (s.get (Trig.source i.val))) else 0))
  ∧ (∀ (i : Fin 16) (tm : Nat) (s : State), (s.gen i.val).issuing = true → s.get (Trig.source i.val) < 4 → s.earliest i.val = some tm → (s.dueTime i.val (s.baseThr i.val (s.next i.val) / 0x100000000) (s.baseThr i.val (s.next i.val) % 0x100000000) = some tm) →
    Answers (.thresholdFire i) s fun t => t.next i.val = (s.next i.val + 1) % 0x1000000000000)
  ∧ (∀ (i : Fin 16) (s : State), (s.gen i.val).issuing = true → s.get (Trig.source i.val) = 4 →
    Answers (.timeSourceFire i) s fun t => t.next i.val = (s.next i.val + 1) % 0x1000000000000)
  ∧ (∀ (i : Fin 16) (x : Emit) (s : State), leastBy Emit.time (s.gen i.val).emits = some x → s.on (Head.route i.val x.head) = true →
    Answers (.headTriggerEmit i) s fun t => x ∉ (t.gen i.val).emits ∧ ⟨x.head, x.index, x.exposure + s.get (Head.hdrMin i.val x.head), x.exposure + s.get (Head.hdrMax i.val x.head), false, false, false⟩ ∈ (t.gen i.val).wins
      ∧ (.pinTrigger (s.get (Head.line i.val x.head)) (s.on (Head.polarity i.val x.head)) i.val x.head x.index (x.time / 1000000000) (x.time % 1000000000)) ∈ t.out)
  ∧ (∀ (i : Fin 16) (w : Win) (s : State), (leastBy Win.lo ((s.gen i.val).wins.filter fun w => !w.opened) = some w) → (s.dev.swaps = []) →
    Answers (.headWindowOpen i) s fun t => (t.gen i.val).wins = (s.gen i.val).wins.map (fun y => if y = w then { y with opened := true } else y) ∧ t.regs = s.regs)
  ∧ (∀ (i : Fin 16) (w : Win) (s : State), (leastBy Win.hi ((s.gen i.val).wins.filter fun w => !w.shut) = some w) → s.arriving i.val w = false → w.head < 256 →
    Answers (.headWindowClose i) s fun t => w ∉ (t.gen i.val).wins ∧ t.get (Head.absent i.val w.head) = (if w.bound then s.get (Head.absent i.val w.head) else satNat (s.get (Head.absent i.val w.head) + 1) 0xFFFF))
  ∧ (∀ (c : Fin 8) (rt : Option Nat) (e : Cmd) (s : State), s.pendingCmd 5 6 (nidCluster c.val) = some e → s.awaited e.seq = false →
    Answers (.linkLatencyDone c rt) s fun t => ∀ x ∈ t.dev.journal, x.seq ≠ e.seq)

/-- The time base reaches its alarm, ends a slew and drives its outputs; pins capture (R255, R258, R259, R264, R265, R266). -/
def Obligations.TimeBaseAndPins : Prop :=
  (∀ (s : State), s.dev.time.alarmArmed = true → s.now < s.alarmAt → s.get TimeReg.alarmNs < 1000000000 →
    Answers (.timeAlarm) s fun t => t.now = s.alarmAt ∧ t.on TimeReg.alarmHit = true ∧ t.dev.time.alarmArmed = false)
  ∧ (∀ (a e : Nat) (s : State), (s.dev.time.slew = some (a, e)) → (a < 2 ^ 64) →
    Answers (.slewEnd) s fun t => t.addend = a ∧ t.dev.time.slew = none)
  ∧ (∀ (s : State), 
    Answers (.ppsOutRise) s fun t => t.out = .ppsOut true :: s.out ∧ t.regs = s.regs ∧ t.mem = s.mem ∧ t.dev = s.dev)
  ∧ (∀ (s : State), 
    Answers (.ppsOutFall) s fun t => t.out = .ppsOut false :: s.out ∧ t.regs = s.regs ∧ t.mem = s.mem ∧ t.dev = s.dev)
  ∧ (∀ (u : Fin 16) (s : State), s.on (Pulse.enable u.val) = true → (u.val ∉ s.dev.time.pulseHigh) →
    Answers (.pulseStart u) s fun t => t.dev.time.pulseHigh = u.val :: s.dev.time.pulseHigh ∧ t.regs = s.regs)
  ∧ (∀ (u : Fin 16) (s : State), (u.val ∈ s.dev.time.pulseHigh) →
    Answers (.pulseEnd u) s fun t => u.val ∉ t.dev.time.pulseHigh ∧ t.pulseNo u.val = s.pulseNo u.val + 1
      ∧ (s.on (Pulse.periodic u.val) = false → t.on (Pulse.enable u.val) = false))
  ∧ (∀ (j : Fin 32) (rising : Bool) (ns frac : Nat) (s : State), (s.get (Pin.func j.val) = 3 ∨ s.get (Pin.func j.val) = 4) → s.on (Pin.invert j.val) = false → s.get (Pin.edge j.val) = 3 → ((Tbl.get [] s.dev.time.captures j.val).length < 16) →
    Answers (.timingPinEdge j rising ns frac) s fun t => Tbl.get [] t.dev.time.captures j.val = Tbl.get [] s.dev.time.captures j.val ++ [leBytes 8 (ns / 1000000000) ++ leBytes 4 (ns % 1000000000) ++ leBytes 2 frac ++ leBytes 1 (if rising then 1 else 2) ++ [0]]
      ∧ t.get (Pin.capLevel j.val) = (Tbl.get [] s.dev.time.captures j.val).length + 1)
  ∧ (∀ (ns frac : Nat) (s : State), 
    Answers (.ppsInEdge ns frac) s fun t => t.dev.time.ppsIn = some ns ∧ (s.get TimeReg.source = 3 → t.on TimeReg.holdover = false)
      ∧ ((Tbl.get [] s.dev.time.captures 32).length < 16 → (Tbl.get [] t.dev.time.captures 32).length = (Tbl.get [] s.dev.time.captures 32).length + 1)
      ∧ (16 ≤ (Tbl.get [] s.dev.time.captures 32).length → t.get (Pin.capLost 32) = satNat (s.get (Pin.capLost 32) + 1) 0xFFFF))
  ∧ (∀ (s : State), s.get TimeReg.source = 3 →
    Answers (.ppsInTimeout) s fun t => t.on TimeReg.ppsInLost = true ∧ t.on TimeReg.holdover = true)

/-- The time port locks and loses lock, checks frames, and sends and times out PTP messages by its role (R258, R260, R261, R262). -/
def Obligations.TimePortSpeaksPtp : Prop :=
  (∀ (x : Bool) (s : State), s.domainOn 11 = true →
    Answers (.timePortPcsLock x) s fun t => t.on TPort.pcsLock = true ∧ t.get TPort.lineRate = (if x then 2 else 1) ∧ (s.dev.ptp.role = 1 → t.get TPort.portState = 4) ∧ (2 ≤ s.dev.ptp.role → t.get TPort.portState = 6))
  ∧ (∀ (s : State), 
    Answers (.timePortPcsLockLoss) s fun t => t.on TPort.pcsLock = false ∧ t.get TPort.lineRate = 0)
  ∧ (∀ (f : List Byte) (time : Nat) (s : State), s.on TPort.pcsLock = true →
    Answers (.ptpFrameReceive f false time) s fun t => t.get TPort.fcsErr = satNat (s.get TPort.fcsErr + 1) 0xFFFFFFFF ∧ t.dev.ptp = s.dev.ptp)
  ∧ (∀ (f : List Byte) (time : Nat) (s : State), s.on TPort.pcsLock = true → ptpOf f = none →
    Answers (.ptpFrameReceive f true time) s fun t => t.get TPort.nonPtp = satNat (s.get TPort.nonPtp + 1) 0xFFFFFFFF ∧ t.dev.ptp = s.dev.ptp)
  ∧ (∀ (f b : List Byte) (time : Nat) (s : State), s.on TPort.pcsLock = true → ptpOf f = some b → s.dev.ptp.role = 1 → (leAt b 0 1 % 16 = 0) → (leAt b 1 1 % 16 = 2) → leAt b 4 1 = s.dev.ptp.domain → slice b 20 10 = s.dev.ptp.parent → bit (leAt b 6 1) 1 = true →
    Answers (.ptpFrameReceive f true time) s fun t => t.get TPort.rxPtp = satNat (s.get TPort.rxPtp + 1) 0xFFFFFFFF ∧ t.dev.ptp.t2 = some (time : Int) ∧ t.dev.ptp.twoStepSeq = some (beVal (slice b 30 2)))
  ∧ (∀ (s : State), s.dev.ptp.role ≠ 0 →
    Answers (.ptpAnnounceTimeout) s fun t => t.get TPort.portState = (if s.dev.ptp.role = 1 then 4 else 6) ∧ t.get TPort.announceTimeout = satNat (s.get TPort.announceTimeout + 1) 0xFFFFFFFF ∧ (s.dev.ptp.role = 1 → t.on TimeReg.holdover = true))
  ∧ (∀ (s : State), s.on TPort.pcsLock = true → 2 ≤ s.dev.ptp.role → s.get TPort.portState = 6 →
    Answers (.ptpMessageTransmit 0) s fun t => t.dev.ptp.annSeq = (s.dev.ptp.annSeq + 1) % 65536 ∧ t.dev.ptp.syncSeq = s.dev.ptp.syncSeq ∧ ∃ f, t.out = .timeFrame f :: s.out)
  ∧ (∀ (s : State), s.on TPort.pcsLock = true → 2 ≤ s.dev.ptp.role → s.get TPort.portState = 6 →
    Answers (.ptpMessageTransmit 1) s fun t => t.dev.ptp.syncSeq = (s.dev.ptp.syncSeq + 1) % 65536 ∧ t.dev.ptp.annSeq = s.dev.ptp.annSeq ∧ t.out.length = s.out.length + (if s.dev.ptp.oneStep then 1 else 2))
  ∧ (∀ (s : State), s.on TPort.pcsLock = true → (s.dev.ptp.role = 1 ∨ s.dev.ptp.peer = true) →
    Answers (.ptpMessageTransmit 2) s fun t => t.dev.ptp.delaySeq = (s.dev.ptp.delaySeq + 1) % 65536 ∧ t.dev.ptp.t3 = some (s.now : Int) ∧ t.out.length = s.out.length + 1)

/-- The transfers of the pixel stages finish the command that waits for them, and the bank, the result or the record is there (R265, R269,
R281, R285, R314). -/
def Obligations.StageTransfersComplete : Prop :=
  (∀ (p : Fin 64) (e : Cmd) (c : Ctx) (s : State), s.pendingCmd 6 5 (nidPipe p.val) = some e → e.ctx s = some c → s.awaited e.seq = false → leVal (c.kept s 1) < 2 → s.loadable p.val (leVal (c.kept s 1)) = true → c.val 0x31 < 2 →
    Answers (.gaugeLoadDone p) s fun t => ∀ x ∈ t.dev.journal, x.seq ≠ e.seq
      ∧ t.get (bankState p.val (leVal (c.kept s 1))) = 1
      ∧ (c.val 0x31 % 2 = 1 → (c.kept s 0).length = 0x10000 → t.bytes (gaugeBase p.val (leVal (c.kept s 1))) 0x10000 = c.kept s 0))
  ∧ (∀ (p : Fin 64) (e : Cmd) (c : Ctx) (s : State), s.pendingCmd 6 7 (nidPipe p.val) = some e → e.ctx s = some c → s.awaited e.seq = false → (e.find 0xF004).isSome = true → (e.val 0xF004 + 0x11000 ≤ 0x400000) →
    Answers (.gaugeReadDone p) s fun t => ∀ x ∈ t.dev.journal, x.seq ≠ e.seq
      ∧ t.bytes (stagingBase + e.val 0xF004) 0x11000 = s.bankBytes p.val (c.val 0x42))
  ∧ (∀ (c : Fin 8) (e : Cmd) (s : State), s.pendingCmd 6 10 (nidCluster c.val) = some e → (e.ctx s).isSome = true → s.awaited e.seq = false → (e.find 0xF004).isSome = true → (e.val 0xF004 + 0x20000 ≤ 0x400000) →
    Answers (.swatchReadDone c) s fun t => ∀ x ∈ t.dev.journal, x.seq ≠ e.seq
      ∧ t.bytes (stagingBase + e.val 0xF004) 0x20000 = s.bytes (swatchBase c.val) 0x20000)
  ∧ (∀ (p : Fin 64) (e : Cmd) (c : Ctx) (s : State), s.pendingCmd 6 11 (nidPipe p.val) = some e → e.ctx s = some c → s.awaited e.seq = false → leVal (c.kept s 0) < 2 → s.loadable p.val (leVal (c.kept s 0)) = true → (s.pipe p.val).owns = true → s.get (Corr.state p.val) = 2 →
    Answers (.gaugeComputeDone p) s fun t => ∀ x ∈ t.dev.journal, x.seq ≠ e.seq
      ∧ t.get (bankState p.val (leVal (c.kept s 0))) = 1 ∧ t.get (crcReg p.val (leVal (c.kept s 0))) = t.bankCrc p.val (leVal (c.kept s 0)))
  ∧ (∀ (p : Fin 64) (e : Cmd) (c : Ctx) (s : State), s.pendingCmd 7 6 (nidPipe p.val) = some e → e.ctx s = some c → s.awaited e.seq = false → (e.find 0xF004).isSome = true → (e.val 0xF004 + e.val 0xF005 ≤ 0x400000) →
    Answers (.statsReadDone p) s fun t => ∀ x ∈ t.dev.journal, x.seq ≠ e.seq
      ∧ ∀ m ≤ (s.lastRecord p.val (c.val 0x35)).length, m = e.val 0xF005 → t.bytes (stagingBase + e.val 0xF004) m = (s.lastRecord p.val (c.val 0x35)).take m)

/-- A finished line fills its slot, a row closes at its deadline or when every slot is resolved, the close phase numbers it, and the last
coded segment makes its record (R340, R342, R344, R364, R367, R378). The descriptor of a job is taken from its ring, its rows are coded and
its completion is written (R394, R395, R396). -/
def Obligations.RowsAndJobsRun : Prop :=
  (∀ (i : Fin 16) (e : Cmd) (s : State), (s.pendingCmd 9 2 (0x10000 + i.val) = some e) → (e.ctx s).isSome = true → s.awaited e.seq = false →
    Answers (.geometrySetDone i) s fun t => ∀ x ∈ t.dev.journal, x.seq ≠ e.seq)
  ∧ (∀ (p : Fin 64) (o : OutLine) (rest : List OutLine) (s : State), ((s.pipe p.val).out = o :: rest) → (∀ r ∈ (s.asm o.stream).rows, r.index = o.index → r.line = o.y → r.closed = none ∧ (r.slots.map SlotSt.head).Nodup) → o.stream < 16 →
    Answers (.slotComplete p) s fun t => (t.pipe p.val).out = rest ∧ ∀ r ∈ (t.asm o.stream).rows, r.index = o.index → r.line = o.y → ∀ x ∈ r.slots, x.head = o.head → x.st ≠ 1)
  ∧ (∀ (i : Fin 16) (r : RowSt) (s : State), s.on BootReg.role = false → ((s.asm i.val).rows.find? (fun r => r.closed.isNone) = some r) → s.row i.val r.index r.line = some r →
    Answers (.rowDeadline i) s fun t => ((t.row i.val r.index r.line).bind RowSt.closed) = some s.now ∧ ((r.slots.any fun x => x.st < 2) = true → t.get (Asm.deadlineCloses i.val) = satNat (s.get (Asm.deadlineCloses i.val) + 1) 0xFFFFFFFF))
  ∧ (∀ (i : Fin 16) (r : RowSt) (s : State), s.on BootReg.role = false → ((s.asm i.val).rows.find? (fun r => !r.coding) = some r) → r.closed.isSome = true →
    Answers (.rowClosePhase i) s fun t => (t.stream i.val).seq = ((s.stream i.val).seq + 1) % 0x1000000000000 ∧ ∀ x ∈ (t.asm i.val).rows, x.index = r.index → x.line = r.line → x.coding = true)
  ∧ (∀ (i : Fin 16) (r : RowSt) (rest : List RowSt) (q : Nat) (s : State), s.on BootReg.role = true → ((s.asm i.val).rows = r :: rest) → s.upstream = some q →
    Answers (.satellitePartClose i) s fun t => (∀ x ∈ (t.asm i.val).rows, ¬(x.index = r.index ∧ x.line = r.line)) ∧ t.get (Asm.rows i.val) = satNat (s.get (Asm.rows i.val) + 1) 0xFFFFFFFF)
  ∧ (∀ (i : Fin 16) (k : Fin 62) (r : RowSt) (g : SegJob) (s : State), ((s.asm i.val).rows.find? (fun r => r.coding) = some r) → s.row i.val r.index r.line = some r → (r.segs[k.val]? = some g) → g.done = none →
    Answers (.segmentCodeDone i k) s fun t => if r.segs.zipIdx.all (fun x => x.2 = k.val || x.1.done.isSome) then
      t.get (Asm.rows i.val) = satNat (s.get (Asm.rows i.val) + 1) 0xFFFFFFFF ∧ ∀ x ∈ (t.asm i.val).rows, ¬(x.index = r.index ∧ x.line = r.line)
    else ((t.row i.val r.index r.line).bind fun x => (x.segs[k.val]?).bind SegJob.done) = some (t.codeSegment i.val r k.val g).bytes)
  ∧ (∀ (j : Fin 4) (s : State), (s.on (Ring.enable (34 + j.val)) = true) → s.job j.val = none → (s.get (Ring.devIndex (34 + j.val)) ≠ s.get (Ring.hostIndex (34 + j.val))) → s.dev.pwr.inEffect.contains 1 = false → ((s.pci (s.ringFn (34 + j.val))).busMaster = true) → 0 < s.get (Ring.count (34 + j.val)) →
    Answers (.jobDescriptorTake j) s fun t => t.get (Ring.devIndex (34 + j.val)) = (s.get (Ring.devIndex (34 + j.val)) + 1) % 0x100000000 ∧ t.get (RootCod.jobState j.val) = 1 ∧ (t.job j.val).isSome = true)
  ∧ (∀ (j : Fin 4) (w : JobSt) (d : JobDesc) (a : Nat) (o : List Byte × Nat × Nat × Nat) (s : State), s.job j.val = some w → (w.desc ≠ []) → w.ended = none → s.get (RootCod.jobState j.val) ≠ 2 → d = jobDesc w.desc → a = d.src + w.inOff → inWindow a d.inBytes = false → (s.eccIn a d.inBytes 2 = []) → (o = jobRow d w.next (s.bytes a d.inBytes) (d.dstLen - w.outOff)) → (s.jobBad (s.jobWorld j.val) (d.dst + w.outOff) o.1.length true = none) → (bit d.flags 1 = true → s.jobBad (s.jobWorld j.val) (d.statusAddr + w.next) 1 true = none) →
    Answers (.jobRowDone j) s fun t => t.get (RootCod.jobRows j.val) = satNat (s.get (RootCod.jobRows j.val) + 1) 0xFFFFFFFF
      ∧ (bit d.flags 1 = false → isOutWindow (d.dst + w.outOff) = false → t.bytes (d.dst + w.outOff) o.1.length = o.1)
      ∧ ∀ u ∈ t.job j.val, u.rows = w.rows + 1 ∧ u.made = w.made + o.1.length)
  ∧ (∀ (j : Fin 4) (w : JobSt) (st : Nat) (s : State), s.job j.val = some w → w.ended = some st → (s.on (Ring.enable (38 + j.val)) = true) → (s.ringFree (38 + j.val) ≠ 0) →
    Answers (.jobEnd j) s fun t => t.job j.val = none ∧ t.get (RootCod.jobState j.val) = 0 ∧ t.get (Ring.devIndex (38 + j.val)) = (s.get (Ring.devIndex (38 + j.val)) + 1) % 0x100000000
      ∧ (st = 0 → t.get (RootCod.jobsDone) = satNat (s.get (RootCod.jobsDone) + 1) 0xFFFFFFFF))

/-- An admission ends admitted or refused with its reason, a stopped stream reports itself, a closing stream is released (R398, R401, R404,
R405, R414). -/
def Obligations.StreamsAreAdmittedAndEnd : Prop :=
  (∀ (e : Cmd) (c : Ctx) (g : Grant) (s : State), s.pendingCmd 11 1 1 = some e → e.ctx s = some c → s.awaited e.seq = false → c.val 1 < 16 → s.mode ≠ mStandby → s.mode ≠ mMaintenance → s.mode ≠ mSafeHold → s.admitted (c.val 1) = false → s.grade (c.contract s) c.take = .inr g →
    Answers (.streamAdmitDone) s fun t => ∀ x ∈ t.dev.journal, x.seq ≠ e.seq ∧ t.sState (c.val 1) = sAdmitted ∧ t.get (Del.boundNs (c.val 1)) = satNat g.bound 0xFFFFFFFF ∧ t.get (Del.slots (c.val 1)) = g.slots % 256)
  ∧ (∀ (e : Cmd) (c : Ctx) (f : Nat × List Tlv) (s : State), s.pendingCmd 11 1 1 = some e → e.ctx s = some c → s.awaited e.seq = false → admitFails c s = some f →
    Answers (.streamAdmitDone) s fun t => ∀ x ∈ t.dev.journal, x.seq ≠ e.seq ∧ t.sState (c.val 1) = s.sState (c.val 1) ∧ t.dev.streams = s.dev.streams)
  ∧ (∀ (i : Fin 16) (s : State), ((s.asm i.val).rows = []) → s.sState i.val = sStopping →
    Answers (.streamStopped i) s fun t => t.sState i.val = sAdmitted ∧ t.get (Trig.armed i.val) = 0)
  ∧ (∀ (i : Fin 16) (cause : Nat) (s : State), (s.stream i.val).closing = some cause → ((s.asm i.val).rows = []) → s.sState i.val ≠ sStopping → ((s.stream i.val).flight = []) → (∀ r ∈ (s.stream i.val).fifo.head?, s.canLeave i.val r = false) → (s.stream i.val).dropped ≤ 0xFFFFFFFFFFFFFFFF →
    Answers (.streamClosed i) s fun t => t.sState i.val = 0 ∧ t.get (Del.slots i.val) = 0 ∧ t.get (Del.egressGranules i.val) = 0 ∧ (t.stream i.val).egressGranules = [] ∧ (t.stream i.val).closing = none
      ∧ (t.stream i.val).dropped = satNat ((s.stream i.val).dropped + ((s.stream i.val).fifo.filter fun r => !r.side).length) 0xFFFFFFFFFFFFFFFF)

/-- A record leaves its egress FIFO when its ring has room, is written to its ring and counted once delivered (R411, R418, R421, R422,
R424). -/
def Obligations.RecordsReachTheirRings : Prop :=
  (∀ (i : Fin 16) (r : EgRec) (rest : List EgRec) (s : State), ((s.stream i.val).fifo = r :: rest) → r.side = false → s.canLeave i.val r = true → (s.pci (s.ringFn i.val)).busMaster = true →
    Answers (.egressRecordDepart i) s fun t => (t.stream i.val).fifo = rest ∧ (t.stream i.val).flight = (s.stream i.val).flight ++ [r]
      ∧ t.get (Ring.devIndex i.val) = (s.get (Ring.devIndex i.val) + 1) % 0x100000000)
  ∧ (∀ (i : Fin 16) (r : EgRec) (rest : List EgRec) (s : State), ((s.stream i.val).fifo = r :: rest) → s.canLeave i.val r = false →
    Answers (.egressRecordDepart i) s fun t => (t.stream i.val).fifo = r :: rest ∧ (t.stream i.val).stalled = true ∧ ((s.stream i.val).stalled = false → t.on (Ring.stalled (if r.side then 16 + i.val else i.val)) = true))
  ∧ (∀ (tt : Fin 256) (s : State), (tt.val % 8 = 7) →
    Answers (.carouselSlotStart tt) s fun t => t.regs = s.regs ∧ t.mem = s.mem ∧ t.dev = s.dev ∧ t.out = s.out)
  ∧ (∀ (tt : Fin 256) (i : Fin 16) (r : EgRec) (rest : List EgRec) (s : State), (tt.val % 8 ≠ 7) → s.get (Car.owner tt.val) = i.val → ((s.stream i.val).fifo = r :: rest) → s.canLeave i.val r = true → (s.get Car.slotBytes < r.size - r.moved) → (∀ j : Fin 16, j ≠ i → (s.stream j.val).fifo = []) →
    Answers (.carouselSlotStart tt) s fun t => (t.stream i.val).fifo = { r with moved := r.moved + s.get Car.slotBytes } :: rest ∧ t.regs = s.regs ∧ t.mem = s.mem)
  ∧ (∀ (s : State), 
    Answers (.carouselRotationBoundary) s fun t => t.dev.slotPlan = [] ∧ t.get Car.slotBytes = slotBytes s.rawBpc (s.get Car.fastFlits) % 0x10000 ∧ ∀ p ∈ s.dev.slotPlan, (s.dev.slotPlan.map Prod.fst).Nodup → p.1 < 256 → p.2 < 16 → t.get (Car.owner p.1) = p.2)
  ∧ (∀ (ring : Fin 42) (s : State), s.on (Ring.enable ring.val) = true →
    Answers (.devIndexUpdate ring) s fun t => (t.ringSt ring.val).announced = s.get (Ring.devIndex ring.val)
      ∧ (s.on (Ring.irqEn ring.val) = true → s.get (Ring.devIndex ring.val) ≠ (s.ringSt ring.val).announced → (t.ringSt ring.val).owed = s.inHoldoff ring.val))
  ∧ (∀ (ring : Fin 42) (s : State), (s.ringSt ring.val).owed = true → s.on (Ring.irqEn ring.val) = true →
    Answers (.ringHoldoffExpiry ring) s fun t => (t.ringSt ring.val).owed = false ∧ (t.ringSt ring.val).lastMsg = some s.now)
  ∧ (∀ (i : Fin 16) (cause : Fin 7) (comp : Nat) (r : EgRec) (rest : List EgRec) (s : State), ((s.stream i.val).flight = r :: rest) →
    Answers (.recordDelivered i cause comp) s fun t => (t.stream i.val).flight = rest ∧ (t.stream i.val).rows = (s.stream i.val).rows + 1 ∧ (t.stream i.val).lastSeq = r.seq
      ∧ t.get (Del.worstNs i.val) = max (s.get (Del.worstNs i.val)) (satNat (s.now - r.trigger) 0xFFFFFFFF)
      ∧ t.get (Del.delivered i.val) = satNat (s.get (Del.delivered i.val) + 1) 0xFFFFFFFF)
  ∧ (∀ (i : Fin 16) (seq : Nat) (cause : Fin 7) (comp : Nat) (s : State), s.undelivered i.val seq = true → (seq ∉ (s.stream i.val).judged) →
    Answers (.boundExpiry i seq cause comp) s fun t => if s.on (Del.suspended i.val) then t.get (Del.lateSuspended i.val) = satNat (s.get (Del.lateSuspended i.val) + 1) 0xFFFFFFFF
    else t.get (Del.violations i.val) = satNat (s.get (Del.violations i.val) + 1) 0xFFFFFFFF ∧ t.on (Del.violation i.val) = true)
  ∧ (∀ (fn : Fin 2) (ring : Fin 42) (v : BitVec 32) (s : State), (s.check fn.val .bar0 (0x9020 + 0x40 * ring.val) true = 0) → s.dev.sec.injected = none → (if ring.val < 34 ∨ 38 ≤ ring.val then (s.get (Ring.devIndex ring.val) + 0x100000000 - v.toNat) % 0x100000000 ≤ s.get (Ring.count ring.val) else (v.toNat + 0x100000000 - s.get (Ring.devIndex ring.val)) % 0x100000000 ≤ s.get (Ring.count ring.val)) →
    Answers (.hostIndexWrite fn ring v) s fun t => t.get (Ring.hostIndex ring.val) = v.toNat)
  ∧ (∀ (fn : Fin 2) (ring : Fin 42) (v : BitVec 32) (s : State), (s.check fn.val .bar0 (0x9020 + 0x40 * ring.val) true = 0) → s.dev.sec.injected = none → (if ring.val < 34 ∨ 38 ≤ ring.val then s.get (Ring.count ring.val) < (s.get (Ring.devIndex ring.val) + 0x100000000 - v.toNat) % 0x100000000 else s.get (Ring.count ring.val) < (v.toNat + 0x100000000 - s.get (Ring.devIndex ring.val)) % 0x100000000) →
    Answers (.hostIndexWrite fn ring v) s fun t => t.get (Ring.hostIndex ring.val) = s.get (Ring.hostIndex ring.val) ∧ t.on (Ring.badIndex ring.val) = true)

/-- Lanes lock and lose lock, and a link leaves DOWN when its lane 0 locks (R450, R452). A link exchanges INIT packets in BASE, trains, and
enters UP with the lanes that locked (R452, R453, R454). A link restart counts, raises EPOCH, starts sequences afresh and returns to UP;
without an answer the link goes DOWN (R452, R459). -/
def Obligations.CascadeLinksTrainAndRestart : Prop :=
  (∀ (q l : Fin 4) (s : State), s.quadPowered q.val = true →
    Answers (.cascadeLaneLock q l) s fun t => t.on (Lane.lock q.val l.val) = true ∧ bit (t.get (Quad.laneLock q.val)) l.val = true
      ∧ (l.val = 0 ∧ s.get (Quad.lstate q.val) = lDown → t.get (Quad.lstate q.val) = lBase))
  ∧ (∀ (q l : Fin 4) (s : State), s.on (Lane.lock q.val l.val) = true →
    Answers (.cascadeLaneLockLoss q l) s fun t => t.on (Lane.lock q.val l.val) = false
      ∧ t.get (Lane.lockLosses q.val l.val) = satNat (s.get (Lane.lockLosses q.val l.val) + 1) 0xFFFF
      ∧ (s.get (Quad.lstate q.val) = lUp ∧ s.get (Quad.laneLock q.val) = 2 ^ l.val → t.get (Quad.lstate q.val) = lDown))
  ∧ (∀ (q : Fin 4) (s : State), 
    Answers (.cascadeBadBlock q) s fun t => t.get (Quad.badBlock q.val) = satNat (s.get (Quad.badBlock q.val) + 1) 0xFFFFFFFF)
  ∧ (∀ (q : Fin 4) (s : State), s.quadPowered q.val = true → s.get (Quad.lstate q.val) = lBase →
    Answers (.cascadeInitTimer q) s fun t => t.out = .initPacket q.val (initBytes (s.ownInit q.val !(s.quad q.val).peer.nonce.isEmpty)) :: s.out ∧ t.regs = s.regs)
  ∧ (∀ (q : Fin 4) (p : InitInfo) (s : State), s.get (Quad.lstate q.val) = lBase → p.ack = true →
    Answers (.cascadeInitReceive q p) s fun t => t.get (Quad.lstate q.val) = lTrain ∧ t.get (Quad.rate q.val) = min (s.get (Quad.rateCap q.val)) p.rateCap
      ∧ t.get (Quad.width q.val) = min (s.get (Quad.widthCap q.val)) p.widthCap ∧ (t.quad q.val).peer = p)
  ∧ (∀ (q : Fin 4) (s : State), s.get (Quad.lstate q.val) = lTrain →
    Answers (.cascadeTrainTimeout q) s fun t => t.get (Quad.lstate q.val) = lBase ∧ t.get (Quad.rate q.val) = 1 ∧ t.get (Quad.width q.val) = 0 ∧ (t.quad q.val).peer = InitInfo.none)
  ∧ (∀ (q : Fin 4) (u : LinkUp) (w : Nat) (s : State), s.get (Quad.lstate q.val) = lTrain → (widthOf (s.get (Quad.width q.val)) (u.lanes.map fun x => x.2.1.val) = some w) →
    Answers (.cascadeLinkUp q u) s fun t => t.get (Quad.lstate q.val) = lUp ∧ t.get (Quad.width q.val) = w ∧ t.get (Quad.rate q.val) = s.get (Quad.rate q.val)
      ∧ t.get (Quad.epoch q.val) = (s.get (Quad.epoch q.val) + 1) % 65536 ∧ t.on (Quad.deskewed q.val) = true
      ∧ (t.quad q.val).key = s.linkKey q.val ∧ (t.quad q.val).echoes = 16)
  ∧ (∀ (q : Fin 4) (epoch : BitVec 16) (s : State), s.get (Quad.lstate q.val) = lUp →
    Answers (.cascadeRestart q epoch) s fun t => t.get (Quad.lstate q.val) = lUp ∧ t.get (Quad.epoch q.val) = (s.get (Quad.epoch q.val) + 1) % 65536
      ∧ t.get (Quad.restarts q.val) = satNat (s.get (Quad.restarts q.val) + 1) 0xFFFFFFFF ∧ t.on (Quad.restarted q.val) = true
      ∧ (t.quad q.val).rxSeq = 0 ∧ (t.quad q.val).trigUnacked = [])
  ∧ (∀ (q : Fin 4) (s : State), s.get (Quad.lstate q.val) = lRestart →
    Answers (.cascadeRestartAck q) s fun t => t.get (Quad.lstate q.val) = lUp ∧ t.get (Quad.epoch q.val) = (s.get (Quad.epoch q.val) + 1) % 65536
      ∧ (t.quad q.val).rxSeq = 0 ∧ (t.quad q.val).trigUnacked = [] ∧ (t.quad q.val).restart = false)
  ∧ (∀ (q : Fin 4) (s : State), s.get (Quad.lstate q.val) = lRestart →
    Answers (.cascadeRestartTimeout q) s fun t => t.get (Quad.lstate q.val) = lDown ∧ t.get (Quad.width q.val) = 0)
  ∧ (∀ (q : Fin 4) (x : TxPacket) (xs : List TxPacket) (s : State), s.get (Quad.lstate q.val) = lUp → ((s.quad q.val).unacked = x :: xs) → 3 ≤ x.retries →
    Answers (.cascadeReplayTimeout q) s fun t => t.get (Quad.lstate q.val) = lRestart ∧ (t.quad q.val).restart = true
      ∧ t.out.head? = some (.link q.val 8 ((s.get (Quad.epoch q.val) + 1) % 65536) 0))

/-- Acknowledgement releases packets, a NAK or a time-out sends them again, and CREDIT adds to the pool of its class (R458, R459, R460). -/
def Obligations.CascadeReplayBuffer : Prop :=
  (∀ (q : Fin 4) (seq : BitVec 32) (a b : List TxPacket) (x : TxPacket) (s : State), s.get (Quad.lstate q.val) = lUp → ((s.quad q.val).unacked = a ++ x :: b) → x.seq = seq.toNat → (∀ y ∈ a ++ b, y.seq ≠ seq.toNat) →
    Answers (.cascadeAck q seq) s fun t => (t.quad q.val).unacked = b ∧ t.out = s.out ∧ t.regs = s.regs)
  ∧ (∀ (q : Fin 4) (seq : BitVec 32) (a b : List TxPacket) (s : State), s.get (Quad.lstate q.val) = lUp → (s.quad q.val).resent = none → (s.quad q.val).unacked = a ++ b → (((a ++ b).map TxPacket.seq).Nodup) → (∃ x, b.head? = some x ∧ x.seq = seq.toNat) → (∀ y ∈ b, y.retries < 3) →
    Answers (.cascadeNak q seq) s fun t => (t.quad q.val).unacked = a ++ b.map (fun y => { y with retries := y.retries + 1 })
      ∧ t.out = (b.map fun y => .packet q.val y.seq y.pkt).reverse ++ s.out
      ∧ t.get (Quad.replays q.val) = satNat (s.get (Quad.replays q.val) + b.length) 0xFFFFFFFF)
  ∧ (∀ (q : Fin 4) (x : TxPacket) (b : List TxPacket) (s : State), s.get (Quad.lstate q.val) = lUp → ((s.quad q.val).unacked = x :: b) → (∀ y ∈ x :: b, y.retries < 3) →
    Answers (.cascadeReplayTimeout q) s fun t => (t.quad q.val).unacked = (x :: b).map (fun y => { y with retries := y.retries + 1 })
      ∧ t.out = ((x :: b).map fun y => .packet q.val y.seq y.pkt).reverse ++ s.out)
  ∧ (∀ (q : Fin 4) (v : BitVec 32) (s : State), s.get (Quad.lstate q.val) = lUp → ((s.quad q.val).sendQ = []) →
    Answers (.cascadeCredit q 1 v) s fun t => (t.quad q.val).credit1 = (s.quad q.val).credit1 + (v.toNat + 0x100000000 - (s.quad q.val).seen1) % 0x100000000 ∧ (t.quad q.val).seen1 = v.toNat
      ∧ (t.quad q.val).credit2 = (s.quad q.val).credit2 ∧ (t.quad q.val).credit3 = (s.quad q.val).credit3)
  ∧ (∀ (q : Fin 4) (n : BitVec 32) (s : State), s.get (Quad.lstate q.val) = lUp →
    Answers (.cascadeEcho q n) s fun t => t.out = .link q.val 7 n.toNat 0 :: s.out)
  ∧ (∀ (q : Fin 4) (n : BitVec 32) (rtt : BitVec 16) (s : State), s.get (Quad.lstate q.val) = lUp → n.toNat < 16 → (s.quad q.val).echoes ≠ 0 →
    Answers (.cascadeEchoReply q n rtt) s fun t => t.get (Quad.rtt q.val) = max (s.get (Quad.rtt q.val)) rtt.toNat
      ∧ t.get (Quad.ow q.val) = ceilDiv (max (s.get (Quad.rtt q.val)) rtt.toNat) 2 ∧ (t.quad q.val).echoes + 1 = (s.quad q.val).echoes)

/-- Trigger messages are acknowledged, sent again and given up after three retries; the receiver takes them in order (R462). Time goes down
the tree by TIME blocks and TIME_INFO (R464). -/
def Obligations.CascadeTriggersAndTimePass : Prop :=
  (∀ (q : Fin 4) (tseq : BitVec 16) (a b : List (TrigMsg × Nat)) (x : TrigMsg × Nat) (s : State), s.get (Quad.lstate q.val) = lUp → ((s.quad q.val).trigUnacked = a ++ x :: b) → x.1.tseq = tseq.toNat → (∀ y ∈ a, y.1.tseq ≠ tseq.toNat) →
    Answers (.cascadeTack q tseq) s fun t => (t.quad q.val).trigUnacked = b ∧ t.out = s.out ∧ t.regs = s.regs)
  ∧ (∀ (q : Fin 4) (tseq : BitVec 16) (b : List (TrigMsg × Nat)) (x : TrigMsg × Nat) (s : State), s.get (Quad.lstate q.val) = lUp → (s.quad q.val).trigResent = none → ((s.quad q.val).trigUnacked = x :: b) → x.1.tseq = tseq.toNat → (∀ y ∈ x :: b, y.2 < 3) →
    Answers (.cascadeTnak q tseq) s fun t => (t.quad q.val).trigUnacked = (x :: b).map (fun y => (y.1, y.2 + 1))
      ∧ t.out = ((x :: b).map fun y => .trig q.val y.1).reverse ++ s.out
      ∧ t.get (Quad.trigRetries q.val) = satNat (s.get (Quad.trigRetries q.val) + b.length + 1) 0xFFFFFFFF)
  ∧ (∀ (q : Fin 4) (b : List (TrigMsg × Nat)) (s : State), s.get (Quad.lstate q.val) = lUp → (s.quad q.val).trigUnacked = b → (∀ y ∈ b, 3 ≤ y.2) →
    Answers (.cascadeTrigRetryTimeout q) s fun t => (t.quad q.val).trigUnacked = [] ∧ t.get (Quad.trigLost q.val) = satNat (s.get (Quad.trigLost q.val) + b.length) 0xFFFFFFFF)
  ∧ (∀ (q : Fin 4) (m : TrigIn) (s : State), s.get (Quad.lstate q.val) = lUp → s.on (Quad.upstream q.val) = true → m.tseq.toNat = (s.quad q.val).rxTseq →
    Answers (.cascadeTrigReceive q m true) s fun t => (t.quad q.val).rxTseq = (m.tseq.toNat + 1) % 65536
      ∧ (.link q.val 3 m.tseq.toNat 0) ∈ t.out)
  ∧ (∀ (q : Fin 4) (m : TrigIn) (ok : Bool) (s : State), s.get (Quad.lstate q.val) = lUp → s.on (Quad.upstream q.val) = true → (ok = false ∨ m.tseq.toNat ≠ (s.quad q.val).rxTseq) → (s.quad q.val).trigNakAt = none →
    Answers (.cascadeTrigReceive q m ok) s fun t => (t.quad q.val).rxTseq = (s.quad q.val).rxTseq ∧ t.out = .link q.val 4 (s.quad q.val).rxTseq 0 :: s.out)
  ∧ (∀ (q : Fin 4) (t1 : Nat) (s : State), s.get (Quad.lstate q.val) = lUp → s.on (Quad.upstream q.val) = false →
    Answers (.cascadeTimeExchange q t1) s fun t => (t.quad q.val).t1 = (t1 : Int) ∧ (t.quad q.val).exchange = ((s.quad q.val).exchange + 1) % 65536
      ∧ t.out = .timeBlock q.val 0 (((s.quad q.val).exchange + 1) % 65536) :: s.out)
  ∧ (∀ (q : Fin 4) (n : BitVec 16) (a b : Nat) (s : State), s.get (Quad.lstate q.val) = lUp → s.on (Quad.upstream q.val) = true →
    Answers (.cascadeTimeBlockReceive q false n a b) s fun t => (t.quad q.val).t2 = (a : Int) ∧ (t.quad q.val).t3 = (b : Int) ∧ (t.quad q.val).exchange = n.toNat
      ∧ t.out = .timeBlock q.val 1 n.toNat :: s.out)
  ∧ (∀ (q : Fin 4) (n : BitVec 16) (a b : Nat) (s : State), s.get (Quad.lstate q.val) = lUp → s.on (Quad.upstream q.val) = false → (s.quad q.val).exchange = n.toNat →
    Answers (.cascadeTimeBlockReceive q true n a b) s fun t => (t.quad q.val).t4 = (a : Int))

/-- A packet that stands next in order, with a good check, is acknowledged and its content used; one that does not is answered with NAK
(R186, R455, R458, R470, R471). -/
def Obligations.CascadePacketsAreTaken : Prop :=
  (∀ (q : Fin 4) (seq : BitVec 32) (p : PacketIn) (s : State), Arrives q seq p s → bit p.flags.toNat 1 = false →
    Answers (.rowPartReceive q seq true p) s fun t => Accepted q s t ∧ (t.quad q.val).parts = gather (s.quad q.val).parts (packetOf p 1))
  ∧ (∀ (q : Fin 4) (seq : BitVec 32) (p : PacketIn) (s : State), Arrives q seq p s → bit p.flags.toNat 1 = false →
    Answers (.sidePacketReceive q seq true p) s fun t => Accepted q s t ∧ (t.quad q.val).parts = gather (s.quad q.val).parts (packetOf p 2))
  ∧ (∀ (q : Fin 4) (seq : BitVec 32) (p : PacketIn) (s : State), Arrives q seq p s → p.payload.length = 32 → 4 ≤ leAt p.payload 0 1 → leAt p.payload 0 1 ≠ 0x0C → s.mode ≠ mBoot → s.eventsFlow false = false → s.dev.evN.held.length < 256 → s.dev.evN.lost = 0 →
    Answers (.eventPacketReceive q seq true p) s fun t => Accepted q s t ∧ t.dev.evN.held = s.dev.evN.held ++ [p.payload])
  ∧ (∀ (q : Fin 4) (seq : BitVec 32) (p : PacketIn) (w : CtlWait) (s : State), Arrives q seq p s → ((s.dev.ctlWaits.find? fun w => w.tag = p.aux.toNat && w.member = p.src.val) = some w) → w.use = .note →
    Answers (.ctrlRspReceive q seq true p) s fun t => Accepted q s t ∧ t.dev.ctlWaits = s.dev.ctlWaits.erase w)
  ∧ (∀ (q : Fin 4) (seq : BitVec 32) (p : PacketIn) (x dep : Nat) (s : State), Arrives q seq p s → s.on (Quad.upstream q.val) = true → ((s.dev.answered.find? fun a => a.1 = p.aux.toNat) = none) → x < 16 → dep < 8 → p.payload = leBytes 4 6 ++ leBytes 2 x ++ leBytes 2 dep →
    Answers (.ctrlReqReceive q seq true p) s fun t => Accepted q s t ∧ t.dev.ownIndex = x ∧ t.dev.ownDepth = dep ∧ t.dev.answered = [(p.aux.toNat, leBytes 4 0)])
  ∧ (∀ (q : Fin 4) (seq : BitVec 32) (p : PacketIn) (s : State), Arrives q seq p s →
    Answers (.imageReqReceive q seq true p) s fun t => Accepted q s t ∧ t.mem = s.mem ∧ (s.fwReady = false → t.out = .link q.val 5 ((t.quad q.val).freed p.cls.val) p.cls.val :: .link q.val 1 seq.toNat 0 :: s.out))
  ∧ (∀ (q : Fin 4) (seq : BitVec 32) (p : PacketIn) (s : State), Arrives q seq p s → s.bootQuads = true → (p.aux.toNat + p.payload.length ≤ 0x400000) →
    Answers (.imagePacketReceive q seq true p) s fun t => Accepted q s t ∧ t.bytes p.aux.toNat p.payload.length = p.payload ∧ (bit p.flags.toNat 1 = true → t.dev.boot.imageLen = p.aux.toNat + p.payload.length))
  ∧ (∀ (q : Fin 4) (seq : BitVec 32) (p : PacketIn) (s : State), Arrives q seq p s →
    Answers (.timeInfoReceive q seq true p) s fun t => (t.quad q.val).rxSeq = (seq.toNat + 1) % 0x100000000 ∧ t.get (Quad.authFail q.val) = satNat (s.get (Quad.authFail q.val) + 1) 0xFFFFFFFF
      ∧ t.get (Quad.offset q.val) = s.get (Quad.offset q.val))
  ∧ (∀ (q : Fin 4) (seq : BitVec 32) (p : PacketIn) (body : List Byte) (s : State), s.get (Quad.lstate q.val) = lUp → seq.toNat = (s.quad q.val).rxSeq → bit p.flags.toNat 0 = true → s.on (Quad.upstream q.val) = true → s.mine p.dst.val = true → p.aux.toNat = (s.quad q.val).exchange → p.payload = body ++ s.authTag q.val seq.toNat 0 (packetOf p 9) body →
    Answers (.timeInfoReceive q seq true p) s fun t => t.sget (Quad.offset q.val) =
      sat ((((s.quad q.val).t2 - leAt body 0 8) - (leAt body 8 8 - (s.quad q.val).t3)) / 2 - 16 * s.sget (Quad.asym q.val)) (-(2 ^ 31)) (2 ^ 31 - 1)
      ∧ t.get (Quad.authFail q.val) = s.get (Quad.authFail q.val))

/-- A satellite whose time has locked joins; a remote access without an answer ends; a PRBS test ends (R470, R475, R476). -/
def Obligations.CascadeTreeWaits : Prop :=
  (∀ (d : Fin 16) (differ lost : Bool) (m : Member) (q : Nat) (s : State), s.on BootReg.role = false → q < 4 → ((s.dev.group.find? fun x => x.index = d.val && x.leftSeq = 0) = some m) → s.quadTo d.val = some q → s.pathUp d.val = true → m.locked = true → m.joined = false → s.belowNeed m = false →
    Answers (.satelliteJoinIndex d differ lost) s fun t => (∀ x ∈ t.dev.group, x.index = d.val → x.joined = true) ∧ t.on (Quad.joined q) = true
      ∧ t.get ⟨(Quad.joined q).cnt, 0, 16, 0⟩ = satNat (s.get ⟨(Quad.joined q).cnt, 0, 16, 0⟩ + 1) 0xFFFF)
  ∧ (∀ (tag : BitVec 32) (w : CtlWait) (fn a : Nat) (s : State), ((s.dev.ctlWaits.find? fun w => w.tag = tag.toNat) = some w) → w.use = .write fn 2 a → fn < 2 →
    Answers (.remoteCommandTimeout tag) s fun t => t.dev.ctlWaits = s.dev.ctlWaits.erase w ∧ t.on (Bridge.postedFault fn) = true ∧ (s.on (Bridge.postedFault fn) = false → t.get (Bridge.cause fn) = 1))
  ∧ (∀ (q l : Fin 4) (r : List (Bool × Nat × Nat)) (s : State), (s.quad q.val).prbsMask ≠ 0 →
    Answers (.prbsTestDone q r) s fun t => (t.quad q.val).prbsMask = 0 ∧ (bit (s.quad q.val).prbsMask l.val = true →
      t.on (Lane.gen q.val l.val) = false ∧ t.on (Lane.chkSync q.val l.val) = (r.getD l.val (false, 0, 0)).1
      ∧ t.get (Lane.prbsErr q.val l.val) = satNat (r.getD l.val (false, 0, 0)).2.2 0xFFFFFFFF))

/-- A request reaches the two-wire mailbox word by word; it is dropped by MB_ABORT or after 100 ms, and a response is consumed (R488, R489).
-/
def Obligations.TwoWireRequestIsAssembled : Prop :=
  (∀ (n : BitVec 9) (s : State), s.dev.tw.state = 0 → 4 ≤ n.toNat → n.toNat ≤ 256 →
    Answers (.twMailboxStartWord n) s fun t => t.dev.tw.state = 1 ∧ t.dev.tw.want = n.toNat ∧ t.dev.tw.words = [])
  ∧ (∀ (w : BitVec 32) (s : State), s.dev.tw.state = 1 → (s.dev.tw.words.length + 1 < s.dev.tw.want) →
    Answers (.twMailboxDataWord w) s fun t => t.dev.tw.state = 1 ∧ t.dev.tw.want = s.dev.tw.want ∧ t.dev.tw.words = s.dev.tw.words ++ [w])
  ∧ (∀ (s : State), s.dev.tw.state = 1 → s.mode ≠ mBoot →
    Answers (.twMbAbort) s fun t => t.dev.tw.state = 0 ∧ t.dev.tw.want = 0 ∧ t.dev.tw.words = [])
  ∧ (∀ (s : State), s.dev.tw.state = 1 →
    Answers (.twRequestTimeout) s fun t => t.dev.tw.state = 0 ∧ t.dev.tw.words = [] ∧ t.dev.tw.inTimeout = true)
  ∧ (∀ (s : State), s.dev.tw.state = 4 → s.mode ≠ mBoot →
    Answers (.twResponseConsume) s fun t => t.dev.tw.state = 0 ∧ t.dev.tw.respReady = false)

/-- Writes to the two-wire target's other words, and what it counts (R482, R483, R487, R490, R492). -/
def Obligations.TwoWireWritesAreCounted : Prop :=
  (∀ (v : BitVec 8) (s : State), 
    Answers (.twOutptrWrite v) s fun t => t.get TwT.outptr = v.toNat)
  ∧ (∀ (s : State), 
    Answers (.twIdentityWrite) s fun t => t.get TwT.writeRo = satNat (s.get TwT.writeRo + 1) 0xFFFFFFFF)
  ∧ (∀ (s : State), 
    Answers (.twShortWrite) s fun t => t.get TwT.shortWrite = satNat (s.get TwT.shortWrite + 1) 0xFFFFFFFF)
  ∧ (∀ (s : State), 
    Answers (.twProtocolError) s fun t => t.get TwT.protoErrors = satNat (s.get TwT.protoErrors + 1) 0xFFFFFFFF ∧ (s.mode ≠ mBoot → t.dev.tw.protoErr = true))
  ∧ (∀ (s : State), s.dev.tw.state = 0 → s.mode = mStandby → s.on ModeReg.pending = false → bit s.dev.pwr.wakeMask 0 = true →
    Answers (.twWakeWord) s fun t => t.on ModeReg.pending = true ∧ t.get ModeReg.target = mArmed ∧ t.get ModeReg.wakeSrc = 1)

/-- Attempts at an alert: acknowledged, the message of the lowest class goes out; the eighth failed attempt abandons it (R493, R494). -/
def Obligations.AlertAttempts : Prop :=
  (∀ (a : Nat) (as : List Nat) (s : State), s.dev.tw.attempt = 0 → (s.dev.tw.alerts = a :: as) →
    Answers (.twAlertSend .acked) s fun t => t.dev.tw.alerts = as ∧ t.dev.tw.attempt = 0 ∧ t.dev.tw.alertSeq = (s.dev.tw.alertSeq + 1) % 256
      ∧ t.out = .twoWireMessage (s.get TwT.alertAddr) (s.alertBytes a) :: s.out
      ∧ t.get TwT.alertsSent = satNat (s.get TwT.alertsSent + 1) 0xFFFFFFFF)
  ∧ (∀ (a : Nat) (as : List Nat) (s : State), s.dev.tw.attempt ≠ 0 → (s.dev.tw.attempt + 1 < 8) → (s.dev.tw.alerts = a :: as) →
    Answers (.twAlertRetry .nacked) s fun t => t.dev.tw.alerts = a :: as ∧ t.dev.tw.attempt = s.dev.tw.attempt + 1
      ∧ t.get TwT.alertNack = satNat (s.get TwT.alertNack + 1) 0xFFFFFFFF)
  ∧ (∀ (a : Nat) (as : List Nat) (s : State), s.dev.tw.attempt = 7 → (s.dev.tw.alerts = a :: as) →
    Answers (.twAlertRetry .lost) s fun t => t.dev.tw.alerts = as ∧ t.dev.tw.attempt = 0 ∧ t.dev.tw.alertFail = true
      ∧ t.get TwT.alertArbLost = satNat (s.get TwT.alertArbLost + 1) 0xFFFFFFFF)

/-- A transfer on a two-wire bus ends with the outcome that Table 15-9 gives it, or waits for its retry after a lost arbitration (R497 to
R500). -/
def Obligations.TwoWireTransfersEnd : Prop :=
  (∀ (x : Fin 64) (data : List Byte) (s : State), ((x.val < 4 ∨ 16 ≤ x.val)) → s.on (TwC.busy x.val) = true → (s.twc x.val).waiting = false →
    Answers (.twTransferDone x data) s fun t => t.on (TwC.busy x.val) = false ∧ t.get (TwC.outcome x.val) = 0
      ∧ (t.twc x.val).lastRead = slice data 0 (s.readTotal x.val))
  ∧ (∀ (x : Fin 64) (addr : Bool) (seg : Fin 8) (byte : BitVec 9) (data : List Byte) (s : State), ((x.val < 4 ∨ 16 ≤ x.val)) → s.on (TwC.busy x.val) = true → (s.twc x.val).waiting = false →
    Answers (.twNack x addr seg byte data) s fun t => t.on (TwC.busy x.val) = false ∧ t.get (TwC.outcome x.val) = (if addr then 1 else 2)
      ∧ t.get (TwC.segment x.val) = seg.val ∧ t.get (TwC.byte x.val) = byte.toNat ∧ (t.twc x.val).lastRead = data)
  ∧ (∀ (x : Fin 64) (byte : BitVec 9) (bitNo : Fin 8) (s : State), s.on (TwC.busy x.val) = true → (s.twc x.val).waiting = false → ((16 ≤ x.val ∨ (x.val < 4 ∧ s.on (TwC.multi x.val) = true))) → (s.twc x.val).attempt < 8 →
    Answers (.twArbitrationLost x byte bitNo) s fun t => t.on (TwC.busy x.val) = true ∧ (t.twc x.val).waiting = true
      ∧ t.get (TwC.arbByte x.val) = byte.toNat ∧ t.get (TwC.arbBit x.val) = bitNo.val)
  ∧ (∀ (x : Fin 64) (s : State), s.on (TwC.busy x.val) = true → (s.twc x.val).waiting = true →
    Answers (.twArbRetry x) s fun t => (t.twc x.val).waiting = false ∧ (t.twc x.val).attempt = (s.twc x.val).attempt + 1)
  ∧ (∀ (x : Fin 64) (sda : Bool) (pulses : Fin 10) (s : State), ((x.val < 4 ∨ 16 ≤ x.val)) → s.on (TwC.enable x.val) = true → s.on (TwC.busy x.val) = true →
    Answers (.twBusStuck x sda pulses) s fun t => t.on (TwC.busy x.val) = false ∧ t.get (TwC.outcome x.val) = 4)
  ∧ (∀ (n : Fin 48) (data : List Byte) (s : State), s.get (Port.link n.val) = 2 → (s.on (TwC.busy (16 + n.val)) = true) → ((s.twc (16 + n.val)).waiting = false) →
    Answers (.twTunnelReport n (.done data)) s fun t => t.on (TwC.busy (16 + n.val)) = false ∧ t.get (TwC.outcome (16 + n.val)) = 0
      ∧ (t.twc (16 + n.val)).lastRead = slice data 0 (s.readTotal (16 + n.val)))

/-- Patrol finds and counts a stored error, a write back mends a corrected word, a lockstep mismatch restarts or escalates, a header is
repaired, a CRC is computed, a BIST ends (R480, R481, R486, R488, R492, R505, R552). -/
def Obligations.IntegrityFaultsAreKept : Prop :=
  (∀ (a : BitVec 40) (s : State), 
    Answers (.eccWriteback a) s fun t => (∀ e ∈ t.dev.ecc, ¬(e.1 = a.toNat / 8 * 8 ∧ e.2 = 3)) ∧ (∀ e ∈ s.dev.ecc, e.1 ≠ a.toNat / 8 * 8 → e ∈ t.dev.ecc) ∧ t.regs = s.regs ∧ t.mem = s.mem)
  ∧ (∀ (a : BitVec 40) (pass : Bool) (w : Nat) (s : State), s.patrolled a.toNat = true → (s.eccIn (a.toNat / 8 * 8) 8 1 = [w]) → (s.eccIn (a.toNat / 8 * 8) 8 2 = []) →
    Answers (.patrolRead a pass) s fun t => t.on Flt.ce = true ∧ t.get Flt.ceCount = satNat (s.get Flt.ceCount + 1) 0xFFFFFFFF ∧ (w, 3) ∈ t.dev.ecc)
  ∧ (∀ (a : BitVec 40) (pass : Bool) (w : Nat) (s : State), s.patrolled a.toNat = true → (s.eccIn (a.toNat / 8 * 8) 8 1 = []) → (s.eccIn (a.toNat / 8 * 8) 8 2 = [w]) →
    Answers (.patrolRead a pass) s fun t => t.on Flt.ue = true ∧ t.get Flt.ueCount = satNat (s.get Flt.ueCount + 1) 0xFFFFFFFF
      ∧ (s.on Flt.ue = false → t.get Flt.ueAddrLo = w % 0x100000000 ∧ t.get Flt.patrol = 1))
  ∧ (∀ (cclk : BitVec 64) (s : State), s.mode = mBoot → s.get Therm.state ≠ 4 → 1 ≤ s.get BootReg.step →
    Answers (.lockstepMismatch cclk) s fun t => t.get BootReg.step = 1 ∧ t.on Flt.lockstep = true ∧ t.get Flt.lockstepCount = satNat (s.get Flt.lockstepCount + 1) 0xFFFFFFFF)
  ∧ (∀ (cclk : BitVec 64) (s : State), s.mode ≠ mBoot → s.mode ≠ mStandby → s.get Therm.state ≠ 4 → 1 ≤ s.get BootReg.step → (s.dev.boot.expiries = []) → s.dev.boot.swapStep = false →
    Answers (.lockstepMismatch cclk) s fun t => t.fwReady = false ∧ t.on Flt.lockstep = true ∧ t.on BootReg.wdogSeen = true ∧ t.get BootReg.resetCause = 3)
  ∧ (∀ (a : BitVec 40) (s : State), s.fwReady = true → 0x01100000 ≤ a.toNat → a.toNat < 0x01140000 →
    Answers (.headerWordRepair a) s fun t => ∀ e ∈ t.dev.ecc, e.1 ≠ a.toNat / 8 * 8)
  ∧ (∀ (e : Cmd) (s : State), s.pendingCmd 14 2 1 = some e → (e.ctx s).isSome = true → s.awaited e.seq = false →
    Answers (.crcComputeDone) s fun t => ∀ x ∈ t.dev.journal, x.seq ≠ e.seq)
  ∧ (∀ (nid : Fin 0x140) (pass : Bool) (m : BitVec 16) (e : Cmd) (s : State), s.pendingCmd 17 6 nid.val = some e → s.awaited e.seq = false →
    Answers (.bistRunDone nid pass m) s fun t => ∀ x ∈ t.dev.journal, x.seq ≠ e.seq)

/-- The N-world reset, the certificate read and the rollback advance end their commands (R517, R522, R532). A firmware swap restarts into
the image or is refused, its failure reverts, a spare copy ends (R553, R554, R555, R556). -/
def Obligations.SecurityTransfersAndSwapsComplete : Prop :=
  (∀ (e : Cmd) (s : State), s.pendingCmd 15 3 1 = some e → s.awaited e.seq = false → s.on (Ring.enable 32) = false →
    Answers (.nworldResetDone) s fun t => ∀ x ∈ t.dev.journal, x.seq ≠ e.seq ∧ t.get (Ring.devIndex 32) = s.get (Ring.hostIndex 32)
      ∧ ∀ i : Fin 16, s.admitted i.val = true → (s.stream i.val).worldS = false → t.on (Ring.enable i.val) = false)
  ∧ (∀ (e : Cmd) (s : State), s.pendingCmd 15 4 1 = some e → (e.ctx s).isSome = true → s.awaited e.seq = false → (e.find 0xF004).isSome = true →
    Answers (.attestCertDone) s fun t => ∀ x ∈ t.dev.journal, x.seq ≠ e.seq ∧ t.bytes (stagingBase + e.val 0xF004) s.dev.fuses.cert.length = s.dev.fuses.cert)
  ∧ (∀ (e : Cmd) (s : State), s.pendingCmd 15 9 1 = some e → s.awaited e.seq = false →
    Answers (.rollbackAdvanceDone) s fun t => ∀ x ∈ t.dev.journal, x.seq ≠ e.seq ∧ t.dev.fuses.rollback = max s.dev.fuses.rollback (s.get Live.runSvn))
  ∧ (∀ (e : Cmd) (c : Ctx) (s : State), s.fwReady = true → s.pendingCmd 16 1 1 = some e → e.ctx s = some c → s.awaited e.seq = false →
    Answers (.fwSwapRestart) s fun t => if (s.swapFails (c.kept s 0) (c.val 3 = 1)).isSome then ∀ x ∈ t.dev.journal, x.seq ≠ e.seq
    else t.on Live.swapping = true ∧ t.dev.boot.swapStep = true ∧ t.fwReady = false ∧ t.get BootReg.step = 1)
  ∧ (∀ (s : State), s.dev.boot.swapStep = true → s.fwReady = false → (s.dev.boot.expiries = []) →
    Answers (.fwSwapRevert) s fun t => t.on BootReg.wdogSeen = true ∧ t.get BootReg.resetCause = 3 ∧ t.fwReady = false ∧ t.dev.boot.swapStep = false)
  ∧ (∀ (k : Fin 8) (e : Cmd) (c : Ctx) (s : State), s.pendingCmd 16 3 (nidCluster k.val) = some e → e.ctx s = some c → s.awaited e.seq = false → c.pipeK ≠ s.spareOf k.val →
    Answers (.spareCopyDone k) s fun t => ∀ x ∈ t.dev.journal, x.seq ≠ e.seq ∧ (s.on (Role.spareValid k.val) = true → t.bytes (gaugeBase (s.spareOf k.val) (s.get (Corr.active (s.spareOf k.val)))) 0x10000 = s.bytes (gaugeBase c.pipeK (s.get (Corr.active c.pipeK))) 0x10000))

/-- The TAP instructions, the challenge and its lapse, the lockout and the core controls act as the debug rules say (R538 to R551). -/
def Obligations.DebugPortOpensByChallenge : Prop :=
  (∀ (st : BitVec 8) (s : State), 
    Answers (.tapUnlockReq st) s fun t => t.dev.sec.tapInstr = 0x10 ∧ t.dev.sec.outputsHeld = false ∧ t.dev.sec.outputsHighZ = false
      ∧ (st.toNat < 3 → s.get Dbg.state < st.toNat → s.challengeOk = true → t.on Dbg.challengeLive = true ∧ t.dev.sec.chalNo = s.dev.sec.chalNo + 1)
      ∧ (st.toNat < s.get Dbg.state → s.get Dbg.state < 3 → t.get Dbg.state = st.toNat))
  ∧ (∀ (sig : List Byte) (s : State), 
    Answers (.tapUnlockResp sig) s fun t => t.dev.sec.tapInstr = 0x12 ∧ (s.on Dbg.challengeLive = true → t.dev.sec.verifying = some sig) ∧ (s.on Dbg.challengeLive = false → t.dev.sec.verifying = s.dev.sec.verifying))
  ∧ (∀ (sig : List Byte) (s : State), s.dev.sec.verifying = some sig → s.on Dbg.challengeLive = true →
    Answers (.unlockVerifyDone) s fun t => t.dev.sec.verifying = none ∧ t.on Dbg.challengeLive = false
      ∧ (if Config.ecdsaVerify (slice s.dev.sec.policy 160 96) s.dev.sec.challenge sig = true then t.get Dbg.fails = 0
         else t.get Dbg.fails = satNat (s.get Dbg.fails + 1) 255 ∧ t.dev.sec.lockout = lockoutTicks (satNat (s.get Dbg.fails + 1) 255) ∧ t.on Dbg.unlockFailed = true))
  ∧ (∀ (s : State), s.dev.sec.verifying = none →
    Answers (.challengeLapse) s fun t => t.on Dbg.challengeLive = false ∧ t.dev.sec.challenge = [])
  ∧ (∀ (s : State), 
    Answers (.lockoutEnd) s fun t => t.dev.sec.lockout = 0 ∧ t.get Dbg.lockoutMs = 0 ∧ t.get Dbg.fails = s.get Dbg.fails)
  ∧ (∀ (write : Bool) (a : BitVec 40) (v : BitVec 32) (s : State), 
    Answers (.tapDapAccess write a v) s fun t => t.dev.sec.tapInstr = (if s.get Dbg.state = 0 then 0xFF else 0x20)
      ∧ (s.get Dbg.state ≠ 0 → t.dev.sec.dap / 2 ^ 73 = s.debugResult true write a.toNat ∧ t.dev.sec.dap % 2 ^ 41 = boolNat write + 2 * a.toNat))
  ∧ (∀ (cap sh : List Bool) (s : State), 
    Answers (.tapExtest cap sh) s fun t => if s.scanOk = true then t.dev.sec.tapInstr = 0 ∧ t.dev.sec.outputsHeld = true ∧ t.dev.sec.boundary = sh ∧ .scan cap ∈ t.out
    else t.dev.sec.tapInstr = 0xFF ∧ t.dev.sec.outputsHeld = false)
  ∧ (∀ (cap sh : List Bool) (s : State), 
    Answers (.tapSamplePreload cap sh) s fun t => t.dev.sec.tapInstr = 1 ∧ t.dev.sec.boundary = sh ∧ t.dev.sec.outputsHeld = false ∧ .scan cap ∈ t.out)
  ∧ (∀ (s : State), 
    Answers (.tapClamp) s fun t => if s.scanOk = true then t.dev.sec.tapInstr = 3 ∧ t.dev.sec.outputsHeld = true ∧ t.dev.sec.outputsHighZ = false else t.dev.sec.tapInstr = 0xFF)
  ∧ (∀ (s : State), 
    Answers (.tapHighz) s fun t => if s.scanOk = true then t.dev.sec.tapInstr = 4 ∧ t.dev.sec.outputsHeld = false ∧ t.dev.sec.outputsHighZ = true else t.dev.sec.tapInstr = 0xFF)
  ∧ (∀ (s : State), 
    Answers (.tapTestLogicReset) s fun t => t.dev.sec.tapInstr = 2 ∧ t.dev.sec.outputsHeld = false ∧ t.dev.sec.outputsHighZ = false ∧ t.get Dbg.state = s.get Dbg.state)
  ∧ (∀ (s : State), s.rightsH = true →
    Answers (.coreHaltReq) s fun t => t.on Dbg.halted = true ∧ (s.on Dbg.halted = false → t.fwReady = false ∧ t.on Dbg.haltSeen = true))
  ∧ (∀ (s : State), s.rightsH = true →
    Answers (.coreResume) s fun t => t.on Dbg.halted = false ∧ (s.on Dbg.halted = true → t.fwReady = s.dev.sec.haltedFwReady))
  ∧ (∀ (s : State), s.rightsH = true → s.on Dbg.halted = true →
    Answers (.coreStep) s fun t => t.on Dbg.halted = true ∧ t.on Dbg.haltSeen = true)
  ∧ (∀ (n : Fin 56) (st : Nat) (s : State), ((s.dev.sec.debugPowered.find? fun x => x.1 = 93 + n.val) = some (93 + n.val, st)) →
    Answers (.debugPowerRelease (Fin.natAdd 93 n)) s fun t => (∀ x ∈ t.dev.sec.debugPowered, x.1 ≠ 93 + n.val) ∧ (s.on (Port.enable n.val) = false → t.domainOn (93 + n.val) = false))
  ∧ (∀ (p : Fin 64) (s : State), ((s.dev.sec.debugPowered.find? fun x => x.1 = 29 + p.val) = some (29 + p.val, stRetained)) → s.get (Node.state (nidPipe p.val)) = stGated → (s.get (Node.state (nidCluster (p.val / 8))) = stRunning) →
    Answers (.debugPowerRelease (Fin.castLE (by decide) (Fin.natAdd 29 p))) s fun t => (∀ x ∈ t.dev.sec.debugPowered, x.1 ≠ 29 + p.val) ∧ t.get (Node.state (nidPipe p.val)) = stRetained ∧ t.domainOn (29 + p.val) = false)

/-- The commands of classes 0x01 and 0x02 answer what Tables 4-12 and 4-13 say (R29, R152, R156, R596). -/
def Obligations.DeviceAndNodeCommandsAct : Prop :=
  (∀ (m : MbId) (r : Req) (c : Ctx) (s : State), Executes specGetIdentity m r s c →
    Answers (.getIdentity m r) s fun t => Replied specGetIdentity m r c.tgt.nid 0 ([tlv 1 1 (s.get Ident.formLevel), tlv 2 1 (s.get Ident.ifLevel), tlv 3 1 (s.get Ident.role), tlv 4 1 (s.get Ident.form), ⟨5, s.words 0x01000010 4⟩, tlv 6 4 (s.get Live.runBuild + 0x80000000 * s.get Live.runSlot)]) t)
  ∧ (∀ (m : MbId) (r : Req) (c : Ctx) (s : State), Executes specGetVersions m r s c →
    Answers (.getVersions m r) s fun t => Replied specGetVersions m r c.tgt.nid 0 ([⟨7, (List.range (commandCount (c.val 1))).flatMap fun k => leBytes 1 (k + 1) ++ [1, 0, 0]⟩]) t)
  ∧ (∀ (m : MbId) (r : Req) (c : Ctx) (s : State), Executes specEcho m r s c →
    Answers (.echo m r) s fun t => Replied specEcho m r c.tgt.nid 0 ([⟨8, c.bytes 8⟩]) t)
  ∧ (∀ (m : MbId) (r : Req) (c : Ctx) (s : State), Executes specClearFlagCounters m r s c → c.has 0xB = true →
    Answers (.clearFlagCounters m r) s fun t => Done m 0 t
      ∧ ∀ a ∈ flagCounters (c.val 0xB), t.get ⟨a, 0, 16, 0⟩ = 0)
  ∧ (∀ (m : MbId) (r : Req) (c : Ctx) (s : State), Executes specGetHeader m r s c →
    Answers (.getHeader m r) s fun t => Replied specGetHeader m r c.tgt.nid 0 ([⟨1, s.headerOf c.tgt⟩]) t)
  ∧ (∀ (p : Fin 64) (m : MbId) (r : Req) (c : Ctx) (s : State), Executes specListChildren m r s c → c.tgt.kind = .pipeline p.val → c.tgt.nid = 0x100 + p.val →
    Answers (.listChildren m r) s fun t => Replied specListChildren m r c.tgt.nid 0 ([⟨2, (List.range 16).flatMap fun j => leBytes 4 (0x100000 + 0x10000 * j + 0x100 + p.val)⟩]) t)
  ∧ (∀ (m : MbId) (r : Req) (c : Ctx) (s : State), Executes specListChildren m r s c → c.tgt.kind = .device → c.tgt.nid = 1 →
    Answers (.listChildren m r) s fun t => Replied specListChildren m r c.tgt.nid 0 ([⟨2, (List.range 8).flatMap fun j => leBytes 4 (0x10 + j)⟩]) t)
  ∧ (∀ (m : MbId) (r : Req) (c : Ctx) (s : State), Executes specReadCounters m r s c → c.val 3 = 0 → c.tgt.stage = none → c.tgt.local ≠ 1 →
    Answers (.readCounters m r) s fun t => Replied specReadCounters m r c.tgt.nid 0 ([⟨4, (s.countersOf (c.tgt.local, none)).flatMap (leBytes 8)⟩]) t)
  ∧ (∀ (m : MbId) (r : Req) (c : Ctx) (s : State), Executes specClearCounters m r s c → c.tgt.stage = none → c.tgt.local ≠ 1 → s.mbS m = true →
    Answers (.clearCounters m r) s fun t => Done m 0 t
      ∧ ∀ i : Fin 8, t.get (Node.counter c.tgt.local none i.val) = 0)
  ∧ (∀ (m : MbId) (r : Req) (c : Ctx) (s : State), Executes specNodeReset m r s c →
    Answers (.nodeReset m r) s fun t => (Done m 1 t ∧ ∃ e ∈ t.dev.journal, e.seq = c.take ∧ e.phase = .pending ∧ e.req = r))
  ∧ (∀ (e : Cmd) (m : MbId) (r : Req) (c : Ctx) (s : State), Executes specAbort m r s c → abortBox (c.val 0xA) = some e.mb → s.tagged e.mb (c.val 9) = some e → e.phase = .held →
    Answers (.abort m r) s fun t => Replied specAbort m r c.tgt.nid 0 ([tlv 9 4 (c.val 9)]) t
      ∧ ∀ x ∈ t.dev.journal, x.seq ≠ e.seq)

/-- The commands of class 0x03 read and set the mode, node states, wake policies, domains and thermal limits (R56, R64 to R66, R71, R83,
R92, R93). -/
def Obligations.PowerCommandsAct : Prop :=
  (∀ (m : MbId) (r : Req) (c : Ctx) (s : State), Executes specGetMode m r s c →
    Answers (.getMode m r) s fun t => Replied specGetMode m r c.tgt.nid 0 ([tlv 1 1 s.mode, tlv 2 4 (s.word 0x01000100)]) t)
  ∧ (∀ (m : MbId) (r : Req) (c : Ctx) (s : State), Executes specSetMode m r s c →
    Answers (.setMode m r) s fun t => (Done m 1 t ∧ ∃ e ∈ t.dev.journal, e.seq = c.take ∧ e.phase = .pending ∧ e.req = r)
      ∧ t.on ModeReg.pending = true ∧ t.get ModeReg.target = c.val 1 % 8 ∧ (c.val 1 = mStandby → t.dev.pwr.wakeMask = c.val 4 ∧ t.dev.pwr.retain = decide (c.valD 3 1 = 1)))
  ∧ (∀ (m : MbId) (r : Req) (c : Ctx) (s : State), Executes specRelease m r s c →
    Answers (.release m r) s fun t => (Done m 1 t ∧ ∃ e ∈ t.dev.journal, e.seq = c.take ∧ e.phase = .pending ∧ e.req = r)
      ∧ t.on ModeReg.pending = true ∧ t.get ModeReg.target = mArmed)
  ∧ (∀ (m : MbId) (r : Req) (c : Ctx) (s : State), Executes specGetNodeState m r s c → c.tgt.stage = none →
    Answers (.getNodeState m r) s fun t => Replied specGetNodeState m r c.tgt.nid 0 ([tlv 5 1 (leAt (s.header c.tgt.local none) 4 1), tlv 6 2 (leAt (s.header c.tgt.local none) 14 2)]) t)
  ∧ (∀ (m : MbId) (r : Req) (c : Ctx) (s : State), Executes specSetNodeState m r s c →
    Answers (.setNodeState m r) s fun t => Done m 0 t
      ∧ t.get (Node.state c.tgt.local) = c.val 5)
  ∧ (∀ (m : MbId) (r : Req) (c : Ctx) (s : State), Executes specSetWakePolicy m r s c → c.has 7 = true → c.val 7 < 4 →
    Answers (.setWakePolicy m r) s fun t => Done m 0 t
      ∧ ∀ p ∈ c.policyPipes, Tbl.get 0xFF t.dev.pwr.policies p = c.val 7)
  ∧ (∀ (m : MbId) (r : Req) (c : Ctx) (s : State), Executes specSetWakePolicy m r s c → c.has 8 = true →
    Answers (.setWakePolicy m r) s fun t => Done m 0 t
      ∧ Tbl.get 1000 t.dev.pwr.idleUs c.cluster = c.val 8)
  ∧ (∀ (m : MbId) (r : Req) (c : Ctx) (s : State), Executes specGetDomains m r s c →
    Answers (.getDomains m r) s fun t => Replied specGetDomains m r c.tgt.nid 0 ([⟨9, s.words 0x01000200 5⟩, ⟨0xA, s.words 0x01000220 5⟩]) t)
  ∧ (∀ (m : MbId) (r : Req) (c : Ctx) (s : State), Executes specRetire m r s c →
    Answers (.retire m r) s fun t => Done m 0 t
      ∧ t.get (Node.state (nidPipe c.pipe)) = stRetired ∧ (s.get (Node.state (nidPipe c.pipe)) ≠ stRetired → bit (t.get (Role.retired (c.pipe / 8))) (c.pipe % 8) = true))
  ∧ (∀ (m : MbId) (r : Req) (c : Ctx) (s : State), Executes specThermalRead m r s c →
    Answers (.thermalRead m r) s fun t => Replied specThermalRead m r c.tgt.nid 0 ([⟨0xB, s.thermalRegs⟩]) t)
  ∧ (∀ (m : MbId) (r : Req) (c : Ctx) (s : State), Executes specThermalConfig m r s c →
    Answers (.thermalConfig m r) s fun t => Done m 0 t
      ∧ (c.has 0xC = true → t.get Therm.rateLimit = c.val 0xC) ∧ (c.has 0xD = true → t.get Therm.warn = c.val 0xD) ∧ (c.has 0xE = true → t.get Therm.throttle = c.val 0xE))
  ∧ (∀ (m : MbId) (r : Req) (c : Ctx) (s : State), Executes specThermalConfig m r s c → c.has 0xF = true →
    Answers (.thermalConfig m r) s fun t => Done m 0 t
      ∧ t.get Therm.exclude = c.val 0xF ∧ ∀ x : Fin 20, t.on (Therm.hostExcl x.val) = bit (c.val 0xF) x.val)

/-- The commands of class 0x04 configure ports, steering and framers and read them (R193, R194, R199, R207, R223, R224). -/
def Obligations.CameraPortCommandsAct : Prop :=
  (∀ (m : MbId) (r : Req) (c : Ctx) (s : State), Executes specPortConfig m r s c → c.has 3 = true → c.has 4 = true → c.has 6 = true → c.has 7 = true →
    Answers (.portConfig m r) s fun t => Done m 0 t
      ∧ t.get (Port.lanes (c.val 1)) = c.val 4 ∧ t.get (Port.media (c.val 1)) = c.val 6 ∧ t.get (if c.val 1 < 48 then Port.rateCap (c.val 1) else Port.comboRate (c.val 1)) = c.val 3
      ∧ t.get (Port.rtxEn (c.val 1)) = c.val 7 % 2 ∧ t.get (Port.rtxLimit (c.val 1)) = c.val 7 / 2)
  ∧ (∀ (m : MbId) (r : Req) (c : Ctx) (s : State), Executes specPortConfig m r s c → c.has 4 = true → c.has 6 = false → c.has 7 = false → s.get (Node.state (nidCluster c.cluster)) = stRunning →
    Answers (.portConfig m r) s fun t => Done m 0 t
      ∧ t.get (Port.lanes (c.val 1)) = c.val 4 ∧ t.get (Port.media (c.val 1)) = s.get (Port.media (c.val 1)) ∧ t.get (Port.rtxEn (c.val 1)) = s.get (Port.rtxEn (c.val 1)))
  ∧ (∀ (m : MbId) (r : Req) (c : Ctx) (s : State), Executes specPortEnable m r s c → c.val 8 = 1 → s.on (Port.enable (c.val 1)) = false →
    Answers (.portEnable m r) s fun t => (Done m 1 t ∧ ∃ e ∈ t.dev.journal, e.seq = c.take ∧ e.phase = .pending ∧ e.req = r)
      ∧ t.on (Port.enable (c.val 1)) = true ∧ t.get (Port.link (c.val 1)) = 1 ∧ t.domainOn (93 + c.val 1) = true)
  ∧ (∀ (m : MbId) (r : Req) (c : Ctx) (s : State), Executes specPortEnable m r s c → c.val 8 = 0 → (∀ e ∈ s.dev.journal, e.seq ≠ s.dev.takes + 1) → (s.dev.ctlWaits = []) → (s.dev.journal = []) →
    Answers (.portEnable m r) s fun t => Done m 1 t
      ∧ t.on (Port.enable (c.val 1)) = false ∧ t.get (Port.link (c.val 1)) = 0 ∧ t.domainOn (93 + c.val 1) = false ∧ ∀ e ∈ t.dev.journal, e.seq ≠ c.take)
  ∧ (∀ (m : MbId) (r : Req) (c : Ctx) (s : State), Executes specSteeringSet m r s c → c.has 0x10 = true → c.has 0x11 = true →
    Answers (.steeringSet m r) s fun t => Done m 0 t
      ∧ (∀ j : Fin 64, t.reg (portBase (c.val 1) + 0x100 + 4 * j.val) = Reg.fit (portBase (c.val 1) + 0x100 + 4 * j.val) (BitVec.ofNat 32 (leAt (c.bytes 0x10) (4 * j.val) 4)))
      ∧ ∀ j : Fin 9, t.get (Port.queueReserve (c.val 1) j.val) = leAt (c.bytes 0x11) (4 * j.val) 4)
  ∧ (∀ (m : MbId) (r : Req) (c : Ctx) (s : State), Executes specFramerSet m r s c → c.has 0x20 = true → c.has 0x21 = true → c.has 0x22 = true → c.has 0x23 = true → c.has 0x24 = true → c.has 0x25 = true →
    Answers (.framerSet m r) s fun t => Done m 0 t
      ∧ t.get (Framer.area c.pipe) = c.val 0x20 ∧ t.get (Framer.unpadded c.pipe) = c.val 0x21 ∧ t.get (Framer.linePixels c.pipe) = c.val 0x22 ∧ t.get (Framer.frameLines c.pipe) = c.val 0x23
      ∧ t.get (Framer.lineTimeout c.pipe) = c.val 0x24 ∧ t.get (Framer.frameTimeout c.pipe) = c.val 0x25)
  ∧ (∀ (m : MbId) (r : Req) (c : Ctx) (s : State), Executes specPortStatus m r s c →
    Answers (.portStatus m r) s fun t => Replied specPortStatus m r c.tgt.nid 0 ([⟨0x30, (specPortStatus.powered c s).words (portBase (c.val 1) + 0x10) 5⟩, ⟨0x31, (specPortStatus.powered c s).words (portBase (c.val 1) + 0x40) 11⟩]) t)
  ∧ (∀ (m : MbId) (r : Req) (c : Ctx) (s : State), Executes specFramerStatus m r s c →
    Answers (.framerStatus m r) s fun t => Replied specFramerStatus m r c.tgt.nid 0 ([⟨0x32, (specFramerStatus.powered c s).words (pipeBase c.pipe + 0x840) 11⟩]) t)
  ∧ (∀ (m : MbId) (r : Req) (c : Ctx) (s : State), Executes specClearPortCounters m r s c → c.tgt.kind = .cluster (c.cluster) →
    Answers (.clearPortCounters m r) s fun t => Done m 0 t
      ∧ t.get (Port.retrans (c.val 1)) = 0 ∧ t.get (Port.linkErr (c.val 1)) = 0 ∧ t.get (Port.bufPeak (c.val 1)) = t.get (Port.bufOcc (c.val 1)))
  ∧ (∀ (m : MbId) (r : Req) (c : Ctx) (s : State), Executes specClearPortCounters m r s c → c.tgt.kind = .pipeline c.pipe →
    Answers (.clearPortCounters m r) s fun t => Done m 0 t
      ∧ ∀ j : Fin 11, t.reg (pipeBase c.pipe + 0x840 + 4 * j.val) = Reg.rst (pipeBase c.pipe + 0x840 + 4 * j.val))
  ∧ (∀ (m : MbId) (r : Req) (c : Ctx) (s : State), Executes specEqAdapt m r s c →
    Answers (.eqAdapt m r) s fun t => (Done m 1 t ∧ ∃ e ∈ t.dev.journal, e.seq = c.take ∧ e.phase = .pending ∧ e.req = r))
  ∧ (∀ (m : MbId) (r : Req) (c : Ctx) (s : State), Executes specEyeScan m r s c →
    Answers (.eyeScan m r) s fun t => (Done m 1 t ∧ ∃ e ∈ t.dev.journal, e.seq = c.take ∧ e.phase = .pending ∧ e.req = r))
  ∧ (∀ (m : MbId) (r : Req) (c : Ctx) (s : State), Executes specGetEq m r s c →
    Answers (.getEq m r) s fun t => Replied specGetEq m r c.tgt.nid 0 ([⟨0x43, leBytes (16 * (if c.val 1 < 48 then 1 else if (specGetEq.powered c s).on (Port.modeF (c.val 1)) then (specGetEq.powered c s).get (Port.lanes (c.val 1)) + 1 else 2 ^ (specGetEq.powered c s).get (Port.lanes (c.val 1)))) (Config.freeValue (specGetEq.powered c s).free)⟩]) t)

/-- The commands of class 0x05 set encoders, triggers, the time base, PTP, pins, pulses and the alarm, and read them (R230, R231, R238,
R248, R254, R255, R259, R260, R264, R266). -/
def Obligations.AcquisitionCommandsAct : Prop :=
  (∀ (m : MbId) (r : Req) (c : Ctx) (s : State), Executes specEncConfig m r s c → c.has 3 = true → c.has 4 = true → c.has 5 = true →
    Answers (.encConfig m r) s fun t => Done m 0 t
      ∧ t.get (Enc.interpMax (c.val 1)) = c.val 3 ∧ t.get (Enc.winLoL (c.val 1)) = c.val 4 % 0x100000000 ∧ t.get (Enc.winHiL (c.val 1)) = c.val 5 % 0x100000000 ∧ t.position (c.val 1) = s.position (c.val 1))
  ∧ (∀ (m : MbId) (r : Req) (c : Ctx) (s : State), Executes specEncRead m r s c →
    Answers (.encRead m r) s fun t => Replied specEncRead m r c.tgt.nid 0 ([⟨6, s.words (0x01501008 + 0x100 * c.val 1) 16⟩]) t)
  ∧ (∀ (m : MbId) (r : Req) (c : Ctx) (s : State), Executes specEncSet m r s c →
    Answers (.encSet m r) s fun t => Done m 0 t
      ∧ t.position (c.val 1) = signed 48 (c.val 7))
  ∧ (∀ (m : MbId) (r : Req) (c : Ctx) (s : State), Executes specTriggerSet m r s c → c.has 0x11 = true → c.has 0x12 = true → c.has 0x14 = true → c.has 0x15 = true →
    Answers (.triggerSet m r) s fun t => Done m 0 t
      ∧ t.get (Trig.source (c.val 0x10)) = c.val 0x11 / 2 % 8 ∧ t.get (Trig.dir (c.val 0x10)) = c.val 0x11 / 16 % 2 ∧ t.get (Trig.pitchFrac (c.val 0x10)) = c.val 0x12 % 0x100000000 ∧ t.get (Trig.pitchInt (c.val 0x10)) = c.val 0x12 / 0x100000000 % 0x100000000
      ∧ t.get (Trig.trigDelay (c.val 0x10)) = c.val 0x14 ∧ t.get (Trig.minPeriod (c.val 0x10)) = c.val 0x15)
  ∧ (∀ (m : MbId) (r : Req) (c : Ctx) (s : State), Executes specTriggerStatus m r s c → c.has 0xF004 = false →
    Answers (.triggerStatus m r) s fun t => Replied specTriggerStatus m r c.tgt.nid 0 ([⟨0x17, s.words (0x01510000 + 0x4000 * c.val 0x10) 17⟩, ⟨0x18, (s.heads (c.val 0x10)).flatMap fun h => s.words (0x01512018 + 0x4000 * c.val 0x10 + 0x20 * h) 2⟩]) t)
  ∧ (∀ (m : MbId) (r : Req) (c : Ctx) (s : State), Executes specLinkLatency m r s c →
    Answers (.linkLatency m r) s fun t => (Done m 1 t ∧ ∃ e ∈ t.dev.journal, e.seq = c.take ∧ e.phase = .pending ∧ e.req = r)
      ∧ .latencyEcho (c.val 1) ∈ t.out)
  ∧ (∀ (m : MbId) (r : Req) (c : Ctx) (s : State), Executes specTimeRead m r s c →
    Answers (.timeRead m r) s fun t => Replied specTimeRead m r c.tgt.nid 0 ([⟨0x30, s.time12⟩, ⟨0x31, s.words 0x01500018 1⟩]) t)
  ∧ (∀ (m : MbId) (r : Req) (c : Ctx) (s : State), Executes specTimeSet m r s c → c.has 0x30 = true → c.has 0x35 = false →
    Answers (.timeSet m r) s fun t => Done m 0 t
      ∧ t.now = c.at 0x30 0 6 * 1000000000 + c.at 0x30 6 4)
  ∧ (∀ (m : MbId) (r : Req) (c : Ctx) (s : State), Executes specTimeAdjust m r s c → c.has 0x32 = true →
    Answers (.timeAdjust m r) s fun t => Done m 0 t
      ∧ t.dev.time.slew = none)
  ∧ (∀ (m : MbId) (r : Req) (c : Ctx) (s : State), Executes specPtpConfig m r s c → c.has 0x41 = true → c.has 0x44 = true → c.has 0x4A = true → c.has 0x4B = true → c.has 0x40 = false →
    Answers (.ptpConfig m r) s fun t => Done m 0 t
      ∧ t.dev.ptp.rate = c.val 0x41 ∧ t.dev.ptp.domain = c.val 0x44 ∧ t.dev.ptp.mac = c.bytes 0x4A ∧ t.dev.ptp.vlan = c.val 0x4B ∧ t.dev.ptp.role = s.dev.ptp.role)
  ∧ (∀ (m : MbId) (r : Req) (c : Ctx) (s : State), Executes specPtpConfig m r s c → c.has 0x40 = true →
    Answers (.ptpConfig m r) s fun t => Done m 0 t
      ∧ t.dev.ptp.role = c.val 0x40 ∧ t.get TimeReg.source = c.val 0x40 % 4 ∧ t.domainOn 11 = decide (c.val 0x40 ≠ 0))
  ∧ (∀ (m : MbId) (r : Req) (c : Ctx) (s : State), Executes specPtpStatus m r s c →
    Answers (.ptpStatus m r) s fun t => Replied specPtpStatus m r c.tgt.nid 0 ([⟨0x50, s.words 0x01560000 9⟩, ⟨0x51, slice s.dev.ptp.parent 0 10⟩, ⟨0x52, slice s.dev.ptp.grandmaster 0 8⟩]) t)
  ∧ (∀ (m : MbId) (r : Req) (c : Ctx) (s : State), Executes specPinConfig m r s c → c.has 0x60 = true → c.has 0x61 = true → c.has 0x62 = true →
    Answers (.pinConfig m r) s fun t => Done m 0 t
      ∧ t.get (Pin.func (c.val 0x60)) = c.val 0x61 % 8 ∧ t.get Pin.ppsWidth = c.val 0x62)
  ∧ (∀ (m : MbId) (r : Req) (c : Ctx) (s : State), Executes specPulseSet m r s c → (leAt (c.bytes 0x64) 0 1 % 2 = 0) →
    Answers (.pulseSet m r) s fun t => Done m 0 t
      ∧ ∀ j : Fin 7, t.reg (0x01551000 + 0x40 * c.val 0x63 + 4 * j.val) = Reg.fit (0x01551000 + 0x40 * c.val 0x63 + 4 * j.val) (BitVec.ofNat 32 (leAt (c.bytes 0x64) (4 * j.val) 4)))
  ∧ (∀ (m : MbId) (r : Req) (c : Ctx) (s : State), Executes specCaptureRead m r s c → (Tbl.wf (fun _ => []) s.dev.time.captures = true) →
    Answers (.captureRead m r) s fun t => Replied specCaptureRead m r c.tgt.nid 0 ([⟨0x65, (Tbl.get [] s.dev.time.captures (c.val 0x60)).flatten⟩]) t
      ∧ Tbl.get [] t.dev.time.captures (c.val 0x60) = [] ∧ t.get (Pin.capLevel (c.val 0x60)) = 0)
  ∧ (∀ (m : MbId) (r : Req) (c : Ctx) (s : State), Executes specAlarmSet m r s c →
    Answers (.alarmSet m r) s fun t => Done m 0 t
      ∧ t.dev.time.alarmArmed = true ∧ t.get TimeReg.alarmSecLo = c.at 0x34 0 4 ∧ t.get TimeReg.alarmSecHi = c.at 0x34 4 2 ∧ t.get TimeReg.alarmNs = c.at 0x34 6 4)

/-- The commands of class 0x06 set the correction stages, load, swap and compute gauge banks and control swatch capture (R272, R275, R278,
R281, R283 to R294). -/
def Obligations.CorrectionCommandsAct : Prop :=
  (∀ (m : MbId) (r : Req) (c : Ctx) (s : State), Executes specLinSet m r s c → c.has 1 = true → c.has 2 = true →
    Answers (.linSet m r) s fun t => Done m 0 t
      ∧ t.get (Corr.linEn c.pipe) = c.val 1 ∧ ∀ i : Fin 33, t.get (Corr.linX c.pipe i.val) = c.at 2 (8 * i.val) 4 ∧ t.get (Corr.linY c.pipe i.val) = c.at 2 (8 * i.val + 4) 2)
  ∧ (∀ (m : MbId) (r : Req) (c : Ctx) (s : State), Executes specBlackSet m r s c → c.has 0x10 = true → c.has 0x11 = true → c.has 0x13 = true →
    Answers (.blackSet m r) s fun t => Done m 0 t
      ∧ t.get (Corr.xpM1 c.pipe) = c.at 0x10 0 1 - 1 ∧ t.get (Corr.ypM1 c.pipe) = c.at 0x10 1 1 - 1 ∧ t.get (Corr.numChM1 c.pipe) = c.at 0x10 2 1 - 1 ∧ t.get (Corr.chMap c.pipe) = c.val 0x11 ∧ t.get (Corr.bypass c.pipe) = c.val 0x13)
  ∧ (∀ (m : MbId) (r : Req) (c : Ctx) (s : State), Executes specDefectSet m r s c → c.has 0x20 = true → c.has 0x21 = true →
    Answers (.defectSet m r) s fun t => Done m 0 t
      ∧ t.get (Corr.bypass2 c.pipe) = c.val 0x20 % 2 ∧ t.get (Corr.staticEn c.pipe) = c.val 0x20 / 2 % 2 ∧ t.get (Corr.hotEn c.pipe) = c.val 0x20 / 4 % 2 ∧ t.get (Corr.coldEn c.pipe) = c.val 0x20 / 8 % 2 ∧ t.get (Corr.dynThresh c.pipe) = c.val 0x21)
  ∧ (∀ (m : MbId) (r : Req) (c : Ctx) (s : State), Executes specFlatSet m r s c →
    Answers (.flatSet m r) s fun t => Done m 0 t
      ∧ t.get (Corr.bypass3 c.pipe) = c.val 0x30)
  ∧ (∀ (m : MbId) (r : Req) (c : Ctx) (s : State), Executes specGaugeLoad m r s c →
    Answers (.gaugeLoad m r) s fun t => (Done m 1 t ∧ ∃ e ∈ t.dev.journal, e.seq = c.take ∧ e.phase = .pending ∧ e.req = r))
  ∧ (∀ (m : MbId) (r : Req) (c : Ctx) (s : State), Executes specGaugeSwap m r s c →
    Answers (.gaugeSwap m r) s fun t => Done m 0 t
      ∧ (∀ p ∈ nidPipes (c.bytes 0x40), t.get (Corr.swapPending p) = 1 ∧ ((t.pipe p).armed.any fun a => a.stage = 3) = true) ∧ (t.dev.journal.any fun e => e.seq = c.take && (match e.phase with | .armed _ _ => true | _ => false)) = true)
  ∧ (∀ (m : MbId) (r : Req) (c : Ctx) (s : State), Executes specGaugeRead m r s c →
    Answers (.gaugeRead m r) s fun t => (Done m 1 t ∧ ∃ e ∈ t.dev.journal, e.seq = c.take ∧ e.phase = .pending ∧ e.req = r))
  ∧ (∀ (m : MbId) (r : Req) (c : Ctx) (s : State), Executes specSwatchStart m r s c →
    Answers (.swatchStart m r) s fun t => Done m 0 t
      ∧ t.get (Corr.state c.pipe) = 1 ∧ t.get (Corr.tap c.pipe) = c.val 0x50 ∧ t.get (Corr.kind c.pipe) = c.val 0x51 ∧ t.get (Corr.targetLines c.pipe) = c.val 0x57 % 0x20000 ∧ t.get (Corr.used c.pipe) = 0 ∧ (t.pipe c.pipe).owns = true)
  ∧ (∀ (m : MbId) (r : Req) (c : Ctx) (s : State), Executes specSwatchAbort m r s c →
    Answers (.swatchAbort m r) s fun t => Done m 0 t
      ∧ t.get (Corr.state c.pipe) ≠ 1)
  ∧ (∀ (m : MbId) (r : Req) (c : Ctx) (s : State), Executes specSwatchRead m r s c →
    Answers (.swatchRead m r) s fun t => (Done m 1 t ∧ ∃ e ∈ t.dev.journal, e.seq = c.take ∧ e.phase = .pending ∧ e.req = r))
  ∧ (∀ (m : MbId) (r : Req) (c : Ctx) (s : State), Executes specGaugeCompute m r s c →
    Answers (.gaugeCompute m r) s fun t => (Done m 1 t ∧ ∃ e ∈ t.dev.journal, e.seq = c.take ∧ e.phase = .pending ∧ e.req = r))
  ∧ (∀ (m : MbId) (r : Req) (c : Ctx) (s : State), Executes specCorrStatus m r s c →
    Answers (.corrStatus m r) s fun t => Replied specCorrStatus m r c.tgt.nid 0 ([⟨0x60, (specCorrStatus.powered c s).words (pipeBase c.pipe + 0x1040) 1 ++ (specCorrStatus.powered c s).words (pipeBase c.pipe + 0x2040) 4 ++ (specCorrStatus.powered c s).words (pipeBase c.pipe + 0x3040) 1⟩, ⟨0x61, (specCorrStatus.powered c s).words (pipeBase c.pipe + 0x3010) 8⟩]) t)

/-- The commands of classes 0x07 and 0x08 set colour, alignment, statistics and the screen, and read them (R298, R302, R307, R312, R317,
R330, R338, R339). -/
def Obligations.ColourAndScreenCommandsAct : Prop :=
  (∀ (m : MbId) (r : Req) (c : Ctx) (s : State), Executes specWbSet m r s c →
    Answers (.wbSet m r) s fun t => Done m 0 t
      ∧ (∀ p ∈ nidPipes (c.bytes 1), ((t.pipe p).armed.any fun a => a.stage = 4) = true) ∧ (t.dev.journal.any fun e => e.seq = c.take && (match e.phase with | .armed _ _ => true | _ => false)) = true)
  ∧ (∀ (m : MbId) (r : Req) (c : Ctx) (s : State), Executes specDemosaicSet m r s c → c.has 0x10 = true → c.has 0x11 = true → c.has 0x12 = true →
    Answers (.demosaicSet m r) s fun t => Done m 0 t
      ∧ t.get (Reg.Col.modeF c.pipe) = c.val 0x10 ∧ t.get (Reg.Col.colour c.pipe) = c.val 0x11 ∧ t.get (Reg.Col.edgeT c.pipe) = c.val 0x12)
  ∧ (∀ (m : MbId) (r : Req) (c : Ctx) (s : State), Executes specAlignSet m r s c → c.has 0x20 = true →
    Answers (.alignSet m r) s fun t => Done m 0 t
      ∧ t.get (Reg.Col.d0 c.pipe) = c.at 0x20 0 1 ∧ t.get (Reg.Col.d1 c.pipe) = c.at 0x20 1 1 ∧ t.get (Reg.Col.d2 c.pipe) = c.at 0x20 2 1 ∧ t.get (Reg.Col.d3 c.pipe) = c.at 0x20 3 1)
  ∧ (∀ (m : MbId) (r : Req) (c : Ctx) (s : State), Executes specMatrixSet m r s c →
    Answers (.matrixSet m r) s fun t => Done m 0 t
      ∧ (∀ p ∈ nidPipes (c.bytes 1), ((t.pipe p).armed.any fun a => a.stage = 6) = true) ∧ (t.dev.journal.any fun e => e.seq = c.take && (match e.phase with | .armed _ _ => true | _ => false)) = true)
  ∧ (∀ (m : MbId) (r : Req) (c : Ctx) (s : State), Executes specStatsSet m r s c → c.has 0x32 = true → c.has 0x34 = true →
    Answers (.statsSet m r) s fun t => Done m 0 t
      ∧ t.get (Reg.Col.clipLevel c.pipe) = c.val 0x34 ∧ t.reg (pipeBase c.pipe + 0x8008) = Reg.fit (pipeBase c.pipe + 0x8008) (BitVec.ofNat 32 (c.val 0x32)))
  ∧ (∀ (m : MbId) (r : Req) (c : Ctx) (s : State), Executes specStatsRead m r s c →
    Answers (.statsRead m r) s fun t => (Done m 1 t ∧ ∃ e ∈ t.dev.journal, e.seq = c.take ∧ e.phase = .pending ∧ e.req = r))
  ∧ (∀ (m : MbId) (r : Req) (c : Ctx) (s : State), Executes specColourStatus m r s c →
    Answers (.colourStatus m r) s fun t => Replied specColourStatus m r c.tgt.nid 0 ([⟨0x40, (specColourStatus.powered c s).words (pipeBase c.pipe + 0x4040) 1 ++ (specColourStatus.powered c s).words (pipeBase c.pipe + 0x5040) 1 ++ (specColourStatus.powered c s).words (pipeBase c.pipe + 0x6080) 1 ++ (specColourStatus.powered c s).words (pipeBase c.pipe + 0x8040) 2⟩, ⟨0x41, (specColourStatus.powered c s).words (pipeBase c.pipe + 0x4010) 4⟩]) t)
  ∧ (∀ (m : MbId) (r : Req) (c : Ctx) (s : State), Executes specScreenSet m r s c → c.has 0x10 = true → c.has 0x11 = true →
    Answers (.screenSet m r) s fun t => Done m 0 t
      ∧ t.get (Scr.enable c.pipe) = c.val 0x10 ∧ t.get (Scr.holdFlagged c.pipe) = c.val 0x11)
  ∧ (∀ (m : MbId) (r : Req) (c : Ctx) (s : State), Executes specScreenTune m r s c →
    Answers (.screenTune m r) s fun t => Done m 0 t
      ∧ (∀ p ∈ nidPipes (c.bytes 1), t.get (Scr.tunePending p) = 1 ∧ ((t.pipe p).armed.any fun a => a.stage = 9) = true) ∧ (t.dev.journal.any fun e => e.seq = c.take && (match e.phase with | .armed _ _ => true | _ => false)) = true)
  ∧ (∀ (m : MbId) (r : Req) (c : Ctx) (s : State), Executes specScreenStreamSet m r s c → c.has 0x21 = true → c.has 0x22 = true → c.has 0x23 = true → c.has 0x24 = true →
    Answers (.screenStreamSet m r) s fun t => Done m 0 t
      ∧ (t.asm (c.val 0x20)).cutout = decide (c.val 0x21 = 1) ∧ (t.asm (c.val 0x20)).cap = c.val 0x22 ∧ (t.asm (c.val 0x20)).margin = c.val 0x23 ∧ (t.asm (c.val 0x20)).audit = c.val 0x24)
  ∧ (∀ (m : MbId) (r : Req) (c : Ctx) (s : State), Executes specScreenStatus m r s c →
    Answers (.screenStatus m r) s fun t => Replied specScreenStatus m r c.tgt.nid 0 ([⟨0x30, (specScreenStatus.powered c s).words (pipeBase c.pipe + 0x9040) 7⟩, ⟨0x31, (specScreenStatus.powered c s).words (pipeBase c.pipe + 0x9010) 4⟩]) t)
  ∧ (∀ (m : MbId) (r : Req) (c : Ctx) (s : State), Executes specHistoryReset m r s c →
    Answers (.historyReset m r) s fun t => Done m 0 t
      ∧ (t.pipe c.pipe).histReset = true)

/-- The commands of classes 0x09 and 0x0A set row assembly and coding, arm match gains and effort, control jobs, and read them (R344, R350,
R358, R362, R383, R396, R397). -/
def Obligations.RowCommandsAct : Prop :=
  (∀ (m : MbId) (r : Req) (c : Ctx) (s : State), Executes specAssemblySet m r s c → c.has 2 = true → c.has 3 = true → c.has 4 = true → c.has 5 = true →
    Answers (.assemblySet m r) s fun t => Done m 0 t
      ∧ t.get (Asm.area (c.val 1)) = c.val 2 ∧ t.get (Asm.bandRows (c.val 1)) = c.val 3 ∧ t.get (Asm.deadline (c.val 1)) = c.val 4 ∧ t.get (Asm.areaLineNs (c.val 1)) = c.val 5)
  ∧ (∀ (m : MbId) (r : Req) (c : Ctx) (s : State), Executes specGeometrySet m r s c →
    Answers (.geometrySet m r) s fun t => (Done m 1 t ∧ ∃ e ∈ t.dev.journal, e.seq = c.take ∧ e.phase = .pending ∧ e.req = r))
  ∧ (∀ (m : MbId) (r : Req) (c : Ctx) (s : State), Executes specMatchSet m r s c →
    Answers (.matchSet m r) s fun t => Done m 0 t
      ∧ (t.asm (c.val 1)).armedMatch = some (s.streamAt (c.val 1) (c.val 0x21), c.gains) ∧ t.get (Asm.matchPending (c.val 1)) = 1 ∧ (t.dev.journal.any fun e => e.seq = c.take && (match e.phase with | .armed _ _ => true | _ => false)) = true)
  ∧ (∀ (m : MbId) (r : Req) (c : Ctx) (s : State), Executes specAssemblyStatus m r s c → c.has 0xF004 = false →
    Answers (.assemblyStatus m r) s fun t => Replied specAssemblyStatus m r c.tgt.nid 0 ([⟨0x30, s.words (0x01200000 + 0x8000 * c.val 1) 12⟩, ⟨0x31, s.words (0x01200040 + 0x8000 * c.val 1) 14⟩, ⟨0x32, (s.segMap (c.val 1)).flatMap fun g => leBytes 4 g.1 ++ leBytes 4 g.2.1 ++ leBytes 4 g.2.2.1 ++ leBytes 2 g.2.2.2 ++ [0, 0]⟩]) t)
  ∧ (∀ (m : MbId) (r : Req) (c : Ctx) (s : State), Executes specCodingSet m r s c → c.has 2 = true → c.has 3 = true → c.has 4 = true →
    Answers (.codingSet m r) s fun t => Done m 0 t
      ∧ t.get (Cod.ratio (c.val 1)) = c.val 2 ∧ t.get (Cod.effort (c.val 1)) = c.val 3 ∧ t.get (Cod.independent (c.val 1)) = c.val 4)
  ∧ (∀ (m : MbId) (r : Req) (c : Ctx) (s : State), Executes specEffortSet m r s c →
    Answers (.effortSet m r) s fun t => Done m 0 t
      ∧ (t.asm (c.val 1)).effortNext = c.val 3 ∧ (t.asm (c.val 1)).effortAt = s.streamAt (c.val 1) (c.val 5) ∧ t.get (Cod.effortPending (c.val 1)) = 1 ∧ (t.dev.journal.any fun e => e.seq = c.take && (match e.phase with | .armed _ _ => true | _ => false)) = true)
  ∧ (∀ (m : MbId) (r : Req) (c : Ctx) (s : State), Executes specCodingStatus m r s c → c.tgt.kind = .device →
    Answers (.codingStatus m r) s fun t => Replied specCodingStatus m r c.tgt.nid 0 ([⟨0x10, s.words (0x01200100 + 0x8000 * c.val 1) 5 ++ s.words (0x01200140 + 0x8000 * c.val 1) 10⟩]) t)
  ∧ (∀ (m : MbId) (r : Req) (c : Ctx) (s : State), Executes specCodingStatus m r s c → c.tgt.kind = .cluster c.cluster →
    Answers (.codingStatus m r) s fun t => Replied specCodingStatus m r c.tgt.nid 0 ([⟨0x11, (specCodingStatus.powered c s).words (0x10300000 + 0x01000000 * c.cluster) 2 ++ (specCodingStatus.powered c s).words (0x10300040 + 0x01000000 * c.cluster) 4⟩]) t)
  ∧ (∀ (m : MbId) (r : Req) (c : Ctx) (s : State), Executes specJobAbort m r s c → (∀ w ∈ s.job (c.val 0x20), w.ended = none) →
    Answers (.jobAbort m r) s fun t => Done m 0 t
      ∧ ∀ u ∈ t.job (c.val 0x20), u.abort = true ∧ t.get (RootCod.jobState (c.val 0x20)) = 3)
  ∧ (∀ (m : MbId) (r : Req) (c : Ctx) (s : State), Executes specJobStatus m r s c →
    Answers (.jobStatus m r) s fun t => Replied specJobStatus m r c.tgt.nid 0 ([⟨0x21, s.words (0x01280100 + 16 * c.val 0x20) 3⟩, ⟨0x22, s.words 0x01280040 12⟩]) t)

/-- The commands of class 0x0B admit, start, stop and close streams, set rings and read delivery (R401, R404, R417 to R420, R443). -/
def Obligations.StreamCommandsAct : Prop :=
  (∀ (m : MbId) (r : Req) (c : Ctx) (s : State), Executes specStreamAdmit m r s c →
    Answers (.streamAdmit m r) s fun t => (Done m 1 t ∧ ∃ e ∈ t.dev.journal, e.seq = c.take ∧ e.phase = .pending ∧ e.req = r))
  ∧ (∀ (m : MbId) (r : Req) (c : Ctx) (s : State), Executes specStreamStart m r s c → c.has 0x10 = false → s.mode = mArmed → (s.stream (c.val 1)).startAt = none →
    Answers (.streamStart m r) s fun t => Done m 0 t
      ∧ t.sState (c.val 1) = sStarted ∧ (t.stream (c.val 1)).startAt = none ∧ t.mode = mAcquire)
  ∧ (∀ (m : MbId) (r : Req) (c : Ctx) (s : State), Executes specStreamStart m r s c → c.has 0x10 = true → s.now < c.at 0x10 0 6 * 1000000000 + c.at 0x10 6 4 →
    Answers (.streamStart m r) s fun t => Done m 0 t
      ∧ t.sState (c.val 1) = sStarted ∧ (t.stream (c.val 1)).startAt = some (c.at 0x10 0 6 * 1000000000 + c.at 0x10 6 4))
  ∧ (∀ (m : MbId) (r : Req) (c : Ctx) (s : State), Executes specStreamStop m r s c →
    Answers (.streamStop m r) s fun t => (Done m 1 t ∧ ∃ e ∈ t.dev.journal, e.seq = c.take ∧ e.phase = .pending ∧ e.req = r)
      ∧ t.sState (c.val 1) = sStopping)
  ∧ (∀ (m : MbId) (r : Req) (c : Ctx) (s : State), Executes specStreamClose m r s c →
    Answers (.streamClose m r) s fun t => (Done m 1 t ∧ ∃ e ∈ t.dev.journal, e.seq = c.take ∧ e.phase = .pending ∧ e.req = r)
      ∧ (t.stream (c.val 1)).closing = some closedByCommand ∧ (s.sState (c.val 1) = sStarted → t.sState (c.val 1) = sStopping))
  ∧ (∀ (m : MbId) (r : Req) (c : Ctx) (s : State), Executes specStreamStatus m r s c →
    Answers (.streamStatus m r) s fun t => Replied specStreamStatus m r c.tgt.nid 0 ([⟨0x30, s.words (0x01200200 + 0x8000 * c.val 1) 7⟩, ⟨0x31, s.words (0x01200240 + 0x8000 * c.val 1) 16⟩]) t)
  ∧ (∀ (m : MbId) (r : Req) (c : Ctx) (s : State), Executes specRingSet m r s c → c.val 0x45 = 1 → c.val 0x40 < 32 →
    Answers (.ringSet m r) s fun t => Done m 0 t
      ∧ t.on (Ring.enable (c.val 0x40)) = true ∧ t.ringBase (c.val 0x40) = c.val 0x41 ∧ t.get (Ring.count (c.val 0x40)) = c.val 0x42 ∧ t.get (Ring.vector (c.val 0x40)) = c.val 0x44 % 128 ∧ t.get (Ring.holdoff (c.val 0x40)) = c.val 0x44 / 256
      ∧ t.get (Ring.hostIndex (c.val 0x40)) = 0 ∧ t.get (Ring.devIndex (c.val 0x40)) = 0 ∧ t.on (Ring.world (c.val 0x40)) = s.mbS m)
  ∧ (∀ (m : MbId) (r : Req) (c : Ctx) (s : State), Executes specCarouselRead m r s c →
    Answers (.carouselRead m r) s fun t => Replied specCarouselRead m r c.tgt.nid 0 ([⟨0x50, s.words 0x012C0000 3⟩, ⟨0x51, s.peek 0x012C0100 256⟩]) t)
  ∧ (∀ (m : MbId) (r : Req) (c : Ctx) (s : State), Executes specQueueStatus m r s c →
    Answers (.queueStatus m r) s fun t => Replied specQueueStatus m r c.tgt.nid 0 ([⟨0x60, leBytes 4 (s.queueCounts c.tgt.local).1 ++ leBytes 4 (s.queueCounts c.tgt.local).2⟩]) t)

/-- The commands of class 0x0C configure and restart cascade links, test their lanes and read them (R449, R451, R460, R475, R479). The
commands of classes 0x0D and 0x0E set and read the two-wire target and controllers, start transfers, read faults, compute check values and
inject errors (R483, R495, R497, R505, R509). -/
def Obligations.CascadeBusAndIntegrityCommandsAct : Prop :=
  (∀ (m : MbId) (r : Req) (c : Ctx) (s : State), Executes specCascadeConfig m r s c → c.has 2 = false → c.has 3 = true → c.has 4 = true → c.has 5 = true → c.has 6 = true →
    Answers (.cascadeConfig m r) s fun t => Done m 0 t
      ∧ t.get (Quad.rateCap (c.val 1)) = c.val 3 ∧ t.get (Quad.widthCap (c.val 1)) = c.val 4 ∧ t.get (Quad.asym (c.val 1)) = c.val 5 ∧ t.get (Quad.cascRatio (c.val 1)) = c.val 6)
  ∧ (∀ (m : MbId) (r : Req) (c : Ctx) (s : State), Executes specCascadeConfig m r s c → c.has 2 = true → c.val 2 = 1 →
    Answers (.cascadeConfig m r) s fun t => Done m 0 t
      ∧ t.on (Quad.enable (c.val 1)) = true ∧ t.domainOn (7 + c.val 1) = true)
  ∧ (∀ (m : MbId) (r : Req) (c : Ctx) (s : State), Executes specCascadeStatus m r s c →
    Answers (.cascadeStatus m r) s fun t => Replied specCascadeStatus m r c.tgt.nid 0 ([⟨0x10, s.words (quadBase (c.val 1)) 9⟩, ⟨0x11, s.words (quadBase (c.val 1) + 0x40) 12⟩]) t)
  ∧ (∀ (m : MbId) (r : Req) (c : Ctx) (s : State), Executes specLinkRestart m r s c → c.val 0x30 = 0 →
    Answers (.linkRestart m r) s fun t => (Done m 1 t ∧ ∃ e ∈ t.dev.journal, e.seq = c.take ∧ e.phase = .pending ∧ e.req = r)
      ∧ s.get (Quad.lstate (c.val 1)) = lUp → t.get (Quad.lstate (c.val 1)) = lRestart)
  ∧ (∀ (m : MbId) (r : Req) (c : Ctx) (s : State), Executes specPrbsTest m r s c →
    Answers (.prbsTest m r) s fun t => (Done m 1 t ∧ ∃ e ∈ t.dev.journal, e.seq = c.take ∧ e.phase = .pending ∧ e.req = r)
      ∧ (t.quad (c.val 1)).prbsMask = c.val 0x40 ∧ ∀ l : Fin 4, bit (c.val 0x40) l.val = true → t.on (Lane.gen (c.val 1) l.val) = true ∧ t.get (Lane.pattern (c.val 1) l.val) = c.val 0x41 ∧ t.get (Lane.prbsErr (c.val 1) l.val) = 0)
  ∧ (∀ (m : MbId) (r : Req) (c : Ctx) (s : State), Executes specPrbsRead m r s c →
    Answers (.prbsRead m r) s fun t => Replied specPrbsRead m r c.tgt.nid 0 ([⟨0x44, (List.range 4).flatMap fun l => leBytes 4 (s.get (Lane.prbsBitsLo (c.val 1) l)) ++ leBytes 2 (s.get (Lane.prbsBitsHi (c.val 1) l)) ++ leBytes 4 (s.get (Lane.prbsErr (c.val 1) l)) ++ leBytes 1 (s.get (Lane.chkSync (c.val 1) l)) ++ [0]⟩]) t)
  ∧ (∀ (m : MbId) (r : Req) (c : Ctx) (s : State), Executes specTwTargetSet m r s c → c.has 2 = true → c.has 3 = true → c.has 4 = true →
    Answers (.twTargetSet m r) s fun t => Done m 0 t
      ∧ t.get TwT.alertAddr = c.val 2 ∧ t.get TwT.alertEn = c.val 3 ∧ t.get TwT.alertMask = c.val 4)
  ∧ (∀ (m : MbId) (r : Req) (c : Ctx) (s : State), Executes specTwTargetStatus m r s c → m ≠ .twoWire →
    Answers (.twTargetStatus m r) s fun t => Replied specTwTargetStatus m r c.tgt.nid 0 ([⟨5, s.words 0x01600000 3⟩, ⟨6, s.words 0x01600040 8⟩]) t)
  ∧ (∀ (m : MbId) (r : Req) (c : Ctx) (s : State), Executes specTwConfig m r s c → c.has 0x11 = true → c.has 0x12 = true → c.has 0x14 = true →
    Answers (.twConfig m r) s fun t => Done m 0 t
      ∧ t.get (TwC.enable (c.val 0x10)) = c.val 0x11 ∧ t.get (TwC.multi (c.val 0x10)) = c.val 0x12 ∧ t.get (TwC.speed (c.val 0x10)) = c.val 0x14)
  ∧ (∀ (m : MbId) (r : Req) (c : Ctx) (s : State), Executes specTwXfer m r s c → c.val 0x10 < 16 →
    Answers (.twXfer m r) s fun t => (Done m 1 t ∧ ∃ e ∈ t.dev.journal, e.seq = c.take ∧ e.phase = .pending ∧ e.req = r)
      ∧ t.on (TwC.busy (c.val 0x10)) = true ∧ (t.twc (c.val 0x10)).waiting = false)
  ∧ (∀ (m : MbId) (r : Req) (c : Ctx) (s : State), Executes specTwStatus m r s c →
    Answers (.twStatus m r) s fun t => Replied specTwStatus m r c.tgt.nid 0 ([⟨0x30, s.words (twcBase (c.val 0x10)) 7⟩, ⟨0x31, (s.twc (c.val 0x10)).lastRead⟩, ⟨0x32, s.words (twcBase (c.val 0x10) + 0x40) 5⟩]) t)
  ∧ (∀ (m : MbId) (r : Req) (c : Ctx) (s : State), Executes specFaultStatus m r s c → c.tgt.kind = .device →
    Answers (.faultStatus m r) s fun t => Replied specFaultStatus m r c.tgt.nid 0 ([⟨1, s.words 0x01701000 9⟩]) t)
  ∧ (∀ (m : MbId) (r : Req) (c : Ctx) (s : State), Executes specCrcCompute m r s c →
    Answers (.crcCompute m r) s fun t => (Done m 1 t ∧ ∃ e ∈ t.dev.journal, e.seq = c.take ∧ e.phase = .pending ∧ e.req = r))
  ∧ (∀ (m : MbId) (r : Req) (c : Ctx) (s : State), Executes specErrInject m r s c → (c.val 0x20 = 1 ∨ c.val 0x20 = 2) →
    Answers (.errInject m r) s fun t => Done m 0 t
      ∧ (c.val 0x21 / 8 * 8, c.val 0x20) ∈ t.dev.ecc ∧ t.get Flt.injectKind = c.val 0x20)
  ∧ (∀ (m : MbId) (r : Req) (c : Ctx) (s : State), Executes specErrInject m r s c → c.val 0x20 ≠ 1 → c.val 0x20 ≠ 2 →
    Answers (.errInject m r) s fun t => Done m 0 t
      ∧ t.dev.sec.injected = (if c.val 0x20 = 0 then none else some (c.val 0x20)))

/-- The commands of class 0x0F reset the N world, attest, load and clear tag keys, set stream tags and advance rollback (R519, R520, R522,
R532 to R536). -/
def Obligations.SecurityCommandsAct : Prop :=
  (∀ (m : MbId) (r : Req) (c : Ctx) (s : State), Executes specWorldStatus m r s c →
    Answers (.worldStatus m r) s fun t => Replied specWorldStatus m r c.tgt.nid 0 ([⟨1, s.words 0x02020000 44⟩]) t)
  ∧ (∀ (m : MbId) (r : Req) (c : Ctx) (s : State), Executes specWorldQuery m r s c → c.has 2 = true → c.has 3 = false → 0x10 ≤ c.val 2 → c.val 2 < 0x140 →
    Answers (.worldQuery m r) s fun t => Replied specWorldQuery m r c.tgt.nid 0 ([tlv 4 1 (boolNat (s.nodeS (c.val 2)))]) t)
  ∧ (∀ (m : MbId) (r : Req) (c : Ctx) (s : State), Executes specWorldQuery m r s c → c.has 2 = false →
    Answers (.worldQuery m r) s fun t => Replied specWorldQuery m r c.tgt.nid 0 ([tlv 4 1 (boolNat (s.addrS (c.val 3)))]) t)
  ∧ (∀ (m : MbId) (r : Req) (c : Ctx) (s : State), Executes specNworldReset m r s c →
    Answers (.nworldReset m r) s fun t => (Done m 1 t ∧ ∃ e ∈ t.dev.journal, e.seq = c.take ∧ e.phase = .pending ∧ e.req = r)
      ∧ t.get BootReg.resetCause = 6)
  ∧ (∀ (m : MbId) (r : Req) (c : Ctx) (s : State), Executes specAttestCert m r s c →
    Answers (.attestCert m r) s fun t => (Done m 1 t ∧ ∃ e ∈ t.dev.journal, e.seq = c.take ∧ e.phase = .pending ∧ e.req = r))
  ∧ (∀ (m : MbId) (r : Req) (c : Ctx) (s : State), Executes specAttestReport m r s c →
    Answers (.attestReport m r) s fun t => Replied specAttestReport m r c.tgt.nid 0 ([⟨6, s.report (c.bytes 5) ++ Config.identitySign s.dev.fuses.uid (s.report (c.bytes 5))⟩]) t)
  ∧ (∀ (m : MbId) (r : Req) (c : Ctx) (s : State), Executes specKeyLoad m r s c →
    Answers (.keyLoad m r) s fun t => Done m 0 t
      ∧ (t.dev.sec.keys.find? fun x => x.1 = c.val 7) = some (c.val 7, ⟨c.bytes 8, 0⟩))
  ∧ (∀ (m : MbId) (r : Req) (c : Ctx) (s : State), Executes specKeyClear m r s c →
    Answers (.keyClear m r) s fun t => Done m 0 t
      ∧ ∀ x ∈ t.dev.sec.keys, x.1 ≠ c.val 7)
  ∧ (∀ (m : MbId) (r : Req) (c : Ctx) (s : State), Executes specStreamTagSet m r s c → c.has 0xA = true → c.has 7 = true →
    Answers (.streamTagSet m r) s fun t => Done m 0 t
      ∧ (t.asm (c.val 9)).tagEn = decide (c.val 0xA = 1) ∧ (t.asm (c.val 9)).keySlot = c.val 7)
  ∧ (∀ (m : MbId) (r : Req) (c : Ctx) (s : State), Executes specRollbackAdvance m r s c →
    Answers (.rollbackAdvance m r) s fun t => (Done m 1 t ∧ ∃ e ∈ t.dev.journal, e.seq = c.take ∧ e.phase = .pending ∧ e.req = r))

/-- The commands of class 0x10 swap firmware and spares and park and resume heads (R553 to R561). -/
def Obligations.LiveServiceCommandsAct : Prop :=
  (∀ (m : MbId) (r : Req) (c : Ctx) (s : State), Executes specFwSwap m r s c →
    Answers (.fwSwap m r) s fun t => (Done m 1 t ∧ ∃ e ∈ t.dev.journal, e.seq = c.take ∧ e.phase = .pending ∧ e.req = r))
  ∧ (∀ (m : MbId) (r : Req) (c : Ctx) (s : State), Executes specFwStatus m r s c →
    Answers (.fwStatus m r) s fun t => Replied specFwStatus m r c.tgt.nid 0 ([⟨4, (s.slotOf 0).bytes ++ (s.slotOf 1).bytes⟩]) t)
  ∧ (∀ (m : MbId) (r : Req) (c : Ctx) (s : State), Executes specSpareCopy m r s c →
    Answers (.spareCopy m r) s fun t => (Done m 1 t ∧ ∃ e ∈ t.dev.journal, e.seq = c.take ∧ e.phase = .pending ∧ e.req = r))
  ∧ (∀ (i : Nat) (m : MbId) (r : Req) (c : Ctx) (s : State), Executes specSpareSwap m r s c → s.boundStream c.pipeK = some i → (s.dev.swaps = []) →
    Answers (.spareSwap m r) s fun t => Done m 0 t
      ∧ (t.dev.swaps.any fun x => x.1 = c.cluster && x.2.old = c.pipeK && x.2.stream = i) = true)
  ∧ (∀ (m : MbId) (r : Req) (c : Ctx) (s : State), Executes specAutoSpareSet m r s c →
    Answers (.autoSpareSet m r) s fun t => Done m 0 t
      ∧ t.get Live.autoSpare = putBits (s.get Live.autoSpare) c.cluster 1 (c.val 6))
  ∧ (∀ (m : MbId) (r : Req) (c : Ctx) (s : State), Executes specHeadPark m r s c →
    Answers (.headPark m r) s fun t => Done m 0 t
      ∧ (t.asm (c.val 0x10)).parked = (s.asm (c.val 0x10)).parked ++ [⟨c.val 0x11, headN c s false, none, none⟩])
  ∧ (∀ (m : MbId) (r : Req) (c : Ctx) (s : State), Executes specHeadResume m r s c → c.val 2 ≠ 0 →
    Answers (.headResume m r) s fun t => Done m 0 t
      ∧ (∃ x ∈ (t.asm (c.val 0x10)).parked, x.head = c.val 0x11 ∧ x.until_ = some (c.val 2)))
  ∧ (∀ (m : MbId) (r : Req) (c : Ctx) (s : State), Executes specLiveStatus m r s c → c.tgt.kind = .device →
    Answers (.liveStatus m r) s fun t => Replied specLiveStatus m r c.tgt.nid 0 ([⟨0x20, s.words 0x01000300 37⟩]) t)

/-- The commands of class 0x11 read the debug state, request, unlock and lock it, access memory and run BIST (R543 to R552). -/
def Obligations.DebugCommandsAct : Prop :=
  (∀ (m : MbId) (r : Req) (c : Ctx) (s : State), Executes specDebugStatus m r s c →
    Answers (.debugStatus m r) s fun t => Replied specDebugStatus m r c.tgt.nid 0 ([⟨1, s.words 0x01800000 3⟩]) t)
  ∧ (∀ (m : MbId) (r : Req) (c : Ctx) (s : State), Executes specDebugChallenge m r s c → s.get Dbg.state < c.val 2 →
    Answers (.debugChallenge m r) s fun t => Replied specDebugChallenge m r c.tgt.nid 0 ([⟨3, s.challengeFor (c.val 2)⟩]) t
      ∧ t.on Dbg.challengeLive = true ∧ t.dev.sec.challenge = s.challengeFor (c.val 2))
  ∧ (∀ (m : MbId) (r : Req) (c : Ctx) (s : State), Executes specDebugUnlock m r s c →
    Answers (.debugUnlock m r) s fun t => Replied specDebugUnlock m r c.tgt.nid 0 ([tlv 5 1 (s.unlockResult (c.bytes 4))]) t
      ∧ s.on Dbg.challengeLive = true → t.on Dbg.challengeLive = false)
  ∧ (∀ (m : MbId) (r : Req) (c : Ctx) (s : State), Executes specDebugLock m r s c →
    Answers (.debugLock m r) s fun t => Done m 0 t
      ∧ t.get Dbg.state = c.val 2)
  ∧ (∀ (m : MbId) (r : Req) (c : Ctx) (s : State), Executes specDbgAccess m r s c → c.val 0x11 = 0 → c.val 0x10 < 0x10000000000 →
    Answers (.dbgAccess m r) s fun t => Replied specDbgAccess m r c.tgt.nid 0 ([tlv 0x12 4 (if s.debugResult (s.mbS m) false (c.val 0x10) ≠ 0 then 0 else s.debugData (c.val 0x10)), tlv 0x13 1 (s.debugResult (s.mbS m) false (c.val 0x10))]) t)
  ∧ (∀ (m : MbId) (r : Req) (c : Ctx) (s : State), Executes specBistRun m r s c →
    Answers (.bistRun m r) s fun t => (Done m 1 t ∧ ∃ e ∈ t.dev.journal, e.seq = c.take ∧ e.phase = .pending ∧ e.req = r))

/-- Starting or admitting a stream in Standby, Maintenance or Safe-hold completes with status 0x21. (R57) -/
def Obligations.LowModesRefuseStreams : Prop :=
  (∀ (m : MbId) (r : Req) (s : State) (c : Ctx), Ready m s → (s.mode = mStandby ∨ s.mode = mMaintenance ∨ s.mode = mSafeHold) →
    specStreamStart.context m r (specStreamStart.taken m r s) = .inr c → s.mbS m = true → c.tgt.dev = s.dev.ownIndex →
    specStreamStart.denied c (specStreamStart.taken m r s) = false → badKey specStreamStart.keys c.tlvs = none → specStreamStart.params c (specStreamStart.taken m r s) = none →
    Answers (.streamStart m r) s fun t => Done m 0x21 t)
  ∧ (∀ (m : MbId) (r : Req) (s : State) (c : Ctx), Ready m s → (s.mode = mStandby ∨ s.mode = mMaintenance ∨ s.mode = mSafeHold) →
    specStreamAdmit.context m r (specStreamAdmit.taken m r s) = .inr c → s.mbS m = true → c.tgt.dev = s.dev.ownIndex → specStreamAdmit.denied c (specStreamAdmit.taken m r s) = false →
    badKey specStreamAdmit.keys c.tlvs = none → specStreamAdmit.params c (specStreamAdmit.taken m r s) = none →
    Answers (.streamAdmit m r) s fun t => Done m 0x21 t)

/-- Match gain multiplies component k by its gain, rounds and saturates, and leaves a fill-tagged sample alone. (R349) -/
def Obligations.MatchGainIsRounded : Prop :=
  (∀ (n : Nat) (mg : List Nat) (x : Col), x.fill = true → matchGain n mg x = x)
  ∧ (∀ (n : Nat) (mg : List Nat) (x : Col) (k : Nat), x.fill = false → x.v.length ≤ mg.length → (hk : k < x.v.length) →
    (matchGain n mg x).fill = false ∧ (matchGain n mg x).v.length = x.v.length
      ∧ (matchGain n mg x).v[k]? = some (min ((x.v[k] * mg.getD k 0 + 0x800) >>> 12) (2 ^ n - 1)))

/-- A defective sample is replaced by the median of its valid neighbours. (R277) -/
def Obligations.DefectsTakeTheMedian : Prop :=
  (∀ (a xs : List Nat), a.Pairwise (· ≤ ·) → xs.Perm a → a.length % 2 = 1 → medianOf xs = a.getD ((a.length + 1) / 2 - 1) 0)
  ∧ (∀ (a xs : List Nat), a.Pairwise (· ≤ ·) → xs.Perm a → a ≠ [] → a.length % 2 = 0 →
    (medianOf xs : Int) = roundHalfUp (a.getD (a.length / 2 - 1) 0 + a.getD (a.length / 2) 0 : Nat) 2)

/-- A HOST_INDEX write that claims more than the ring holds is ignored and sets BAD_INDEX. (R420) -/
def Obligations.RingIndexOutOfRangeIsIgnored : Prop :=
  (∀ (fn : Fin 2) (ring : Fin 42) (v : BitVec 32) (s : State), (s.check fn.val .bar0 (0x9020 + 0x40 * ring.val) true = 0) → s.dev.sec.injected = none → (if ring.val < 34 ∨ 38 ≤ ring.val then s.get (Ring.count ring.val) < (s.get (Ring.devIndex ring.val) + 0x100000000 - v.toNat) % 0x100000000 else s.get (Ring.count ring.val) < (v.toNat + 0x100000000 - s.get (Ring.devIndex ring.val)) % 0x100000000) →
    Answers (.hostIndexWrite fn ring v) s fun t => t.get (Ring.hostIndex ring.val) = s.get (Ring.hostIndex ring.val) ∧ t.on (Ring.badIndex ring.val) = true)

/-- A host read of BAR0 with a status page, a mailbox or a register in it has no side effect on registers or memory (R120). -/
def Obligations.HostReadsChangeNothing : Prop :=
  (∀ (fn : Fin 2) (off len : Nat) (s t : State), s.dev.ecc = [] → s.dev.sec.injected = none → exec (.inboundRead fn .bar0 off len) s = .next t →
    t.mem = s.mem ∧ t.regs = s.regs)

/-- No posted write of the N-world function reaches a byte of shared SRAM that belongs to the S world (R521, R118). -/
def Obligations.NWorldWritesStayOut : Prop :=
  (∀ (bar : Bar) (off : Nat) (data : List (Option Byte)) (s t : State), exec (.inboundPostedWrite 0 bar off data) s = .next t →
    ∀ a, isShared a = true → s.addrS a = true → t.byte a = s.byte a)

/-- The rows of the two-wire target change no memory and no register outside the two-wire blocks (R482 to R494). -/
def Obligations.TwoWireRowsLeaveTheRest : Prop :=
  (∀ (n : BitVec 9) (s t : State), exec (.twMailboxStartWord n) s = .next t → LeavesRest BusWord s t)
  ∧ (∀ (w : BitVec 32) (s t : State), exec (.twMailboxDataWord w) s = .next t → LeavesRest BusWord s t)
  ∧ (∀ s t : State, exec (.twMbAbort) s = .next t → LeavesRest BusWord s t)
  ∧ (∀ s t : State, exec (.twRequestTimeout) s = .next t → LeavesRest BusWord s t)
  ∧ (∀ s t : State, exec (.twResponseConsume) s = .next t → LeavesRest BusWord s t)
  ∧ (∀ (v : BitVec 8) (s t : State), exec (.twOutptrWrite v) s = .next t → LeavesRest BusWord s t)
  ∧ (∀ s t : State, exec (.twIdentityWrite) s = .next t → LeavesRest BusWord s t)
  ∧ (∀ s t : State, exec (.twShortWrite) s = .next t → LeavesRest BusWord s t)
  ∧ (∀ s t : State, exec (.twProtocolError) s = .next t → LeavesRest BusWord s t)
  ∧ (∀ (o : Sys2Proof.AlertEnd) (s t : State), exec (.twAlertSend o) s = .next t → LeavesRest BusWord s t)

/-- The rows of the time port and of PPS change no memory and no register outside the time base and the time port (R254 to R265). -/
def Obligations.TimePortRowsLeaveTheRest : Prop :=
  (∀ (x : Bool) (s t : State), exec (.timePortPcsLock x) s = .next t → LeavesRest TimeWord s t)
  ∧ (∀ s t : State, exec (.timePortPcsLockLoss) s = .next t → LeavesRest TimeWord s t)
  ∧ (∀ s t : State, exec (.ppsOutRise) s = .next t → LeavesRest TimeWord s t)
  ∧ (∀ s t : State, exec (.ppsOutFall) s = .next t → LeavesRest TimeWord s t)
  ∧ (∀ (x : Fin 3) (s t : State), exec (.ptpMessageTransmit x) s = .next t → LeavesRest TimeWord s t)
  ∧ (∀ s t : State, exec (.slewEnd) s = .next t → LeavesRest TimeWord s t)
  ∧ (∀ s t : State, exec (.ppsInTimeout) s = .next t → LeavesRest TimeWord s t)

/-- Acknowledgement, replay, credit and echo rows change no memory and no register outside the quads (R455 to R464). -/
def Obligations.CascadeAcknowledgementsLeaveTheRest : Prop :=
  (∀ (q : Fin 4) (n : BitVec 32) (s t : State), exec (.cascadeAck q n) s = .next t → LeavesRest QuadWord s t)
  ∧ (∀ (q : Fin 4) (n : BitVec 32) (s t : State), exec (.cascadeNak q n) s = .next t → LeavesRest QuadWord s t)
  ∧ (∀ (q : Fin 4) (s t : State), exec (.cascadeReplayTimeout q) s = .next t → LeavesRest QuadWord s t)
  ∧ (∀ (q cls : Fin 4) (v : BitVec 32) (s t : State), exec (.cascadeCredit q cls v) s = .next t → LeavesRest QuadWord s t)
  ∧ (∀ (q : Fin 4) (n : BitVec 32) (s t : State), exec (.cascadeEcho q n) s = .next t → LeavesRest QuadWord s t)
  ∧ (∀ (q : Fin 4) (n : BitVec 32) (rtt : BitVec 16) (s t : State), exec (.cascadeEchoReply q n rtt) s = .next t → LeavesRest QuadWord s t)
  ∧ (∀ (q : Fin 4) (n : BitVec 16) (s t : State), exec (.cascadeTack q n) s = .next t → LeavesRest QuadWord s t)
  ∧ (∀ (q : Fin 4) (s t : State), exec (.cascadeBadBlock q) s = .next t → LeavesRest QuadWord s t)

/-- The scan, response, lapse and lockout rows change no memory and no register outside the debug block (R539 to R545). -/
def Obligations.ScanRowsLeaveTheRest : Prop :=
  (∀ (a b : List Bool) (s t : State), exec (.tapExtest a b) s = .next t → LeavesRest DebugWord s t)
  ∧ (∀ (a b : List Bool) (s t : State), exec (.tapSamplePreload a b) s = .next t → LeavesRest DebugWord s t)
  ∧ (∀ s t : State, exec (.tapClamp) s = .next t → LeavesRest DebugWord s t)
  ∧ (∀ s t : State, exec (.tapHighz) s = .next t → LeavesRest DebugWord s t)
  ∧ (∀ s t : State, exec (.tapTestLogicReset) s = .next t → LeavesRest DebugWord s t)
  ∧ (∀ (sig : List Byte) (s t : State), exec (.tapUnlockResp sig) s = .next t → LeavesRest DebugWord s t)
  ∧ (∀ s t : State, exec (.challengeLapse) s = .next t → LeavesRest DebugWord s t)
  ∧ (∀ s t : State, exec (.lockoutEnd) s = .next t → LeavesRest DebugWord s t)

/-- The delivery rows change no memory of the device and no register outside the streams and the rings (R411 to R424). -/
def Obligations.DeliveryRowsLeaveTheRest : Prop :=
  (∀ (i : Fin 16) (s t : State), exec (.egressRecordDepart i) s = .next t → LeavesRest StreamWord s t)
  ∧ (∀ (x : Fin 256) (s t : State), exec (.carouselSlotStart x) s = .next t → LeavesRest StreamWord s t)
  ∧ (∀ (i : Fin 42) (s t : State), exec (.devIndexUpdate i) s = .next t → LeavesRest StreamWord s t)
  ∧ (∀ (i : Fin 42) (s t : State), exec (.ringHoldoffExpiry i) s = .next t → LeavesRest StreamWord s t)
  ∧ (∀ (i : Fin 16) (cause : Fin 7) (k : Nat) (s t : State), exec (.recordDelivered i cause k) s = .next t → LeavesRest StreamWord s t)
  ∧ (∀ (i : Fin 16) (seq : Nat) (cause : Fin 7) (k : Nat) (s t : State), exec (.boundExpiry i seq cause k) s = .next t → LeavesRest StreamWord s t)
end

