-- ==== Sys2Proof/Laws/Bits.lean ====
section
/-! SUPPORT. Bit fields and little-endian bytes: what is read after a field or a value was put. -/

namespace Sys2Proof.Machine

theorem bits_lt (n lo w : Nat) : bits n lo w < 2 ^ w := Nat.mod_lt _ (Nat.two_pow_pos w)

theorem testBit_bits (n lo w i : Nat) : (bits n lo w).testBit i = (decide (i < w) && n.testBit (lo + i)) := by
  rw [bits, Nat.testBit_mod_two_pow, Nat.testBit_div_two_pow, Nat.add_comm]

theorem testBit_putBits (n lo w v i : Nat) :
    (putBits n lo w v).testBit i = (if lo ≤ i ∧ i < lo + w then v.testBit (i - lo) else n.testBit i) := by
  have h1 : n % 2 ^ lo + v % 2 ^ w * 2 ^ lo = 2 ^ lo * (v % 2 ^ w) + n % 2 ^ lo := by ring
  have l1 : n % 2 ^ lo < 2 ^ lo := Nat.mod_lt _ (Nat.two_pow_pos lo)
  have l2 : 2 ^ lo * (v % 2 ^ w) + n % 2 ^ lo < 2 ^ (lo + w) := by
    have := Nat.mod_lt v (Nat.two_pow_pos w)
    calc 2 ^ lo * (v % 2 ^ w) + n % 2 ^ lo < 2 ^ lo * (v % 2 ^ w) + 2 ^ lo := by omega
      _ = 2 ^ lo * (v % 2 ^ w + 1) := by ring
      _ ≤ 2 ^ lo * 2 ^ w := Nat.mul_le_mul_left _ this
      _ = 2 ^ (lo + w) := by rw [pow_add]
  have h2 : putBits n lo w v = 2 ^ (lo + w) * (n / 2 ^ (lo + w)) + (2 ^ lo * (v % 2 ^ w) + n % 2 ^ lo) := by
    rw [putBits, h1]; ring
  rw [h2, Nat.testBit_two_pow_mul_add _ l2, Nat.testBit_two_pow_mul_add _ l1]
  by_cases a : i < lo
  · have b : i < lo + w := by omega
    have c : ¬ (lo ≤ i ∧ i < lo + w) := by omega
    simp [a, b, Nat.testBit_mod_two_pow]
  · by_cases b : i < lo + w
    · have c : lo ≤ i ∧ i < lo + w := by omega
      have d : i - lo < w := by omega
      simp [a, b, c, d, Nat.testBit_mod_two_pow]
    · have c : ¬ (lo ≤ i ∧ i < lo + w) := by omega
      have d : i - (lo + w) + (lo + w) = i := by omega
      rw [if_neg b, if_neg c, Nat.testBit_div_two_pow, d]

theorem bits_putBits_same (n lo w v : Nat) : bits (putBits n lo w v) lo w = v % 2 ^ w := by
  apply Nat.eq_of_testBit_eq
  intro i
  rw [testBit_bits, testBit_putBits, Nat.testBit_mod_two_pow]
  by_cases h : i < w
  · have c : lo ≤ lo + i ∧ lo + i < lo + w := by omega
    have e : lo + i - lo = i := by omega
    simp [h, c, e]
  · simp [h]

theorem bits_putBits_other (n lo w v lo' w' : Nat) (h : lo' + w' ≤ lo ∨ lo + w ≤ lo') :
    bits (putBits n lo w v) lo' w' = bits n lo' w' := by
  apply Nat.eq_of_testBit_eq
  intro i
  rw [testBit_bits, testBit_bits, testBit_putBits]
  by_cases g : i < w'
  · have c : ¬ (lo ≤ lo' + i ∧ lo' + i < lo + w) := by omega
    rw [if_neg c]
  · simp [g]

theorem bits_mod (n lo w k : Nat) (h : lo + w ≤ k) : bits (n % 2 ^ k) lo w = bits n lo w := by
  apply Nat.eq_of_testBit_eq
  intro i
  rw [testBit_bits, testBit_bits, Nat.testBit_mod_two_pow]
  by_cases g : i < w
  · have : lo + i < k := by omega
    simp [this]
  · simp [g]

theorem satNat_of_le {x hi : Nat} (h : x ≤ hi) : satNat x hi = x := by simp [satNat, Nat.not_lt.mpr h]
theorem satNat_le (x hi : Nat) : satNat x hi ≤ hi := by unfold satNat; split <;> omega

@[simp] theorem leBytes_length (n v : Nat) : (leBytes n v).length = n := by
  induction n generalizing v with
  | zero => rfl
  | succ n ih => simp [leBytes, ih]

theorem leVal_leBytes (n v : Nat) : leVal (leBytes n v) = v % 256 ^ n := by
  induction n generalizing v with
  | zero => simp [leBytes, leVal, Nat.mod_one]
  | succ n ih =>
    have e : 256 ^ (n + 1) = 256 * 256 ^ n := by ring
    rw [leBytes, leVal, ih, BitVec.toNat_ofNat, e, Nat.mod_mul]

@[simp] theorem zeros_length (n : Nat) : (zeros n).length = n := by simp [zeros]

theorem slice_length (bs : List Byte) (o n : Nat) : (slice bs o n).length = n := by simp [slice]; omega

end Sys2Proof.Machine
end

