-- ==== Sys2Proof/Laws/State.lean ====
section
/-! SUPPORT. What each primitive action does to each part of the state, and how a meaning runs. Each is proved by unfolding, but given as an
equation that is rewritten with and not as one that holds by computation: checking a proof then compares two states only where they are
spelled alike, and never runs a meaning to find out. -/

namespace Sys2Proof.Machine

variable (s : State)

@[simp] theorem setReg_pending (a : Nat) (v : Word) : ((Act.setReg a v).apply s).pending = s.pending := id rfl
@[simp] theorem setReg_mem (a : Nat) (v : Word) : ((Act.setReg a v).apply s).mem = s.mem := id rfl
@[simp] theorem setReg_dev (a : Nat) (v : Word) : ((Act.setReg a v).apply s).dev = s.dev := id rfl
@[simp] theorem setReg_out (a : Nat) (v : Word) : ((Act.setReg a v).apply s).out = s.out := id rfl
@[simp] theorem setReg_free (a : Nat) (v : Word) : ((Act.setReg a v).apply s).free = s.free := id rfl
@[simp] theorem setByte_pending (a : Nat) (b : Byte) : ((Act.setByte a b).apply s).pending = s.pending := id rfl
@[simp] theorem setByte_regs (a : Nat) (b : Byte) : ((Act.setByte a b).apply s).regs = s.regs := id rfl
@[simp] theorem setByte_dev (a : Nat) (b : Byte) : ((Act.setByte a b).apply s).dev = s.dev := id rfl
@[simp] theorem setByte_out (a : Nat) (b : Byte) : ((Act.setByte a b).apply s).out = s.out := id rfl
@[simp] theorem setByte_free (a : Nat) (b : Byte) : ((Act.setByte a b).apply s).free = s.free := id rfl
@[simp] theorem emit_pending (o : Out) : ((Act.emit o).apply s).pending = s.pending := id rfl
@[simp] theorem emit_regs (o : Out) : ((Act.emit o).apply s).regs = s.regs := id rfl
@[simp] theorem emit_mem (o : Out) : ((Act.emit o).apply s).mem = s.mem := id rfl
@[simp] theorem emit_dev (o : Out) : ((Act.emit o).apply s).dev = s.dev := id rfl
@[simp] theorem emit_out (o : Out) : ((Act.emit o).apply s).out = o :: s.out := id rfl
@[simp] theorem emit_free (o : Out) : ((Act.emit o).apply s).free = s.free := id rfl
@[simp] theorem dev_pending (f : Dev → Dev) : ((Act.dev f).apply s).pending = s.pending := id rfl
@[simp] theorem dev_regs (f : Dev → Dev) : ((Act.dev f).apply s).regs = s.regs := id rfl
@[simp] theorem dev_mem (f : Dev → Dev) : ((Act.dev f).apply s).mem = s.mem := id rfl
@[simp] theorem dev_dev (f : Dev → Dev) : ((Act.dev f).apply s).dev = f s.dev := id rfl
@[simp] theorem dev_out (f : Dev → Dev) : ((Act.dev f).apply s).out = s.out := id rfl
@[simp] theorem dev_free (f : Dev → Dev) : ((Act.dev f).apply s).free = s.free := id rfl
@[simp] theorem fresh_pending : (Act.fresh.apply s).pending = s.pending := id rfl
@[simp] theorem fresh_regs : (Act.fresh.apply s).regs = s.regs := id rfl
@[simp] theorem fresh_mem : (Act.fresh.apply s).mem = s.mem := id rfl
@[simp] theorem fresh_dev : (Act.fresh.apply s).dev = s.dev := id rfl
@[simp] theorem fresh_out : (Act.fresh.apply s).out = s.out := id rfl
@[simp] theorem fresh_free : (Act.fresh.apply s).free = s.free + 1 := id rfl

@[simp] theorem run_skip : run .skip s = s := id rfl
@[simp] theorem run_act (a : Act) (k : Prog) : run (.act a k) s = run k (a.apply s) := id rfl
@[simp] theorem run_look (f : State → Prog) : run (.look f) s = run (f s) s := id rfl
@[simp] theorem run_look' (f : State → Prog) : run (look f) s = run (f s) s := id rfl

theorem run_seq (p q : Prog) (s : State) : run (p.seq q) s = run q (run p s) := by
  induction p generalizing s with
  | skip => rfl
  | act a k ih => exact ih _
  | look f ih => exact ih s s

@[simp] theorem run_block_nil : run (block []) s = s := id rfl
@[simp] theorem run_block_cons (p : Prog) (ps : List Prog) : run (block (p :: ps)) s = run (block ps) (run p s) := run_seq p _ s
@[simp] theorem run_forEach_nil {α : Type} (f : α → Prog) : run (forEach [] f) s = s := id rfl
@[simp] theorem run_forEach_cons {α : Type} (x : α) (xs : List α) (f : α → Prog) :
    run (forEach (x :: xs) f) s = run (forEach xs f) (run (f x) s) := run_seq (f x) _ s
@[simp] theorem run_when_true (p : Prog) : run (when true p) s = run p s := id rfl
@[simp] theorem run_when_false (p : Prog) : run (when false p) s = s := id rfl
@[simp] theorem run_emit (o : Out) : run (emit o) s = (Act.emit o).apply s := id rfl
@[simp] theorem run_dev (f : Dev → Dev) : run (dev f) s = (Act.dev f).apply s := id rfl
@[simp] theorem run_setReg (a : Nat) (v : Word) : run (setReg a v) s = (Act.setReg a v).apply s := id rfl
@[simp] theorem run_setByte (a : Nat) (b : Byte) : run (setByte a b) s = (Act.setByte a b).apply s := id rfl
@[simp] theorem run_setBytes_nil (a : Nat) : run (setBytes a []) s = s := id rfl
@[simp] theorem run_setBytes_cons (a : Nat) (b : Byte) (bs : List Byte) :
    run (setBytes a (b :: bs)) s = run (setBytes (a + 1) bs) ((Act.setByte a b).apply s) := id rfl

@[simp] theorem run_fresh (k : Nat → Prog) : run (fresh k) s = run (k (Config.freeValue s.free)) (Act.fresh.apply s) := id rfl

theorem run_when (c : Bool) (p : Prog) : run (when c p) s = if c then run p s else s := by cases c <;> rfl

/-- A relation that every action keeps is kept by every meaning. -/
theorem run_keeps (R : State → State → Prop) (refl : ∀ s, R s s) (trans : ∀ a b c, R a b → R b c → R a c)
    (h : ∀ (a : Act) (s : State), R s (a.apply s)) (p : Prog) (s : State) : R s (run p s) := by
  induction p generalizing s with
  | skip => exact refl s
  | act a k ih => exact trans _ _ _ (h a s) (ih _)
  | look f ih => exact ih s s

/-- A property that every action keeps is kept by every meaning. -/
theorem run_preserves (P : State → Prop) (h : ∀ (a : Act) (s : State), P s → P (a.apply s)) (p : Prog) (s : State)
    (hs : P s) : P (run p s) := by
  induction p generalizing s with
  | skip => exact hs
  | act a k ih => exact ih _ (h a s hs)
  | look f ih => exact ih s s hs

end Sys2Proof.Machine
end

