-- ==== Sys2Proof/Laws/Table.lean ====
section
/-! SUPPORT. Sparse tables: what a write leaves, and that it keeps the canonical form. -/

namespace Sys2Proof.Machine

variable {α : Type}

theorem Tbl.get_erase_same (d : α) (t : List (Nat × α)) (x : Nat) : Tbl.get d (Tbl.erase t x) x = d := by
  induction t with
  | nil => rfl
  | cons c t ih =>
    obtain ⟨k, v⟩ := c
    by_cases h : x = k
    · simpa [Tbl.erase, h] using h ▸ ih
    · simpa [Tbl.erase, h, Tbl.get] using ih

theorem Tbl.get_erase_other (d : α) (t : List (Nat × α)) {x y : Nat} (n : y ≠ x) : Tbl.get d (Tbl.erase t x) y = Tbl.get d t y := by
  induction t with
  | nil => rfl
  | cons c t ih =>
    obtain ⟨k, v⟩ := c
    by_cases h : x = k
    · subst h; simp [Tbl.erase, Tbl.get, n, ih]
    · by_cases g : y = k <;> simp [Tbl.erase, h, Tbl.get, g, ih]

theorem Tbl.get_insert_same (d : α) (t : List (Nat × α)) (x : Nat) (w : α) : Tbl.get d (Tbl.insert t x w) x = w := by
  induction t with
  | nil => simp [Tbl.insert, Tbl.get]
  | cons c t ih =>
    obtain ⟨k, v⟩ := c
    by_cases l : x < k
    · simp [Tbl.insert, l, Tbl.get]
    · by_cases h : x = k
      · simp [Tbl.insert, h, Tbl.get]
      · simp [Tbl.insert, l, h, Tbl.get, ih]

theorem Tbl.get_insert_other (d : α) (t : List (Nat × α)) {x y : Nat} (w : α) (n : y ≠ x) :
    Tbl.get d (Tbl.insert t x w) y = Tbl.get d t y := by
  induction t with
  | nil => simp [Tbl.insert, Tbl.get, n]
  | cons c t ih =>
    obtain ⟨k, v⟩ := c
    by_cases l : x < k
    · simp [Tbl.insert, l, Tbl.get, n]
    · by_cases h : x = k
      · subst h; simp [Tbl.insert, Tbl.get, n]
      · by_cases g : y = k <;> simp [Tbl.insert, l, h, Tbl.get, g, ih]

theorem Tbl.get_set_same [DecidableEq α] (d : α) (t : List (Nat × α)) (x : Nat) (w : α) : Tbl.get d (Tbl.set d t x w) x = w := by
  unfold Tbl.set
  split
  · rename_i h; rw [Tbl.get_erase_same, h]
  · exact Tbl.get_insert_same d t x w

theorem Tbl.get_set_other [DecidableEq α] (e d : α) (t : List (Nat × α)) {x y : Nat} (w : α) (n : y ≠ x) :
    Tbl.get e (Tbl.set d t x w) y = Tbl.get e t y := by
  unfold Tbl.set
  split
  · exact Tbl.get_erase_other e t n
  · exact Tbl.get_insert_other e t w n

theorem Tbl.rising_mono {b c : Option Nat} (t : List (Nat × α)) (h : ∀ k, b = some k → ∃ j, c = some j ∧ k ≤ j)
    (r : Tbl.rising c t = true) : Tbl.rising b t = true := by
  cases t with
  | nil => cases b <;> rfl
  | cons x t =>
    obtain ⟨k, v⟩ := x
    cases b with
    | none => cases c <;> simp_all [Tbl.rising]
    | some m =>
      obtain ⟨j, rfl, l⟩ := h m rfl
      simp only [Tbl.rising, Bool.and_eq_true, decide_eq_true_eq] at r ⊢
      exact ⟨by omega, r.2⟩

theorem Tbl.rising_erase {b : Option Nat} (t : List (Nat × α)) (x : Nat) (r : Tbl.rising b t = true) :
    Tbl.rising b (Tbl.erase t x) = true := by
  induction t generalizing b with
  | nil => exact r
  | cons c t ih =>
    obtain ⟨k, v⟩ := c
    by_cases h : x = k
    · simp only [Tbl.erase, h, if_true]
      apply h ▸ ih
      cases b with
      | none => exact Tbl.rising_mono t (by simp) r
      | some m =>
        simp only [Tbl.rising, Bool.and_eq_true, decide_eq_true_eq] at r
        exact Tbl.rising_mono t (c := some k) (by intro y e; exact ⟨k, rfl, by cases e; omega⟩) r.2
    · cases b with
      | none => simpa [Tbl.erase, h, Tbl.rising] using ih r
      | some m =>
        simp only [Tbl.rising, Bool.and_eq_true, decide_eq_true_eq] at r
        simp [Tbl.erase, h, Tbl.rising, r.1, ih r.2]

theorem Tbl.rising_insert {b : Option Nat} (t : List (Nat × α)) (x : Nat) (w : α) (hb : ∀ k, b = some k → k < x)
    (r : Tbl.rising b t = true) : Tbl.rising b (Tbl.insert t x w) = true := by
  induction t generalizing b with
  | nil => cases b <;> simp_all [Tbl.insert, Tbl.rising]
  | cons c t ih =>
    obtain ⟨k, v⟩ := c
    have rt : Tbl.rising (some k) t = true := by cases b <;> simp_all [Tbl.rising]
    by_cases l : x < k
    · cases b <;> simp_all [Tbl.insert, Tbl.rising]
    · by_cases h : x = k
      · cases b <;> simp_all [Tbl.insert, Tbl.rising]
      · have := ih (b := some k) (by intro y e; cases e; omega) rt
        have l' : ¬ x < k := l
        cases b <;> simp_all only [Tbl.insert, Tbl.rising, if_false, Bool.and_eq_true, decide_eq_true_eq, and_self]

theorem Tbl.all_erase (p : Nat × α → Bool) (t : List (Nat × α)) (x : Nat) (h : t.all p = true) : (Tbl.erase t x).all p = true := by
  induction t with
  | nil => exact h
  | cons c t ih =>
    obtain ⟨k, v⟩ := c
    simp only [List.all_cons, Bool.and_eq_true] at h
    by_cases e : x = k
    · simpa only [Tbl.erase, e, if_true] using e ▸ ih h.2
    · simpa only [Tbl.erase, e, if_false, List.all_cons, Bool.and_eq_true] using ⟨h.1, ih h.2⟩

theorem Tbl.all_insert (p : Nat × α → Bool) (t : List (Nat × α)) (x : Nat) (w : α) (hw : p (x, w) = true) (h : t.all p = true) :
    (Tbl.insert t x w).all p = true := by
  induction t with
  | nil => simpa [Tbl.insert] using hw
  | cons c t ih =>
    obtain ⟨k, v⟩ := c
    simp only [List.all_cons, Bool.and_eq_true] at h
    by_cases l : x < k
    · simp only [Tbl.insert, l, if_true, List.all_cons, Bool.and_eq_true]; exact ⟨hw, h.1, h.2⟩
    · by_cases e : x = k
      · subst e; simp only [Tbl.insert, l, if_false, if_true, List.all_cons, Bool.and_eq_true]; exact ⟨hw, h.2⟩
      · simp only [Tbl.insert, l, e, if_false, List.all_cons, Bool.and_eq_true]; exact ⟨h.1, ih h.2⟩

/-- A write keeps the canonical form of a table. -/
theorem Tbl.wf_set [DecidableEq α] (d : Nat → α) (t : List (Nat × α)) (x : Nat) (w : α) (h : Tbl.wf d t = true) :
    Tbl.wf d (Tbl.set (d x) t x w) = true := by
  simp only [Tbl.wf, Bool.and_eq_true] at h ⊢
  unfold Tbl.set
  split
  · exact ⟨Tbl.rising_erase t x h.1, Tbl.all_erase _ t x h.2⟩
  · rename_i e
    exact ⟨Tbl.rising_insert t x w (by simp) h.1, Tbl.all_insert _ t x w (by simpa using e) h.2⟩

theorem Tbl.get_eq_of_lt (d : α) {b : Nat} (t : List (Nat × α)) (r : Tbl.rising (some b) t = true) {y : Nat} (l : y ≤ b) :
    Tbl.get d t y = d := by
  induction t generalizing b with
  | nil => rfl
  | cons c t ih =>
    obtain ⟨k, v⟩ := c
    simp only [Tbl.rising, Bool.and_eq_true, decide_eq_true_eq] at r
    have : y ≠ k := by omega
    simp [Tbl.get, this, ih r.2 (by omega : y ≤ k)]

end Sys2Proof.Machine
end

