-- ==== Sys2Proof/Laws/Regs.lean ====
section
/-! SUPPORT. Register words and fields: what is read after each primitive action and after a field was set. -/

namespace Sys2Proof.Machine

/-- All bits of a field exist, within one word. -/
abbrev Fld.Whole (f : Fld) : Prop := f.lo + f.width ≤ 32 ∧ bits (Reg.mask f.addr).toNat f.lo f.width = 2 ^ f.width - 1

theorem reg_setReg_same (s : State) (a : Nat) (v : Word) : ((Act.setReg a v).apply s).reg a = Reg.fit a v :=
  Tbl.get_set_same _ _ _ _

theorem reg_setReg_other (s : State) {a b : Nat} (v : Word) (h : b ≠ a) : ((Act.setReg a v).apply s).reg b = s.reg b :=
  Tbl.get_set_other _ _ _ _ h

@[simp] theorem reg_setByte (s : State) (a : Nat) (b : Byte) (x : Nat) : ((Act.setByte a b).apply s).reg x = s.reg x := id rfl
@[simp] theorem reg_emit (s : State) (o : Out) (x : Nat) : ((Act.emit o).apply s).reg x = s.reg x := id rfl
@[simp] theorem reg_dev (s : State) (f : Dev → Dev) (x : Nat) : ((Act.dev f).apply s).reg x = s.reg x := id rfl
@[simp] theorem reg_fresh (s : State) (x : Nat) : (Act.fresh.apply s).reg x = s.reg x := id rfl
@[simp] theorem get_setByte (s : State) (a : Nat) (b : Byte) (f : Fld) : ((Act.setByte a b).apply s).get f = s.get f := id rfl
@[simp] theorem get_emit (s : State) (o : Out) (f : Fld) : ((Act.emit o).apply s).get f = s.get f := id rfl
@[simp] theorem get_dev (s : State) (g : Dev → Dev) (f : Fld) : ((Act.dev g).apply s).get f = s.get f := id rfl
@[simp] theorem get_fresh (s : State) (f : Fld) : (Act.fresh.apply s).get f = s.get f := id rfl
@[simp] theorem byte_setReg (s : State) (a : Nat) (v : Word) (x : Nat) : ((Act.setReg a v).apply s).byte x = s.byte x := id rfl
@[simp] theorem byte_emit (s : State) (o : Out) (x : Nat) : ((Act.emit o).apply s).byte x = s.byte x := id rfl
@[simp] theorem byte_dev (s : State) (f : Dev → Dev) (x : Nat) : ((Act.dev f).apply s).byte x = s.byte x := id rfl
@[simp] theorem byte_fresh (s : State) (x : Nat) : (Act.fresh.apply s).byte x = s.byte x := id rfl

/-- Fitting a word twice changes nothing more. -/
theorem Reg.fit_fit (a : Nat) (v : Word) : Reg.fit a (Reg.fit a v) = Reg.fit a v := by
  unfold Reg.fit
  ext i hi
  simp
  cases (Reg.mask a)[i] <;> simp

theorem testBit_fit (a : Nat) (v : Word) (i : Nat) (h : (Reg.mask a).toNat.testBit i = true) :
    (Reg.fit a v).toNat.testBit i = v.toNat.testBit i := by
  simp only [BitVec.testBit_toNat] at h ⊢
  unfold Reg.fit
  simp [h]

theorem testBit_of_full {n lo w i : Nat} (h : bits n lo w = 2 ^ w - 1) (l : lo ≤ i) (u : i < lo + w) : n.testBit i = true := by
  have := testBit_bits n lo w (i - lo)
  rw [h, Nat.testBit_two_pow_sub_one] at this
  have d : i - lo < w := by omega
  have e : lo + (i - lo) = i := by omega
  simpa [d, e] using this.symm

/-- The bits of a field that exist hold what was written. -/
theorem bits_fit (a : Nat) (v : Word) (lo w : Nat) (h : bits (Reg.mask a).toNat lo w = 2 ^ w - 1) :
    bits (Reg.fit a v).toNat lo w = bits v.toNat lo w := by
  apply Nat.eq_of_testBit_eq
  intro i
  rw [testBit_bits, testBit_bits]
  by_cases g : i < w
  · rw [testBit_fit a v (lo + i) (testBit_of_full h (by omega) (by omega))]
  · simp [g]

theorem run_set (f : Fld) (v : Nat) (s : State) (h : f.width ≤ 32) :
    run (set f v) s = (Act.setReg f.addr (BitVec.ofNat 32 (putBits (s.reg f.addr).toNat f.lo f.width v))).apply s := by
  simp [set, h]

theorem run_set_wide (f : Fld) (v : Nat) (s : State) (h : 32 < f.width) :
    run (set f v) s = (Act.setReg (f.addr + 4) (BitVec.ofNat 32 (v / 0x100000000))).apply
      ((Act.setReg f.addr (BitVec.ofNat 32 v)).apply s) := by
  simp [set, Nat.not_le.mpr h]

theorem get_narrow (s : State) (f : Fld) (h : f.width ≤ 32) : s.get f = bits (s.reg f.addr).toNat f.lo f.width := by
  simp [State.get, h]

/-- A field reads what was set. -/
theorem get_set_same (f : Fld) (v : Nat) (s : State) (h : f.Whole) : (run (set f v) s).get f = v % 2 ^ f.width := by
  have w : f.width ≤ 32 := by have := h.1; omega
  rw [run_set f v s w, get_narrow _ f w, reg_setReg_same, bits_fit _ _ _ _ h.2, BitVec.toNat_ofNat, bits_mod _ _ _ _ h.1,
    bits_putBits_same]

/-- Setting a field leaves every other word alone. -/
theorem reg_set_other (f : Fld) (v : Nat) (s : State) {a : Nat} (h : a ≠ f.addr) (h' : f.width ≤ 32 ∨ a ≠ f.addr + 4) :
    (run (set f v) s).reg a = s.reg a := by
  by_cases w : f.width ≤ 32
  · rw [run_set f v s w, reg_setReg_other _ _ h]
  · rw [run_set_wide f v s (by omega), reg_setReg_other _ _ (by tauto), reg_setReg_other _ _ h]

/-- Setting a field leaves a field of another word alone. -/
theorem get_set_other (f g : Fld) (v : Nat) (s : State) (hg : g.width ≤ 32) (h : g.addr ≠ f.addr)
    (h' : f.width ≤ 32 ∨ g.addr ≠ f.addr + 4) : (run (set f v) s).get g = s.get g := by
  rw [get_narrow _ g hg, get_narrow _ g hg, reg_set_other f v s h h']

/-- Setting a field leaves the other fields of its word alone. -/
theorem get_set_beside (f g : Fld) (v : Nat) (s : State) (hf : f.width ≤ 32) (hg : g.Whole) (a : g.addr = f.addr)
    (h : g.lo + g.width ≤ f.lo ∨ f.lo + f.width ≤ g.lo) : (run (set f v) s).get g = s.get g := by
  have w : g.width ≤ 32 := by have := hg.1; omega
  rw [run_set f v s hf, get_narrow _ g w, get_narrow _ g w, a, reg_setReg_same, bits_fit _ _ _ _ (a ▸ hg.2), BitVec.toNat_ofNat,
    bits_mod _ _ _ _ hg.1, bits_putBits_other _ _ _ _ _ _ h]

@[simp] theorem set_dev (f : Fld) (v : Nat) (s : State) : (run (set f v) s).dev = s.dev := by
  by_cases w : f.width ≤ 32
  · rw [run_set f v s w]; rfl
  · rw [run_set_wide f v s (by omega)]; rfl

@[simp] theorem set_mem (f : Fld) (v : Nat) (s : State) : (run (set f v) s).mem = s.mem := by
  by_cases w : f.width ≤ 32
  · rw [run_set f v s w]; rfl
  · rw [run_set_wide f v s (by omega)]; rfl

@[simp] theorem set_out (f : Fld) (v : Nat) (s : State) : (run (set f v) s).out = s.out := by
  by_cases w : f.width ≤ 32
  · rw [run_set f v s w]; rfl
  · rw [run_set_wide f v s (by omega)]; rfl

@[simp] theorem set_pending (f : Fld) (v : Nat) (s : State) : (run (set f v) s).pending = s.pending := by
  by_cases w : f.width ≤ 32
  · rw [run_set f v s w]; rfl
  · rw [run_set_wide f v s (by omega)]; rfl

theorem run_bumpBy (f : Fld) (n : Nat) (s : State) : run (bumpBy f n) s = run (set f (satNat (s.get f + n) (2 ^ f.width - 1))) s := id rfl

@[simp] theorem bumpBy_dev (f : Fld) (n : Nat) (s : State) : (run (bumpBy f n) s).dev = s.dev := set_dev f _ s
@[simp] theorem bumpBy_mem (f : Fld) (n : Nat) (s : State) : (run (bumpBy f n) s).mem = s.mem := set_mem f _ s
@[simp] theorem bumpBy_out (f : Fld) (n : Nat) (s : State) : (run (bumpBy f n) s).out = s.out := set_out f _ s
@[simp] theorem bump_dev (f : Fld) (s : State) : (run (bump f) s).dev = s.dev := set_dev f _ s
@[simp] theorem bump_mem (f : Fld) (s : State) : (run (bump f) s).mem = s.mem := set_mem f _ s
@[simp] theorem bump_out (f : Fld) (s : State) : (run (bump f) s).out = s.out := set_out f _ s

theorem get_bump_other (f g : Fld) (s : State) (hg : g.width ≤ 32) (h : g.addr ≠ f.addr) (h' : f.width ≤ 32 ∨ g.addr ≠ f.addr + 4) :
    (run (bump f) s).get g = s.get g := get_set_other f g _ s hg h h'

/-- A counter within one word counts up to its highest value (R29, R169). -/
theorem get_bumpBy_same (f : Fld) (n : Nat) (s : State) (h : f.Whole) :
    (run (bumpBy f n) s).get f = satNat (s.get f + n) (2 ^ f.width - 1) := by
  rw [run_bumpBy, get_set_same f _ s h]
  apply Nat.mod_eq_of_lt
  have := satNat_le (s.get f + n) (2 ^ f.width - 1)
  have := Nat.two_pow_pos f.width
  omega

theorem get_bump_same (f : Fld) (s : State) (h : f.Whole) : (run (bump f) s).get f = satNat (s.get f + 1) (2 ^ f.width - 1) :=
  get_bumpBy_same f 1 s h

end Sys2Proof.Machine
end

