-- ==== Sys2Proof/Laws/Memory.lean ====
section
/-! SUPPORT. Memory: what a byte reads as after a write, and that every operation keeps the canonical form. -/

namespace Sys2Proof.Machine

theorem byte_setByte_same (s : State) (a : Nat) (b : Byte) : ((Act.setByte a b).apply s).byte a = b := Tbl.get_set_same _ _ _ _

theorem byte_setByte_other (s : State) {a x : Nat} (b : Byte) (h : x ≠ a) : ((Act.setByte a b).apply s).byte x = s.byte x :=
  Tbl.get_set_other _ _ _ _ h

/-- A write of consecutive bytes leaves every byte outside them alone. -/
theorem byte_setBytes_outside (bs : List Byte) (s : State) (a x : Nat) (h : x < a ∨ a + bs.length ≤ x) :
    (run (setBytes a bs) s).byte x = s.byte x := by
  induction bs generalizing a s with
  | nil => rfl
  | cons b bs ih =>
    simp only [List.length_cons] at h
    rw [run_setBytes_cons, ih _ _ (by omega), byte_setByte_other _ _ (by omega)]

/-- The bytes read after a write of consecutive bytes are the bytes written. -/
theorem bytes_setBytes (bs : List Byte) (s : State) (a : Nat) : (run (setBytes a bs) s).bytes a bs.length = bs := by
  induction bs generalizing a s with
  | nil => rfl
  | cons b bs ih =>
    rw [run_setBytes_cons, List.length_cons, State.bytes, ih, byte_setBytes_outside _ _ _ _ (by omega), byte_setByte_same]

@[simp] theorem setBytes_dev (bs : List Byte) (s : State) (a : Nat) : (run (setBytes a bs) s).dev = s.dev := by
  induction bs generalizing a s with
  | nil => rfl
  | cons b bs ih => rw [run_setBytes_cons, ih]; rfl

@[simp] theorem setBytes_regs (bs : List Byte) (s : State) (a : Nat) : (run (setBytes a bs) s).regs = s.regs := by
  induction bs generalizing a s with
  | nil => rfl
  | cons b bs ih => rw [run_setBytes_cons, ih]; rfl

@[simp] theorem setBytes_out (bs : List Byte) (s : State) (a : Nat) : (run (setBytes a bs) s).out = s.out := by
  induction bs generalizing a s with
  | nil => rfl
  | cons b bs ih => rw [run_setBytes_cons, ih]; rfl

/-- Every primitive action, and so every memory operation, keeps the canonical form of memory. -/
theorem memory_wf_apply (a : Act) (s : State) (h : Memory.wf s) : Memory.wf (a.apply s) := by
  cases a with
  | setByte x b => exact Tbl.wf_set Mem.default s.mem x b h
  | _ => exact h

end Sys2Proof.Machine
end

