-- ==== Sys2Proof/Laws/Frame.lean ====
section
/-! SUPPORT. What a meaning leaves alone: the rules for programs, and the frames of the shared operations that tell the host or another
device something. -/

namespace Sys2Proof.Machine
open Reg

/-- A meaning leaves a view of the state alone. -/
def Keeps {β : Type} (g : State → β) (p : Prog) : Prop := ∀ s, g (run p s) = g s

theorem Keeps.get {f : Fld} {p : Prog} (h : Keeps (fun s => s.get f) p) (s : State) : (run p s).get f = s.get f := h s
theorem Keeps.reg {a : Nat} {p : Prog} (h : Keeps (fun s => s.reg a) p) (s : State) : (run p s).reg a = s.reg a := h s
theorem Keeps.mem {p : Prog} (h : Keeps (fun s => s.mem) p) (s : State) : (run p s).mem = s.mem := h s
theorem Keeps.byte {a : Nat} {p : Prog} (h : Keeps (fun s => s.byte a) p) (s : State) : (run p s).byte a = s.byte a := h s
theorem Keeps.dev {β : Type} {g : Dev → β} {p : Prog} (h : Keeps (fun s => g s.dev) p) (s : State) : g (run p s).dev = g s.dev := h s

section Rules
variable {β : Type} {g : State → β}

theorem keeps_skip : Keeps g .skip := fun _ => rfl
theorem keeps_look {f : State → Prog} (h : ∀ s, Keeps g (f s)) : Keeps g (look f) := fun s => h s s
theorem keeps_look' {f : State → Prog} (h : ∀ s, Keeps g (f s)) : Keeps g (.look f) := fun s => h s s
theorem keeps_act {a : Act} {k : Prog} (h : ∀ s, g (a.apply s) = g s) (hk : Keeps g k) : Keeps g (.act a k) :=
  fun s => (hk _).trans (h s)
theorem keeps_seq {p q : Prog} (hp : Keeps g p) (hq : Keeps g q) : Keeps g (p.seq q) := fun s => by
  rw [run_seq, hq, hp]
theorem keeps_nil : Keeps g (block []) := keeps_skip
theorem keeps_cons {p : Prog} {ps : List Prog} (hp : Keeps g p) (hs : Keeps g (block ps)) : Keeps g (block (p :: ps)) :=
  keeps_seq hp hs
theorem keeps_when {c : Bool} {p : Prog} (h : Keeps g p) : Keeps g (when c p) := by
  cases c
  · exact keeps_skip
  · exact h
theorem keeps_ite {c : Prop} [Decidable c] {p q : Prog} (hp : Keeps g p) (hq : Keeps g q) : Keeps g (if c then p else q) := by
  split
  · exact hp
  · exact hq
theorem keeps_forEach {α : Type} {xs : List α} {f : α → Prog} (h : ∀ x ∈ xs, Keeps g (f x)) : Keeps g (forEach xs f) := by
  induction xs with
  | nil => exact keeps_skip
  | cons x xs ih =>
    exact keeps_seq (h x (by simp)) (ih fun y hy => h y (by simp [hy]))
theorem keeps_fresh {k : Nat → Prog} (h : ∀ s, g (Act.fresh.apply s) = g s) (hk : ∀ n, Keeps g (k n)) : Keeps g (fresh k) :=
  fun s => ((hk _) _).trans (h s)
end Rules

/-! A view of one register word. -/

theorem keepsReg_set {a : Nat} {f : Fld} {v : Nat} (h : a ≠ f.addr) (h' : f.width ≤ 32 ∨ a ≠ f.addr + 4) :
    Keeps (fun s => s.reg a) (set f v) := fun s => reg_set_other f v s h h'

theorem keepsReg_bumpBy {a : Nat} {f : Fld} {n : Nat} (h : a ≠ f.addr) (h' : f.width ≤ 32 ∨ a ≠ f.addr + 4) :
    Keeps (fun s => s.reg a) (bumpBy f n) := fun s => reg_set_other f _ s h h'

theorem keepsReg_bump {a : Nat} {f : Fld} (h : a ≠ f.addr) (h' : f.width ≤ 32 ∨ a ≠ f.addr + 4) :
    Keeps (fun s => s.reg a) (bump f) := keepsReg_bumpBy h h'

theorem keepsReg_setFlag {a : Nat} {f : Fld} (w : f.width ≤ 32) (h : a ≠ f.addr) (h' : a ≠ f.cnt) :
    Keeps (fun s => s.reg a) (setFlag f) :=
  keeps_cons (keepsReg_set h (.inl w)) (keeps_cons (keepsReg_bump (f := ⟨f.cnt, 0, 16, 0⟩) h' (.inl (by simp))) keeps_nil)

/-- A field reads as before where its words do. -/
theorem keeps_get {f : Fld} {p : Prog} (h : Keeps (fun s => s.reg f.addr) p) (h' : 32 < f.width → Keeps (fun s => s.reg (f.addr + 4)) p) :
    Keeps (fun s => s.get f) p := by
  intro s
  by_cases w : f.width ≤ 32
  · have := h s; simp only at this; simp only [get_narrow _ f w, this]
  · have a := h s; have b := h' (by omega) s; simp only at a b; simp only [State.get, if_neg w, a, b]

/-! What telling the host or another device writes. -/

/-- A view of the state that telling something leaves alone. -/
def Untold {β : Type} (g : State → β) : Prop :=
  (∀ (s : State) (h : HostIf) (n e : EvQ) (q : List (Nat × QuadSt)) (l : List LimitRec),
    g { s with dev := { s.dev with host := h, evN := n, evS := e, quads := q, limits := l } } = g s)
  ∧ (∀ (s : State) (o : Out), g ((Act.emit o).apply s) = g s)
  ∧ (∀ (s : State) (a : Nat) (v : Word), Told a → g ((Act.setReg a v).apply s) = g s)

/-- A part of the device that telling something does not touch. -/
def Quiet {β : Type} (g : Dev → β) : Prop :=
  ∀ (d : Dev) (h : HostIf) (n e : EvQ) (q : List (Nat × QuadSt)) (l : List LimitRec),
    g { d with host := h, evN := n, evS := e, quads := q, limits := l } = g d

theorem untold_dev {β : Type} {g : Dev → β} (h : Quiet g) : Untold (fun s => g s.dev) :=
  ⟨fun s a b c d e => h s.dev a b c d e, fun _ _ => rfl, fun _ _ _ _ => rfl⟩

theorem untold_reg {a : Nat} (h : ¬ Told a) : Untold (fun s => s.reg a) :=
  ⟨fun _ _ _ _ _ _ => rfl, fun _ _ => rfl, fun s b v hb => reg_setReg_other s v (by rintro rfl; exact h hb)⟩

theorem untold_mem : Untold (fun s => s.mem) := ⟨fun _ _ _ _ _ _ => rfl, fun _ _ => rfl, fun _ _ _ _ => rfl⟩

theorem untold_byte (a : Nat) : Untold (fun s => s.byte a) := ⟨fun _ _ _ _ _ _ => rfl, fun _ _ => rfl, fun _ _ _ _ => rfl⟩

theorem untold_free : Untold (fun s => s.free) := ⟨fun _ _ _ _ _ _ => rfl, fun _ _ => rfl, fun _ _ _ _ => rfl⟩

theorem untold_get {f : Fld} (h : ¬ Told f.addr) (h' : f.width ≤ 32 ∨ ¬ Told (f.addr + 4)) : Untold (fun s => s.get f) := by
  refine ⟨fun _ _ _ _ _ _ => rfl, fun _ _ => rfl, fun s b v hb => ?_⟩
  have e := reg_setReg_other s v (by rintro rfl; exact h hb : f.addr ≠ b)
  simp only [State.get, e]
  by_cases w : f.width ≤ 32
  · simp only [if_pos w]
  · have e' := reg_setReg_other s v (by rintro rfl; rcases h' with h' | h'; exact w h'; exact h' hb : f.addr + 4 ≠ b)
    simp only [if_neg w, e']

section Untold
variable {β : Type} {g : State → β}

theorem untold_setHost (h : Untold g) (f : HostIf → HostIf) : Keeps g (setHost f) :=
  fun s => h.1 s (f s.dev.host) s.dev.evN s.dev.evS s.dev.quads s.dev.limits

theorem untold_setEvq (h : Untold g) (w : Bool) (f : EvQ → EvQ) : Keeps g (setEvq w f) := fun s => by
  cases w
  · exact h.1 s s.dev.host (f s.dev.evN) s.dev.evS s.dev.quads s.dev.limits
  · exact h.1 s s.dev.host s.dev.evN (f s.dev.evS) s.dev.quads s.dev.limits

theorem untold_setQuad (h : Untold g) (q : Nat) (f : QuadSt → QuadSt) : Keeps g (setQuad q f) :=
  fun s => h.1 s s.dev.host s.dev.evN s.dev.evS _ s.dev.limits

theorem untold_limits (h : Untold g) (l : Dev → List LimitRec) : Keeps g (dev fun d => { d with limits := l d }) :=
  fun s => h.1 s s.dev.host s.dev.evN s.dev.evS s.dev.quads _

theorem untold_emit (h : Untold g) (o : Out) : Keeps g (emit o) := fun s => h.2.1 s o

theorem untold_set (h : Untold g) {f : Fld} (v : Nat) (a : Told f.addr) (b : f.width ≤ 32 ∨ Told (f.addr + 4)) : Keeps g (set f v) := by
  intro s
  by_cases w : f.width ≤ 32
  · rw [run_set f v s w, h.2.2 _ _ _ a]
  · rw [run_set_wide f v s (by omega), h.2.2 _ _ _ (b.resolve_left w), h.2.2 _ _ _ a]

theorem untold_bumpBy (h : Untold g) {f : Fld} (n : Nat) (a : Told f.addr) (b : f.width ≤ 32 ∨ Told (f.addr + 4)) :
    Keeps g (bumpBy f n) := fun s => untold_set h _ a b s

theorem untold_setFlag (h : Untold g) {f : Fld} (w : f.width ≤ 32) (a : Told f.addr) (b : Told f.cnt) : Keeps g (setFlag f) :=
  keeps_cons (untold_set h _ a (.inl w)) (keeps_cons (untold_bumpBy h (f := ⟨f.cnt, 0, 16, 0⟩) _ b (.inl (by simp))) keeps_nil)

theorem told_counter {nid i : Nat} (h : nid < 0x140) (hi : i < 8) :
    Told (Node.counter nid none i).addr ∧ Told ((Node.counter nid none i).addr + 4) := by
  simp only [Told, Node.counter, nodeBase]; omega

theorem untold_counter (h : Untold g) {nid i : Nat} (n : Nat) (hn : nid < 0x140) (hi : i < 8) :
    Keeps g (bumpBy (Node.counter nid none i) n) :=
  untold_bumpBy h n (told_counter hn hi).1 (.inr (told_counter hn hi).2)

theorem untold_drainFrom (h : Untold g) (ws : List HostWrite) : Keeps g (drainFrom ws) := by
  induction ws with
  | nil => exact untold_setHost h _
  | cons w ws ih =>
    exact keeps_look' fun s => keeps_ite
      (keeps_cons (untold_setHost h _) (keeps_cons (untold_emit h _) (keeps_cons ih keeps_nil))) (untold_setHost h _)

theorem untold_drainHost (h : Untold g) : Keeps g drainHost := keeps_look fun _ => untold_drainFrom h _

theorem untold_enqueueWrite (h : Untold g) (w : HostWrite) : Keeps g (enqueueWrite w) :=
  keeps_cons (untold_setHost h _) (keeps_cons (untold_drainHost h) keeps_nil)

theorem untold_outDiscards (h : Untold g) {fn : Nat} (f : fn < 2) : Keeps g (bump (Bridge.outDiscards fn)) :=
  untold_bumpBy h 1 (by simp only [Told, Bridge.outDiscards]; omega) (.inl (by simp [Bridge.outDiscards]))

theorem untold_bmeDiscard (h : Untold g) {fn : Nat} (f : fn < 2) : Keeps g (setFlag (Bridge.bmeDiscard fn)) :=
  untold_setFlag h (by simp [Bridge.bmeDiscard]) (by simp only [Told, Bridge.bmeDiscard]; omega) (by simp only [Told, Bridge.bmeDiscard]; omega)

theorem untold_sendMsix (h : Untold g) {fn v : Nat} (f : fn < 2) (hv : v < 128) : Keeps g (sendMsix fn v) := by
  have pend : ∀ x, Keeps g (set ⟨hostKey fn (0x3800 + 4 * (v / 32)), v % 32, 1, 0⟩ x) := fun x =>
    untold_set h x (by simp only [Told, hostKey]; omega) (.inl (by simp))
  exact keeps_look' fun _ => keeps_ite keeps_skip (keeps_ite (pend 1) (keeps_ite
    (keeps_cons (untold_outDiscards h f) (keeps_cons (untold_bmeDiscard h f)
      (keeps_cons (untold_counter h 1 (by decide) (by decide)) keeps_nil)))
    (keeps_cons (pend 0) (keeps_cons (untold_enqueueWrite h _) keeps_nil))))

theorem untold_sendHeld (h : Untold g) {fn : Nat} (f : fn < 2) : Keeps g (sendHeld fn) :=
  keeps_forEach fun v hv => keeps_look' fun _ => keeps_ite (untold_sendMsix h f (List.mem_range.mp hv)) keeps_skip

/-- A bridge flag within the bridge's block, with its counter. -/
theorem untold_bridgeFlag (h : Untold g) {fn : Nat} (f : fn < 2) {b : Nat → Fld} (w : (b fn).width ≤ 32) (ha : Told (b fn).addr)
    (hc : Told (b fn).cnt) : Keeps g (bridgeFlag fn b) :=
  keeps_cons (untold_setFlag h w ha hc) (keeps_cons (untold_sendMsix h f (by decide)) keeps_nil)

theorem untold_hostWrite (h : Untold g) (w : HostWrite) (f : w.fn < 2) : Keeps g (hostWrite w) :=
  keeps_look' fun _ => keeps_ite (untold_enqueueWrite h _)
    (keeps_cons (untold_outDiscards h f) (keeps_cons (keeps_cons (untold_bmeDiscard h f)
      (keeps_cons (untold_sendMsix h f (by decide)) keeps_nil)) (keeps_cons (untold_counter h 1 (by decide) (by decide))
      (keeps_cons (untold_setHost h _) keeps_nil))))

theorem ringFn_lt (s : State) (i : Nat) : s.ringFn i < 2 := by
  rw [State.ringFn, get_narrow _ _ (by simp [Ring.world])]
  exact bits_lt _ _ 1

theorem told_devIndex (w : Bool) : Told (Ring.devIndex (evSlot w)).addr := by cases w <;> decide

theorem untold_writeEvent (h : Untold g) (w : Bool) (r : List Byte) (l : Bool) : Keeps g (writeEvent w r l) :=
  keeps_look' fun s => keeps_cons (untold_hostWrite h _ (ringFn_lt s _))
    (keeps_cons (keeps_look' fun _ => untold_set h _ (told_devIndex w)
      (.inl (by simp [Ring.devIndex]))) (keeps_cons (untold_setEvq h _ _) keeps_nil))

theorem untold_drainEventsFrom (h : Untold g) (w : Bool) (rs : List (List Byte)) : Keeps g (drainEventsFrom w rs) := by
  induction rs with
  | nil => exact untold_setEvq h _ _
  | cons r rs ih =>
    exact keeps_look' fun s => keeps_ite (keeps_cons (untold_writeEvent h _ _ _) (keeps_cons ih keeps_nil)) (untold_setEvq h _ _)

theorem untold_drainEvents (h : Untold g) (w : Bool) : Keeps g (drainEvents w) :=
  keeps_cons (keeps_look fun _ => untold_drainEventsFrom h _ _) (keeps_cons (keeps_look fun _ => keeps_ite
    (keeps_cons (untold_counter h 1 (by decide) (by decide)) (keeps_cons (untold_writeEvent h _ _ _)
      (keeps_cons (untold_setEvq h _ _) keeps_nil))) keeps_skip) keeps_nil)

theorem untold_postEvent (h : Untold g) (w : Bool) (r : List Byte) : Keeps g (postEvent w r) :=
  have drop : Keeps g (dropEvent w) :=
    keeps_cons (untold_counter h 1 (by decide) (by decide)) (keeps_cons (untold_setEvq h _ _) keeps_nil)
  keeps_look' fun _ => keeps_ite keeps_skip (keeps_ite drop (keeps_ite drop (keeps_ite
    (keeps_cons (untold_counter h 1 (by decide) (by decide)) (keeps_cons (untold_setEvq h _ _) (keeps_cons (untold_drainEvents h _) keeps_nil)))
    (keeps_cons (untold_setEvq h _ _) (keeps_cons (untold_drainEvents h _) keeps_nil)))))

theorem untold_pumpFrom (h : Untold g) {q : Nat} (hq : q < 4) (n : Nat) : Keeps g (pumpFrom q n) := by
  induction n with
  | zero => exact keeps_skip
  | succ n ih =>
    refine keeps_look' fun s => keeps_ite keeps_skip ?_
    split
    · exact keeps_skip
    · exact keeps_cons (untold_setQuad h _ _) (keeps_cons (untold_bumpBy h 1 (by simp only [Told, Quad.txPackets]; omega)
        (.inl (by simp [Quad.txPackets]))) (keeps_cons (untold_emit h _) (keeps_cons ih keeps_nil)))

theorem untold_pump (h : Untold g) {q : Nat} (hq : q < 4) : Keeps g (pump q) := keeps_look fun _ => untold_pumpFrom h hq _

theorem untold_sendPacket (h : Untold g) {q : Nat} (hq : q < 4) (p : Packet) : Keeps g (sendPacket q p) :=
  keeps_cons (untold_setQuad h _ _) (keeps_cons (untold_pump h hq) keeps_nil)

theorem upstream_lt {s : State} {q : Nat} (h : s.upstream = some q) : q < 4 := by
  have := List.mem_of_find?_eq_some h
  simpa using this

theorem localNid_lt {n : Nat} (h : localNid n = true) : n < 0x140 := by
  simp only [localNid, Bool.or_eq_true, Bool.and_eq_true, decide_eq_true_eq] at h; omega

/-- Raising an event writes nothing but what telling writes. -/
theorem untold_raiseIn (h : Untold g) (w : Bool) (c k n : Nat) (d : List Byte) (st : Nat) : Keeps g (raiseIn w c k n d st) := by
  refine keeps_look' fun s => keeps_cons ?_ (keeps_cons ?_ keeps_nil)
  · cases e : localNid n
    · exact keeps_skip
    · exact untold_counter h 1 (localNid_lt e) (by decide)
  · cases e : (if s.on BootReg.role then s.upstream else none) with
    | none => exact untold_postEvent h _ _
    | some q =>
      refine untold_sendPacket h ?_ _
      split at e
      · exact upstream_lt e
      · cases e

theorem untold_raise (h : Untold g) (c k n : Nat) (d : List Byte) : Keeps g (raise c k n d) :=
  keeps_look' fun _ => untold_raiseIn h _ _ _ _ _ _

theorem untold_raiseStage (h : Untold g) (c k n st : Nat) (d : List Byte) : Keeps g (raiseStage c k n st d) :=
  keeps_look' fun _ => untold_raiseIn h _ _ _ _ _ _

theorem untold_raiseLimitedIn (h : Untold g) (w : Bool) (c k n b : Nat) (d : Nat → List Byte) (st : Nat) (f : Nat → Nat) :
    Keeps g (raiseLimitedIn w c k n b d st f) := by
  refine keeps_look' fun s => ?_
  simp only
  split
  · exact keeps_ite (untold_limits h _) (keeps_cons (untold_limits h _) (keeps_cons (untold_raiseIn h _ _ _ _ _ _) keeps_nil))
  · exact keeps_cons (untold_limits h _) (keeps_cons (untold_raiseIn h _ _ _ _ _ _) keeps_nil)

theorem untold_raiseLimited (h : Untold g) (c k n b : Nat) (d : Nat → List Byte) (f : Nat → Nat) :
    Keeps g (raiseLimited c k n b d f) := keeps_look' fun _ => untold_raiseLimitedIn h _ _ _ _ _ _ _ _

end Untold

end Sys2Proof.Machine
end

