-- ==== Sys2Proof/Laws/Complete.lean ====
section
/-! SUPPORT. What the completion of a pending command leaves alone, and what the answer to a command is. -/

namespace Sys2Proof.Machine
open Reg

/-- A view of the state that neither telling something nor the journal changes. -/
def Unjournaled {β : Type} (g : State → β) : Prop :=
  Untold g ∧ ∀ (s : State) (j : List Cmd), g { s with dev := { s.dev with journal := j } } = g s

theorem unjournaled_reg {a : Nat} (h : ¬ Told a) : Unjournaled (fun s => s.reg a) := ⟨untold_reg h, fun _ _ => rfl⟩
theorem unjournaled_get {f : Fld} (h : ¬ Told f.addr) (h' : f.width ≤ 32 ∨ ¬ Told (f.addr + 4)) : Unjournaled (fun s => s.get f) :=
  ⟨untold_get h h', fun _ _ => rfl⟩
theorem unjournaled_mem : Unjournaled (fun s => s.mem) := ⟨untold_mem, fun _ _ => rfl⟩
theorem unjournaled_byte (a : Nat) : Unjournaled (fun s => s.byte a) := ⟨untold_byte a, fun _ _ => rfl⟩
theorem unjournaled_dev {β : Type} {g : Dev → β} (h : Quiet g) (j : ∀ d l, g { d with journal := l } = g d) :
    Unjournaled (fun s => g s.dev) := ⟨untold_dev h, fun s l => j s.dev l⟩

section
variable {β : Type} {g : State → β}

theorem keeps_setJournal (h : Unjournaled g) (f : List Cmd → List Cmd) : Keeps g (setJournal f) := fun s => h.2 s _

theorem keeps_raiseCompleted (h : Unjournaled g) (e : Cmd) (st : Nat) : Keeps g (raiseCompleted e st) :=
  keeps_look' fun _ => untold_raiseIn h.1 _ _ _ _ _ _

theorem keeps_completeCmd (h : Unjournaled g) (e : Cmd) (st : Nat) : Keeps g (completeCmd e st) :=
  keeps_look fun _ => keeps_ite (keeps_setJournal h _)
    (keeps_cons (keeps_raiseCompleted h _ _) (keeps_cons (keeps_setJournal h _) keeps_nil))

theorem keeps_finish (h : Unjournaled g) (cls code node : Nat) {k : Cmd → Prog} (hk : ∀ e, Keeps g (k e)) (st : Nat) :
    Keeps g (finish cls code node k st) := by
  refine keeps_look' fun s => ?_
  split
  · refine keeps_cons (hk _) (keeps_cons (keeps_look fun s => ?_) keeps_nil)
    split
    · exact keeps_completeCmd h _ _
    · exact keeps_skip
  · exact keeps_skip

theorem keeps_finishKey (h : Unjournaled g) (cls code key v : Nat) {k : Cmd → Prog} (hk : ∀ e, Keeps g (k e)) (st : Nat) :
    Keeps g (finishKey cls code key v k st) := by
  refine keeps_look' fun s => ?_
  split
  · refine keeps_cons (hk _) (keeps_cons (keeps_look fun s => ?_) keeps_nil)
    split
    · exact keeps_completeCmd h _ _
    · exact keeps_skip
  · exact keeps_skip
end

end Sys2Proof.Machine
end

