-- ==== Sys2Proof/Laws/Quiet.lean ====
section
/-! SUPPORT. The parts of the device that raising an event leaves alone, one by one; and what raising leaves of registers and memory. -/

namespace Sys2Proof.Machine

variable (s : State)

@[simp] theorem raise_doorbells (c k n : Nat) (d : List Byte) : (run (raise c k n d) s).dev.doorbells = s.dev.doorbells :=
  untold_raise (untold_dev (g := fun x => x.doorbells) fun _ _ _ _ _ _ => rfl) c k n d s
@[simp] theorem raise_journal (c k n : Nat) (d : List Byte) : (run (raise c k n d) s).dev.journal = s.dev.journal :=
  untold_raise (untold_dev (g := fun x => x.journal) fun _ _ _ _ _ _ => rfl) c k n d s
@[simp] theorem raise_takes (c k n : Nat) (d : List Byte) : (run (raise c k n d) s).dev.takes = s.dev.takes :=
  untold_raise (untold_dev (g := fun x => x.takes) fun _ _ _ _ _ _ => rfl) c k n d s
@[simp] theorem raise_tw (c k n : Nat) (d : List Byte) : (run (raise c k n d) s).dev.tw = s.dev.tw :=
  untold_raise (untold_dev (g := fun x => x.tw) fun _ _ _ _ _ _ => rfl) c k n d s
@[simp] theorem raise_twc (c k n : Nat) (d : List Byte) : (run (raise c k n d) s).dev.twc = s.dev.twc :=
  untold_raise (untold_dev (g := fun x => x.twc) fun _ _ _ _ _ _ => rfl) c k n d s
@[simp] theorem raise_boot (c k n : Nat) (d : List Byte) : (run (raise c k n d) s).dev.boot = s.dev.boot :=
  untold_raise (untold_dev (g := fun x => x.boot) fun _ _ _ _ _ _ => rfl) c k n d s
@[simp] theorem raise_fuses (c k n : Nat) (d : List Byte) : (run (raise c k n d) s).dev.fuses = s.dev.fuses :=
  untold_raise (untold_dev (g := fun x => x.fuses) fun _ _ _ _ _ _ => rfl) c k n d s
@[simp] theorem raise_sec (c k n : Nat) (d : List Byte) : (run (raise c k n d) s).dev.sec = s.dev.sec :=
  untold_raise (untold_dev (g := fun x => x.sec) fun _ _ _ _ _ _ => rfl) c k n d s
@[simp] theorem raise_elec (c k n : Nat) (d : List Byte) : (run (raise c k n d) s).dev.elec = s.dev.elec :=
  untold_raise (untold_dev (g := fun x => x.elec) fun _ _ _ _ _ _ => rfl) c k n d s
@[simp] theorem raise_group (c k n : Nat) (d : List Byte) : (run (raise c k n d) s).dev.group = s.dev.group :=
  untold_raise (untold_dev (g := fun x => x.group) fun _ _ _ _ _ _ => rfl) c k n d s
@[simp] theorem raise_ownIndex (c k n : Nat) (d : List Byte) : (run (raise c k n d) s).dev.ownIndex = s.dev.ownIndex :=
  untold_raise (untold_dev (g := fun x => x.ownIndex) fun _ _ _ _ _ _ => rfl) c k n d s
@[simp] theorem raise_ownDepth (c k n : Nat) (d : List Byte) : (run (raise c k n d) s).dev.ownDepth = s.dev.ownDepth :=
  untold_raise (untold_dev (g := fun x => x.ownDepth) fun _ _ _ _ _ _ => rfl) c k n d s
@[simp] theorem raise_shadow (c k n : Nat) (d : List Byte) : (run (raise c k n d) s).dev.shadow = s.dev.shadow :=
  untold_raise (untold_dev (g := fun x => x.shadow) fun _ _ _ _ _ _ => rfl) c k n d s
@[simp] theorem raise_ctlTag (c k n : Nat) (d : List Byte) : (run (raise c k n d) s).dev.ctlTag = s.dev.ctlTag :=
  untold_raise (untold_dev (g := fun x => x.ctlTag) fun _ _ _ _ _ _ => rfl) c k n d s
@[simp] theorem raise_ctlWaits (c k n : Nat) (d : List Byte) : (run (raise c k n d) s).dev.ctlWaits = s.dev.ctlWaits :=
  untold_raise (untold_dev (g := fun x => x.ctlWaits) fun _ _ _ _ _ _ => rfl) c k n d s
@[simp] theorem raise_remoteReads (c k n : Nat) (d : List Byte) : (run (raise c k n d) s).dev.remoteReads = s.dev.remoteReads :=
  untold_raise (untold_dev (g := fun x => x.remoteReads) fun _ _ _ _ _ _ => rfl) c k n d s
@[simp] theorem raise_answered (c k n : Nat) (d : List Byte) : (run (raise c k n d) s).dev.answered = s.dev.answered :=
  untold_raise (untold_dev (g := fun x => x.answered) fun _ _ _ _ _ _ => rfl) c k n d s
@[simp] theorem raise_lateAnswers (c k n : Nat) (d : List Byte) : (run (raise c k n d) s).dev.lateAnswers = s.dev.lateAnswers :=
  untold_raise (untold_dev (g := fun x => x.lateAnswers) fun _ _ _ _ _ _ => rfl) c k n d s
@[simp] theorem raise_ecc (c k n : Nat) (d : List Byte) : (run (raise c k n d) s).dev.ecc = s.dev.ecc :=
  untold_raise (untold_dev (g := fun x => x.ecc) fun _ _ _ _ _ _ => rfl) c k n d s
@[simp] theorem raise_streams (c k n : Nat) (d : List Byte) : (run (raise c k n d) s).dev.streams = s.dev.streams :=
  untold_raise (untold_dev (g := fun x => x.streams) fun _ _ _ _ _ _ => rfl) c k n d s
@[simp] theorem raise_rings (c k n : Nat) (d : List Byte) : (run (raise c k n d) s).dev.rings = s.dev.rings :=
  untold_raise (untold_dev (g := fun x => x.rings) fun _ _ _ _ _ _ => rfl) c k n d s
@[simp] theorem raise_slotPlan (c k n : Nat) (d : List Byte) : (run (raise c k n d) s).dev.slotPlan = s.dev.slotPlan :=
  untold_raise (untold_dev (g := fun x => x.slotPlan) fun _ _ _ _ _ _ => rfl) c k n d s
@[simp] theorem raise_pwr (c k n : Nat) (d : List Byte) : (run (raise c k n d) s).dev.pwr = s.dev.pwr :=
  untold_raise (untold_dev (g := fun x => x.pwr) fun _ _ _ _ _ _ => rfl) c k n d s
@[simp] theorem raise_sensors (c k n : Nat) (d : List Byte) : (run (raise c k n d) s).dev.sensors = s.dev.sensors :=
  untold_raise (untold_dev (g := fun x => x.sensors) fun _ _ _ _ _ _ => rfl) c k n d s
@[simp] theorem raise_time (c k n : Nat) (d : List Byte) : (run (raise c k n d) s).dev.time = s.dev.time :=
  untold_raise (untold_dev (g := fun x => x.time) fun _ _ _ _ _ _ => rfl) c k n d s
@[simp] theorem raise_ptp (c k n : Nat) (d : List Byte) : (run (raise c k n d) s).dev.ptp = s.dev.ptp :=
  untold_raise (untold_dev (g := fun x => x.ptp) fun _ _ _ _ _ _ => rfl) c k n d s
@[simp] theorem raise_encs (c k n : Nat) (d : List Byte) : (run (raise c k n d) s).dev.encs = s.dev.encs :=
  untold_raise (untold_dev (g := fun x => x.encs) fun _ _ _ _ _ _ => rfl) c k n d s
@[simp] theorem raise_ports (c k n : Nat) (d : List Byte) : (run (raise c k n d) s).dev.ports = s.dev.ports :=
  untold_raise (untold_dev (g := fun x => x.ports) fun _ _ _ _ _ _ => rfl) c k n d s
@[simp] theorem raise_pipes (c k n : Nat) (d : List Byte) : (run (raise c k n d) s).dev.pipes = s.dev.pipes :=
  untold_raise (untold_dev (g := fun x => x.pipes) fun _ _ _ _ _ _ => rfl) c k n d s
@[simp] theorem raise_gens (c k n : Nat) (d : List Byte) : (run (raise c k n d) s).dev.gens = s.dev.gens :=
  untold_raise (untold_dev (g := fun x => x.gens) fun _ _ _ _ _ _ => rfl) c k n d s
@[simp] theorem raise_asms (c k n : Nat) (d : List Byte) : (run (raise c k n d) s).dev.asms = s.dev.asms :=
  untold_raise (untold_dev (g := fun x => x.asms) fun _ _ _ _ _ _ => rfl) c k n d s
@[simp] theorem raise_swaps (c k n : Nat) (d : List Byte) : (run (raise c k n d) s).dev.swaps = s.dev.swaps :=
  untold_raise (untold_dev (g := fun x => x.swaps) fun _ _ _ _ _ _ => rfl) c k n d s
@[simp] theorem raise_qcounts (c k n : Nat) (d : List Byte) : (run (raise c k n d) s).dev.qcounts = s.dev.qcounts :=
  untold_raise (untold_dev (g := fun x => x.qcounts) fun _ _ _ _ _ _ => rfl) c k n d s
@[simp] theorem raise_jobs (c k n : Nat) (d : List Byte) : (run (raise c k n d) s).dev.jobs = s.dev.jobs :=
  untold_raise (untold_dev (g := fun x => x.jobs) fun _ _ _ _ _ _ => rfl) c k n d s
@[simp] theorem raise_mem (c k n : Nat) (d : List Byte) : (run (raise c k n d) s).mem = s.mem := untold_raise untold_mem c k n d s
@[simp] theorem raise_free (c k n : Nat) (d : List Byte) : (run (raise c k n d) s).free = s.free := untold_raise untold_free c k n d s
theorem raise_get (c k n : Nat) (d : List Byte) {x : Fld} (h : ¬ Told x.addr) (h' : x.width ≤ 32 ∨ ¬ Told (x.addr + 4)) :
    (run (raise c k n d) s).get x = s.get x := untold_raise (untold_get h h') c k n d s

@[simp] theorem raiseIn_doorbells (w : Bool) (c k n : Nat) (d : List Byte) (st : Nat) : (run (raiseIn w c k n d st) s).dev.doorbells = s.dev.doorbells :=
  untold_raiseIn (untold_dev (g := fun x => x.doorbells) fun _ _ _ _ _ _ => rfl) w c k n d st s
@[simp] theorem raiseIn_journal (w : Bool) (c k n : Nat) (d : List Byte) (st : Nat) : (run (raiseIn w c k n d st) s).dev.journal = s.dev.journal :=
  untold_raiseIn (untold_dev (g := fun x => x.journal) fun _ _ _ _ _ _ => rfl) w c k n d st s
@[simp] theorem raiseIn_takes (w : Bool) (c k n : Nat) (d : List Byte) (st : Nat) : (run (raiseIn w c k n d st) s).dev.takes = s.dev.takes :=
  untold_raiseIn (untold_dev (g := fun x => x.takes) fun _ _ _ _ _ _ => rfl) w c k n d st s
@[simp] theorem raiseIn_tw (w : Bool) (c k n : Nat) (d : List Byte) (st : Nat) : (run (raiseIn w c k n d st) s).dev.tw = s.dev.tw :=
  untold_raiseIn (untold_dev (g := fun x => x.tw) fun _ _ _ _ _ _ => rfl) w c k n d st s
@[simp] theorem raiseIn_twc (w : Bool) (c k n : Nat) (d : List Byte) (st : Nat) : (run (raiseIn w c k n d st) s).dev.twc = s.dev.twc :=
  untold_raiseIn (untold_dev (g := fun x => x.twc) fun _ _ _ _ _ _ => rfl) w c k n d st s
@[simp] theorem raiseIn_boot (w : Bool) (c k n : Nat) (d : List Byte) (st : Nat) : (run (raiseIn w c k n d st) s).dev.boot = s.dev.boot :=
  untold_raiseIn (untold_dev (g := fun x => x.boot) fun _ _ _ _ _ _ => rfl) w c k n d st s
@[simp] theorem raiseIn_fuses (w : Bool) (c k n : Nat) (d : List Byte) (st : Nat) : (run (raiseIn w c k n d st) s).dev.fuses = s.dev.fuses :=
  untold_raiseIn (untold_dev (g := fun x => x.fuses) fun _ _ _ _ _ _ => rfl) w c k n d st s
@[simp] theorem raiseIn_sec (w : Bool) (c k n : Nat) (d : List Byte) (st : Nat) : (run (raiseIn w c k n d st) s).dev.sec = s.dev.sec :=
  untold_raiseIn (untold_dev (g := fun x => x.sec) fun _ _ _ _ _ _ => rfl) w c k n d st s
@[simp] theorem raiseIn_elec (w : Bool) (c k n : Nat) (d : List Byte) (st : Nat) : (run (raiseIn w c k n d st) s).dev.elec = s.dev.elec :=
  untold_raiseIn (untold_dev (g := fun x => x.elec) fun _ _ _ _ _ _ => rfl) w c k n d st s
@[simp] theorem raiseIn_group (w : Bool) (c k n : Nat) (d : List Byte) (st : Nat) : (run (raiseIn w c k n d st) s).dev.group = s.dev.group :=
  untold_raiseIn (untold_dev (g := fun x => x.group) fun _ _ _ _ _ _ => rfl) w c k n d st s
@[simp] theorem raiseIn_ownIndex (w : Bool) (c k n : Nat) (d : List Byte) (st : Nat) : (run (raiseIn w c k n d st) s).dev.ownIndex = s.dev.ownIndex :=
  untold_raiseIn (untold_dev (g := fun x => x.ownIndex) fun _ _ _ _ _ _ => rfl) w c k n d st s
@[simp] theorem raiseIn_ownDepth (w : Bool) (c k n : Nat) (d : List Byte) (st : Nat) : (run (raiseIn w c k n d st) s).dev.ownDepth = s.dev.ownDepth :=
  untold_raiseIn (untold_dev (g := fun x => x.ownDepth) fun _ _ _ _ _ _ => rfl) w c k n d st s
@[simp] theorem raiseIn_shadow (w : Bool) (c k n : Nat) (d : List Byte) (st : Nat) : (run (raiseIn w c k n d st) s).dev.shadow = s.dev.shadow :=
  untold_raiseIn (untold_dev (g := fun x => x.shadow) fun _ _ _ _ _ _ => rfl) w c k n d st s
@[simp] theorem raiseIn_ctlTag (w : Bool) (c k n : Nat) (d : List Byte) (st : Nat) : (run (raiseIn w c k n d st) s).dev.ctlTag = s.dev.ctlTag :=
  untold_raiseIn (untold_dev (g := fun x => x.ctlTag) fun _ _ _ _ _ _ => rfl) w c k n d st s
@[simp] theorem raiseIn_ctlWaits (w : Bool) (c k n : Nat) (d : List Byte) (st : Nat) : (run (raiseIn w c k n d st) s).dev.ctlWaits = s.dev.ctlWaits :=
  untold_raiseIn (untold_dev (g := fun x => x.ctlWaits) fun _ _ _ _ _ _ => rfl) w c k n d st s
@[simp] theorem raiseIn_remoteReads (w : Bool) (c k n : Nat) (d : List Byte) (st : Nat) : (run (raiseIn w c k n d st) s).dev.remoteReads = s.dev.remoteReads :=
  untold_raiseIn (untold_dev (g := fun x => x.remoteReads) fun _ _ _ _ _ _ => rfl) w c k n d st s
@[simp] theorem raiseIn_answered (w : Bool) (c k n : Nat) (d : List Byte) (st : Nat) : (run (raiseIn w c k n d st) s).dev.answered = s.dev.answered :=
  untold_raiseIn (untold_dev (g := fun x => x.answered) fun _ _ _ _ _ _ => rfl) w c k n d st s
@[simp] theorem raiseIn_lateAnswers (w : Bool) (c k n : Nat) (d : List Byte) (st : Nat) : (run (raiseIn w c k n d st) s).dev.lateAnswers = s.dev.lateAnswers :=
  untold_raiseIn (untold_dev (g := fun x => x.lateAnswers) fun _ _ _ _ _ _ => rfl) w c k n d st s
@[simp] theorem raiseIn_ecc (w : Bool) (c k n : Nat) (d : List Byte) (st : Nat) : (run (raiseIn w c k n d st) s).dev.ecc = s.dev.ecc :=
  untold_raiseIn (untold_dev (g := fun x => x.ecc) fun _ _ _ _ _ _ => rfl) w c k n d st s
@[simp] theorem raiseIn_streams (w : Bool) (c k n : Nat) (d : List Byte) (st : Nat) : (run (raiseIn w c k n d st) s).dev.streams = s.dev.streams :=
  untold_raiseIn (untold_dev (g := fun x => x.streams) fun _ _ _ _ _ _ => rfl) w c k n d st s
@[simp] theorem raiseIn_rings (w : Bool) (c k n : Nat) (d : List Byte) (st : Nat) : (run (raiseIn w c k n d st) s).dev.rings = s.dev.rings :=
  untold_raiseIn (untold_dev (g := fun x => x.rings) fun _ _ _ _ _ _ => rfl) w c k n d st s
@[simp] theorem raiseIn_slotPlan (w : Bool) (c k n : Nat) (d : List Byte) (st : Nat) : (run (raiseIn w c k n d st) s).dev.slotPlan = s.dev.slotPlan :=
  untold_raiseIn (untold_dev (g := fun x => x.slotPlan) fun _ _ _ _ _ _ => rfl) w c k n d st s
@[simp] theorem raiseIn_pwr (w : Bool) (c k n : Nat) (d : List Byte) (st : Nat) : (run (raiseIn w c k n d st) s).dev.pwr = s.dev.pwr :=
  untold_raiseIn (untold_dev (g := fun x => x.pwr) fun _ _ _ _ _ _ => rfl) w c k n d st s
@[simp] theorem raiseIn_sensors (w : Bool) (c k n : Nat) (d : List Byte) (st : Nat) : (run (raiseIn w c k n d st) s).dev.sensors = s.dev.sensors :=
  untold_raiseIn (untold_dev (g := fun x => x.sensors) fun _ _ _ _ _ _ => rfl) w c k n d st s
@[simp] theorem raiseIn_time (w : Bool) (c k n : Nat) (d : List Byte) (st : Nat) : (run (raiseIn w c k n d st) s).dev.time = s.dev.time :=
  untold_raiseIn (untold_dev (g := fun x => x.time) fun _ _ _ _ _ _ => rfl) w c k n d st s
@[simp] theorem raiseIn_ptp (w : Bool) (c k n : Nat) (d : List Byte) (st : Nat) : (run (raiseIn w c k n d st) s).dev.ptp = s.dev.ptp :=
  untold_raiseIn (untold_dev (g := fun x => x.ptp) fun _ _ _ _ _ _ => rfl) w c k n d st s
@[simp] theorem raiseIn_encs (w : Bool) (c k n : Nat) (d : List Byte) (st : Nat) : (run (raiseIn w c k n d st) s).dev.encs = s.dev.encs :=
  untold_raiseIn (untold_dev (g := fun x => x.encs) fun _ _ _ _ _ _ => rfl) w c k n d st s
@[simp] theorem raiseIn_ports (w : Bool) (c k n : Nat) (d : List Byte) (st : Nat) : (run (raiseIn w c k n d st) s).dev.ports = s.dev.ports :=
  untold_raiseIn (untold_dev (g := fun x => x.ports) fun _ _ _ _ _ _ => rfl) w c k n d st s
@[simp] theorem raiseIn_pipes (w : Bool) (c k n : Nat) (d : List Byte) (st : Nat) : (run (raiseIn w c k n d st) s).dev.pipes = s.dev.pipes :=
  untold_raiseIn (untold_dev (g := fun x => x.pipes) fun _ _ _ _ _ _ => rfl) w c k n d st s
@[simp] theorem raiseIn_gens (w : Bool) (c k n : Nat) (d : List Byte) (st : Nat) : (run (raiseIn w c k n d st) s).dev.gens = s.dev.gens :=
  untold_raiseIn (untold_dev (g := fun x => x.gens) fun _ _ _ _ _ _ => rfl) w c k n d st s
@[simp] theorem raiseIn_asms (w : Bool) (c k n : Nat) (d : List Byte) (st : Nat) : (run (raiseIn w c k n d st) s).dev.asms = s.dev.asms :=
  untold_raiseIn (untold_dev (g := fun x => x.asms) fun _ _ _ _ _ _ => rfl) w c k n d st s
@[simp] theorem raiseIn_swaps (w : Bool) (c k n : Nat) (d : List Byte) (st : Nat) : (run (raiseIn w c k n d st) s).dev.swaps = s.dev.swaps :=
  untold_raiseIn (untold_dev (g := fun x => x.swaps) fun _ _ _ _ _ _ => rfl) w c k n d st s
@[simp] theorem raiseIn_qcounts (w : Bool) (c k n : Nat) (d : List Byte) (st : Nat) : (run (raiseIn w c k n d st) s).dev.qcounts = s.dev.qcounts :=
  untold_raiseIn (untold_dev (g := fun x => x.qcounts) fun _ _ _ _ _ _ => rfl) w c k n d st s
@[simp] theorem raiseIn_jobs (w : Bool) (c k n : Nat) (d : List Byte) (st : Nat) : (run (raiseIn w c k n d st) s).dev.jobs = s.dev.jobs :=
  untold_raiseIn (untold_dev (g := fun x => x.jobs) fun _ _ _ _ _ _ => rfl) w c k n d st s
@[simp] theorem raiseIn_mem (w : Bool) (c k n : Nat) (d : List Byte) (st : Nat) : (run (raiseIn w c k n d st) s).mem = s.mem := untold_raiseIn untold_mem w c k n d st s
@[simp] theorem raiseIn_free (w : Bool) (c k n : Nat) (d : List Byte) (st : Nat) : (run (raiseIn w c k n d st) s).free = s.free := untold_raiseIn untold_free w c k n d st s
theorem raiseIn_get (w : Bool) (c k n : Nat) (d : List Byte) (st : Nat) {x : Fld} (h : ¬ Told x.addr) (h' : x.width ≤ 32 ∨ ¬ Told (x.addr + 4)) :
    (run (raiseIn w c k n d st) s).get x = s.get x := untold_raiseIn (untold_get h h') w c k n d st s

@[simp] theorem raiseLimited_doorbells (c k n b : Nat) (d : Nat → List Byte) (f : Nat → Nat) : (run (raiseLimited c k n b d f) s).dev.doorbells = s.dev.doorbells :=
  untold_raiseLimited (untold_dev (g := fun x => x.doorbells) fun _ _ _ _ _ _ => rfl) c k n b d f s
@[simp] theorem raiseLimited_journal (c k n b : Nat) (d : Nat → List Byte) (f : Nat → Nat) : (run (raiseLimited c k n b d f) s).dev.journal = s.dev.journal :=
  untold_raiseLimited (untold_dev (g := fun x => x.journal) fun _ _ _ _ _ _ => rfl) c k n b d f s
@[simp] theorem raiseLimited_takes (c k n b : Nat) (d : Nat → List Byte) (f : Nat → Nat) : (run (raiseLimited c k n b d f) s).dev.takes = s.dev.takes :=
  untold_raiseLimited (untold_dev (g := fun x => x.takes) fun _ _ _ _ _ _ => rfl) c k n b d f s
@[simp] theorem raiseLimited_tw (c k n b : Nat) (d : Nat → List Byte) (f : Nat → Nat) : (run (raiseLimited c k n b d f) s).dev.tw = s.dev.tw :=
  untold_raiseLimited (untold_dev (g := fun x => x.tw) fun _ _ _ _ _ _ => rfl) c k n b d f s
@[simp] theorem raiseLimited_twc (c k n b : Nat) (d : Nat → List Byte) (f : Nat → Nat) : (run (raiseLimited c k n b d f) s).dev.twc = s.dev.twc :=
  untold_raiseLimited (untold_dev (g := fun x => x.twc) fun _ _ _ _ _ _ => rfl) c k n b d f s
@[simp] theorem raiseLimited_boot (c k n b : Nat) (d : Nat → List Byte) (f : Nat → Nat) : (run (raiseLimited c k n b d f) s).dev.boot = s.dev.boot :=
  untold_raiseLimited (untold_dev (g := fun x => x.boot) fun _ _ _ _ _ _ => rfl) c k n b d f s
@[simp] theorem raiseLimited_fuses (c k n b : Nat) (d : Nat → List Byte) (f : Nat → Nat) : (run (raiseLimited c k n b d f) s).dev.fuses = s.dev.fuses :=
  untold_raiseLimited (untold_dev (g := fun x => x.fuses) fun _ _ _ _ _ _ => rfl) c k n b d f s
@[simp] theorem raiseLimited_sec (c k n b : Nat) (d : Nat → List Byte) (f : Nat → Nat) : (run (raiseLimited c k n b d f) s).dev.sec = s.dev.sec :=
  untold_raiseLimited (untold_dev (g := fun x => x.sec) fun _ _ _ _ _ _ => rfl) c k n b d f s
@[simp] theorem raiseLimited_elec (c k n b : Nat) (d : Nat → List Byte) (f : Nat → Nat) : (run (raiseLimited c k n b d f) s).dev.elec = s.dev.elec :=
  untold_raiseLimited (untold_dev (g := fun x => x.elec) fun _ _ _ _ _ _ => rfl) c k n b d f s
@[simp] theorem raiseLimited_group (c k n b : Nat) (d : Nat → List Byte) (f : Nat → Nat) : (run (raiseLimited c k n b d f) s).dev.group = s.dev.group :=
  untold_raiseLimited (untold_dev (g := fun x => x.group) fun _ _ _ _ _ _ => rfl) c k n b d f s
@[simp] theorem raiseLimited_ownIndex (c k n b : Nat) (d : Nat → List Byte) (f : Nat → Nat) : (run (raiseLimited c k n b d f) s).dev.ownIndex = s.dev.ownIndex :=
  untold_raiseLimited (untold_dev (g := fun x => x.ownIndex) fun _ _ _ _ _ _ => rfl) c k n b d f s
@[simp] theorem raiseLimited_ownDepth (c k n b : Nat) (d : Nat → List Byte) (f : Nat → Nat) : (run (raiseLimited c k n b d f) s).dev.ownDepth = s.dev.ownDepth :=
  untold_raiseLimited (untold_dev (g := fun x => x.ownDepth) fun _ _ _ _ _ _ => rfl) c k n b d f s
@[simp] theorem raiseLimited_shadow (c k n b : Nat) (d : Nat → List Byte) (f : Nat → Nat) : (run (raiseLimited c k n b d f) s).dev.shadow = s.dev.shadow :=
  untold_raiseLimited (untold_dev (g := fun x => x.shadow) fun _ _ _ _ _ _ => rfl) c k n b d f s
@[simp] theorem raiseLimited_ctlTag (c k n b : Nat) (d : Nat → List Byte) (f : Nat → Nat) : (run (raiseLimited c k n b d f) s).dev.ctlTag = s.dev.ctlTag :=
  untold_raiseLimited (untold_dev (g := fun x => x.ctlTag) fun _ _ _ _ _ _ => rfl) c k n b d f s
@[simp] theorem raiseLimited_ctlWaits (c k n b : Nat) (d : Nat → List Byte) (f : Nat → Nat) : (run (raiseLimited c k n b d f) s).dev.ctlWaits = s.dev.ctlWaits :=
  untold_raiseLimited (untold_dev (g := fun x => x.ctlWaits) fun _ _ _ _ _ _ => rfl) c k n b d f s
@[simp] theorem raiseLimited_remoteReads (c k n b : Nat) (d : Nat → List Byte) (f : Nat → Nat) : (run (raiseLimited c k n b d f) s).dev.remoteReads = s.dev.remoteReads :=
  untold_raiseLimited (untold_dev (g := fun x => x.remoteReads) fun _ _ _ _ _ _ => rfl) c k n b d f s
@[simp] theorem raiseLimited_answered (c k n b : Nat) (d : Nat → List Byte) (f : Nat → Nat) : (run (raiseLimited c k n b d f) s).dev.answered = s.dev.answered :=
  untold_raiseLimited (untold_dev (g := fun x => x.answered) fun _ _ _ _ _ _ => rfl) c k n b d f s
@[simp] theorem raiseLimited_lateAnswers (c k n b : Nat) (d : Nat → List Byte) (f : Nat → Nat) : (run (raiseLimited c k n b d f) s).dev.lateAnswers = s.dev.lateAnswers :=
  untold_raiseLimited (untold_dev (g := fun x => x.lateAnswers) fun _ _ _ _ _ _ => rfl) c k n b d f s
@[simp] theorem raiseLimited_ecc (c k n b : Nat) (d : Nat → List Byte) (f : Nat → Nat) : (run (raiseLimited c k n b d f) s).dev.ecc = s.dev.ecc :=
  untold_raiseLimited (untold_dev (g := fun x => x.ecc) fun _ _ _ _ _ _ => rfl) c k n b d f s
@[simp] theorem raiseLimited_streams (c k n b : Nat) (d : Nat → List Byte) (f : Nat → Nat) : (run (raiseLimited c k n b d f) s).dev.streams = s.dev.streams :=
  untold_raiseLimited (untold_dev (g := fun x => x.streams) fun _ _ _ _ _ _ => rfl) c k n b d f s
@[simp] theorem raiseLimited_rings (c k n b : Nat) (d : Nat → List Byte) (f : Nat → Nat) : (run (raiseLimited c k n b d f) s).dev.rings = s.dev.rings :=
  untold_raiseLimited (untold_dev (g := fun x => x.rings) fun _ _ _ _ _ _ => rfl) c k n b d f s
@[simp] theorem raiseLimited_slotPlan (c k n b : Nat) (d : Nat → List Byte) (f : Nat → Nat) : (run (raiseLimited c k n b d f) s).dev.slotPlan = s.dev.slotPlan :=
  untold_raiseLimited (untold_dev (g := fun x => x.slotPlan) fun _ _ _ _ _ _ => rfl) c k n b d f s
@[simp] theorem raiseLimited_pwr (c k n b : Nat) (d : Nat → List Byte) (f : Nat → Nat) : (run (raiseLimited c k n b d f) s).dev.pwr = s.dev.pwr :=
  untold_raiseLimited (untold_dev (g := fun x => x.pwr) fun _ _ _ _ _ _ => rfl) c k n b d f s
@[simp] theorem raiseLimited_sensors (c k n b : Nat) (d : Nat → List Byte) (f : Nat → Nat) : (run (raiseLimited c k n b d f) s).dev.sensors = s.dev.sensors :=
  untold_raiseLimited (untold_dev (g := fun x => x.sensors) fun _ _ _ _ _ _ => rfl) c k n b d f s
@[simp] theorem raiseLimited_time (c k n b : Nat) (d : Nat → List Byte) (f : Nat → Nat) : (run (raiseLimited c k n b d f) s).dev.time = s.dev.time :=
  untold_raiseLimited (untold_dev (g := fun x => x.time) fun _ _ _ _ _ _ => rfl) c k n b d f s
@[simp] theorem raiseLimited_ptp (c k n b : Nat) (d : Nat → List Byte) (f : Nat → Nat) : (run (raiseLimited c k n b d f) s).dev.ptp = s.dev.ptp :=
  untold_raiseLimited (untold_dev (g := fun x => x.ptp) fun _ _ _ _ _ _ => rfl) c k n b d f s
@[simp] theorem raiseLimited_encs (c k n b : Nat) (d : Nat → List Byte) (f : Nat → Nat) : (run (raiseLimited c k n b d f) s).dev.encs = s.dev.encs :=
  untold_raiseLimited (untold_dev (g := fun x => x.encs) fun _ _ _ _ _ _ => rfl) c k n b d f s
@[simp] theorem raiseLimited_ports (c k n b : Nat) (d : Nat → List Byte) (f : Nat → Nat) : (run (raiseLimited c k n b d f) s).dev.ports = s.dev.ports :=
  untold_raiseLimited (untold_dev (g := fun x => x.ports) fun _ _ _ _ _ _ => rfl) c k n b d f s
@[simp] theorem raiseLimited_pipes (c k n b : Nat) (d : Nat → List Byte) (f : Nat → Nat) : (run (raiseLimited c k n b d f) s).dev.pipes = s.dev.pipes :=
  untold_raiseLimited (untold_dev (g := fun x => x.pipes) fun _ _ _ _ _ _ => rfl) c k n b d f s
@[simp] theorem raiseLimited_gens (c k n b : Nat) (d : Nat → List Byte) (f : Nat → Nat) : (run (raiseLimited c k n b d f) s).dev.gens = s.dev.gens :=
  untold_raiseLimited (untold_dev (g := fun x => x.gens) fun _ _ _ _ _ _ => rfl) c k n b d f s
@[simp] theorem raiseLimited_asms (c k n b : Nat) (d : Nat → List Byte) (f : Nat → Nat) : (run (raiseLimited c k n b d f) s).dev.asms = s.dev.asms :=
  untold_raiseLimited (untold_dev (g := fun x => x.asms) fun _ _ _ _ _ _ => rfl) c k n b d f s
@[simp] theorem raiseLimited_swaps (c k n b : Nat) (d : Nat → List Byte) (f : Nat → Nat) : (run (raiseLimited c k n b d f) s).dev.swaps = s.dev.swaps :=
  untold_raiseLimited (untold_dev (g := fun x => x.swaps) fun _ _ _ _ _ _ => rfl) c k n b d f s
@[simp] theorem raiseLimited_qcounts (c k n b : Nat) (d : Nat → List Byte) (f : Nat → Nat) : (run (raiseLimited c k n b d f) s).dev.qcounts = s.dev.qcounts :=
  untold_raiseLimited (untold_dev (g := fun x => x.qcounts) fun _ _ _ _ _ _ => rfl) c k n b d f s
@[simp] theorem raiseLimited_jobs (c k n b : Nat) (d : Nat → List Byte) (f : Nat → Nat) : (run (raiseLimited c k n b d f) s).dev.jobs = s.dev.jobs :=
  untold_raiseLimited (untold_dev (g := fun x => x.jobs) fun _ _ _ _ _ _ => rfl) c k n b d f s
@[simp] theorem raiseLimited_mem (c k n b : Nat) (d : Nat → List Byte) (f : Nat → Nat) : (run (raiseLimited c k n b d f) s).mem = s.mem := untold_raiseLimited untold_mem c k n b d f s
@[simp] theorem raiseLimited_free (c k n b : Nat) (d : Nat → List Byte) (f : Nat → Nat) : (run (raiseLimited c k n b d f) s).free = s.free := untold_raiseLimited untold_free c k n b d f s
theorem raiseLimited_get (c k n b : Nat) (d : Nat → List Byte) (f : Nat → Nat) {x : Fld} (h : ¬ Told x.addr) (h' : x.width ≤ 32 ∨ ¬ Told (x.addr + 4)) :
    (run (raiseLimited c k n b d f) s).get x = s.get x := untold_raiseLimited (untold_get h h') c k n b d f s

end Sys2Proof.Machine
end

