-- ==== Sys2Proof/Laws/TwoWire.lean ====
section
/-! SUPPORT. The two-wire target: what a word, a status write, a STOP, a flag and a protocol error leave. -/

namespace Sys2Proof.Machine
open Reg

/-- A STOP only settles a new BASE. -/
theorem atStop_tw (s : State) : (run atStop s).dev.tw = { s.dev.tw with newBase := none } := by
  simp only [atStop, run_look']
  split
  · simp [setTw]
  · rename_i h; rw [run_skip, ← h]

theorem atStop_reg {a : Nat} (h : a ≠ 0x01600000) : Keeps (fun s => s.reg a) atStop := by
  refine keeps_look fun s => ?_
  split
  · exact keeps_cons (keepsReg_set h (.inl (by decide))) (keeps_cons (fun _ => rfl) keeps_nil)
  · exact keeps_skip

theorem atStop_get {f : Fld} (w : f.width ≤ 32) (h : f.addr ≠ 0x01600000) : Keeps (fun s => s.get f) atStop :=
  keeps_get (atStop_reg h) (fun x => absurd x (by omega))

theorem mode_ne {s t : State} (h : t.mode = s.mode) (g : s.mode ≠ mBoot) : t.mode ≠ mBoot := by rw [h]; exact g

theorem keepsMode_bump {f : Fld} (h : 0x01000100 ≠ f.addr) (h' : f.width ≤ 32 ∨ 0x01000100 ≠ f.addr + 4) : Keeps State.mode (bump f) := by
  intro s
  exact keeps_get (f := ModeReg.modeF) (keepsReg_bump h h') (fun x => absurd x (by decide)) s


theorem mailboxIn_start (n : BitVec 9) (u : State) (h1 : u.dev.tw.state = 0) (h2 : 4 ≤ n.toNat) (h3 : n.toNat ≤ 256) :
    (run (mailboxIn (0xC1000000 + n.toNat)) u).dev.tw = { u.dev.tw with state := 1, want := n.toNat, words := [] } := by
  have e : (0xC1000000 + n.toNat) % 512 = n.toNat := by have := n.isLt; omega
  simp [mailboxIn, h1, e, h2, h3, setTw]

theorem mailboxIn_data (w : BitVec 32) (u : State) (h1 : u.dev.tw.state = 1) (h2 : u.dev.tw.words.length + 1 < u.dev.tw.want) :
    (run (mailboxIn w.toNat) u).dev.tw = { u.dev.tw with words := u.dev.tw.words ++ [w] } := by
  have : ¬ u.dev.tw.want ≤ u.dev.tw.words.length + 1 := by omega
  simp [mailboxIn, h1, setTw, run_when, this]

theorem statusWrite_inner (v : Nat) (u : State) (hm : u.mode ≠ mBoot) : ({ (run (when (decide (u.mode ≠ mBoot))
        (block
          [when (bit v 20) (block [consume .twoWire, setTw fun t => { t with respReady := false }]),
            setTw fun t =>
              { t with
                dbLost := t.dbLost && !bit v 21
                alertFail := t.alertFail && !bit v 22
                protoErr := t.protoErr && !bit v 23
                inTimeout := t.inTimeout && !bit v 24 },
            when (bit v 31 && decide (u.dev.tw.state = 1)) dropRequest])) u).dev.tw with newBase := none } : TwMail) =
    (let t := u.dev.tw
     let c := if bit v 20 then { t with state := if t.state = 4 then 0 else t.state, respReady := false } else t
     let d := { c with dbLost := c.dbLost && !bit v 21, alertFail := c.alertFail && !bit v 22, protoErr := c.protoErr && !bit v 23,
                       inTimeout := c.inTimeout && !bit v 24, newBase := none }
     if bit v 31 && t.state = 1 then { d with state := 0, words := [], want := 0 } else d) := by
  have q : (u.mbState .twoWire = 3) = (u.dev.tw.state = 4) := by
    simp only [State.mbState, eq_iff_iff]; split <;> omega
  by_cases a : bit v 20 <;> by_cases b : bit v 31 <;> by_cases c : u.dev.tw.state = 4 <;> by_cases d : u.dev.tw.state = 1 <;>
    simp_all [run_when, consume, setTw, setMbState, dropRequest, q]

/-- A write of the status register after hand-over. -/
theorem statusWrite_tw (v : Nat) (s : State) (h : s.mode ≠ mBoot) : (run (statusWrite v) s).dev.tw =
    (let t := s.dev.tw
     let c := if bit v 20 then { t with state := if t.state = 4 then 0 else t.state, respReady := false } else t
     let d := { c with dbLost := c.dbLost && !bit v 21, alertFail := c.alertFail && !bit v 22, protoErr := c.protoErr && !bit v 23,
                       inTimeout := c.inTimeout && !bit v 24, newBase := none }
     if bit v 31 && t.state = 1 then { d with state := 0, words := [], want := 0 } else d) := by
  have hw : (run (bump TwT.writes) s).dev.tw = s.dev.tw := by simp
  have hm : (run (bump TwT.writes) s).mode ≠ mBoot := mode_ne (keepsMode_bump (by decide) (by decide) s) h
  rw [statusWrite, targetWrite, run_block_cons, run_block_cons, run_block_cons, run_block_nil, atStop_tw, run_look', ← hw]
  exact statusWrite_inner v _ hm

/-- A flag of the two-wire status register only counts, beside setting its bit. -/
theorem get_twFlag {f : Fld} (i : Nat) (w : f.width ≤ 32) (h : f.addr ≠ (TwT.flagCount i).addr) :
    Keeps (fun s => s.get f) (twFlag i) := fun s => by
  rw [twFlag, run_block_cons, run_block_cons, run_block_nil]
  beta_reduce
  rw [get_bump_other _ _ _ w h (.inl (by simp [TwT.flagCount]))]; rfl

theorem keeps_protoError_tell (bus : Nat) : Keeps (fun s => s.get TwT.protoErrors)
    (block [twFlag 3, raiseLimited 0xD 4 1 0xFF fun n => [BitVec.ofNat 8 bus, 0, 0, 0] ++ leBytes 4 n]) :=
  keeps_cons (get_twFlag 3 (by decide) (by decide)) (keeps_cons
    (untold_raiseLimited (untold_get (by simp [Told, TwT.protoErrors]) (.inl (by decide))) _ _ _ _ _ _) keeps_nil)

/-- A protocol error counts in PROTO_ERRORS. -/
theorem protoError_counts (flag : Bool) (s : State) :
    (run (protoError flag) s).get TwT.protoErrors = satNat (s.get TwT.protoErrors + 1) 0xFFFFFFFF := by
  rw [protoError, run_fresh, run_look', run_block_cons, run_block_cons, run_block_cons, run_block_nil,
    (keeps_when (keeps_protoError_tell _)).get, countDropped, get_bump_other _ _ _ (by decide) (by decide) (by decide),
    get_bump_same _ _ (by decide)]
  rfl

end Sys2Proof.Machine
end

