-- ==== Sys2Proof/WellFormed.lean ====
section
/-! DEFINITION. Which commands the outside can send: the limits that the carriers of Chapters 3, 4, 14, 15 and 17 put on their operands.
A meaning is total all the same: it says what a command does whether or not a carrier can bring it. -/

namespace Sys2Proof

/-- The bytes of a BAR (Table 3-2). -/
def Bar.size (fn : Fin 2) (bar : Bar) : Nat :=
  if bar = .bar0 then 0x10000 else if fn = 0 then 0x1000000 else 0x400000

/-- The bytes of an AtomicOp's operand (R106). -/
def AtomicFn.width (wide : Bool) : Nat := if wide then 8 else 4

/-- A request fits its 1 KiB buffer (Table 4-5). -/
def Req.wf (r : Req) : Bool := r.payload.length <= 1008

/-- A flag register's offset lies in its BAR. -/
def FlagAt.wf (a : FlagAt) : Bool :=
  match a with
  | .host fn bar off => off + 4 <= Bar.size fn bar
  | .twoWire => true

/-- A mailbox with a doorbell: the six of the host (R135). -/
def MbId.hosted (m : MbId) : Bool :=
  match m with
  | .pf0 _ => true
  | .pf1 _ => true
  | .twoWire => false
  | .cascade _ _ => false

/-- Max_Read_Request_Size is a power of two from 128 to 4,096 (R106). -/
def CfgWrite.wf (w : CfgWrite) : Bool :=
  match w with
  | .maxReadRequest n => [128, 256, 512, 1024, 2048, 4096].contains n
  | .busMaster _ => true
  | .msixControl _ _ => true
  | .powerState _ => true
  | .other reg _ => reg < 4096

/-- Found devices stand after their parents, and a group holds at most fifteen besides its root (R17). -/
def Found.wf (l : List Found) : Bool :=
  l.length <= 15 && l.zipIdx.all fun (f, k) => f.up.all fun j => j.val < k

/-- No lane is used twice, physically or logically (R451). -/
def LinkUp.wf (u : LinkUp) : Bool :=
  (u.lanes.map (·.1)).Nodup && (u.lanes.map (·.2.1)).Nodup && Found.wf u.found

/-- An INIT packet's fields (R453): a 16-byte nonce, three receive pools. -/
def InitInfo.wf (p : InitInfo) : Bool :=
  p.index < 16 && p.uid.length == 16 && p.nonce.length == 16 && p.pools.length == 3

/-- A packet has CLASS 1–3 and at most 512 words (R455, Table 14-2). -/
def PacketIn.wf (p : PacketIn) : Bool := p.cls != 0 && p.payload.length <= 4096

/-- A controller that exists: 0–3 local, 16–63 tunnelled (R480). -/
def twController (x : Fin 64) : Bool := x.val < 4 || 16 <= x.val

/-- The command can be sent. -/
def Instr.wf (c : Instr) : Bool :=
  match c with
  | .inboundPostedWrite fn bar off data => data.length != 0 && data.length <= 512 && off + data.length <= Bar.size fn bar
  | .inboundRead fn bar off len => len != 0 && len <= 4096 && off + len <= Bar.size fn bar
  | .atomicOp fn bar off _ wide operand compare => off + AtomicFn.width wide <= Bar.size fn bar && operand < 256 ^ AtomicFn.width wide && compare < 256 ^ AtomicFn.width wide
  | .w1cFlagClear a _ => FlagAt.wf a
  | .sramWinBaseWrite _ _ => true
  | .msixVectorUnmask _ _ => true
  | .ucieModuleTrained _ _ _ _ _ => true
  | .ucieTrainingRetry _ => true
  | .ucieModuleDown _ _ => true
  | .ucieLinkReplay _ => true
  | .functionLevelReset _ => true
  | .flrDone _ => true
  | .hostCreditReturn _ => true
  | .outboundReadCompletion tag _ data => tag < 256 && data.length <= 4096
  | .doorbellRing m => MbId.hosted m
  | .responseConsume m => MbId.hosted m
  | .mailboxTake => true
  | .orderedCommandRelease => true
  | .getIdentity _ r => Req.wf r
  | .getVersions _ r => Req.wf r
  | .echo _ r => Req.wf r
  | .abort _ r => Req.wf r
  | .clearFlagCounters _ r => Req.wf r
  | .getHeader _ r => Req.wf r
  | .listChildren _ r => Req.wf r
  | .readCounters _ r => Req.wf r
  | .clearCounters _ r => Req.wf r
  | .nodeReset _ r => Req.wf r
  | .nodeResetBistDone _ _ => true
  | .dataPortAddrWrite _ _ _ _ => true
  | .dataPortCtrlWrite _ _ _ => true
  | .dataPortNext _ _ => true
  | .dataPortRefresh _ _ => true
  | .dataPortFillDone _ _ => true
  | .dataPortWindowWrite _ _ off data => data.length != 0 && data.length <= 512 && off + data.length <= 4096
  | .statusPageRefresh => true
  | .powerOn => true
  | .nreset => true
  | .strapSample _ => true
  | .bootStepComplete _ => true
  | .bootGo => true
  | .bootStepTimeout => true
  | .firmwareReady => true
  | .watchdogExpiry => true
  | .watchdogEscalation => true
  | .setMode _ r => Req.wf r
  | .modeTransitionDone => true
  | .ucieSidebandActivity => true
  | .cascadeLaneEnergy => true
  | .orderlyStopStreamClose _ => true
  | .getMode _ r => Req.wf r
  | .getNodeState _ r => Req.wf r
  | .setNodeState _ r => Req.wf r
  | .setWakePolicy _ r => Req.wf r
  | .getDomains _ r => Req.wf r
  | .thermalRead _ r => Req.wf r
  | .thermalConfig _ r => Req.wf r
  | .release _ r => Req.wf r
  | .retire _ r => Req.wf r
  | .pipelineWakeDone _ => true
  | .pipelineIdleTimeout _ => true
  | .pipelinePowerDownDone _ => true
  | .clusterIdleTimeout _ => true
  | .sensorSample _ _ => true
  | .throttleStepTimer => true
  | .throttleUndoTimer => true
  | .throttleStepApply _ => true
  | .supplyUndervoltage _ => true
  | .refclkLoss => true
  | .portConfig _ r => Req.wf r
  | .portEnable _ r => Req.wf r
  | .steeringSet _ r => Req.wf r
  | .framerSet _ r => Req.wf r
  | .portStatus _ r => Req.wf r
  | .framerStatus _ r => Req.wf r
  | .clearPortCounters _ r => Req.wf r
  | .eqAdapt _ r => Req.wf r
  | .eqAdaptDone _ => true
  | .eyeScan _ r => Req.wf r
  | .eyeScanDone _ _ => true
  | .getEq _ r => Req.wf r
  | .portLinkLocked _ _ _ _ => true
  | .portStartupTimeout _ => true
  | .portLinkLoss _ => true
  | .comboBurstTimeout _ => true
  | .aphyPacketReceive _ _ => true
  | .csi2LongPacket _ _ _ _ payload _ _ => payload.length <= 65535
  | .csi2ShortPacket _ _ _ _ _ => true
  | .framerTakeLineHeader _ => true
  | .framerTakeLineData _ _ => true
  | .framerTakeLineEnd _ => true
  | .framerTakeFrameStart _ => true
  | .framerTakeFrameEnd _ => true
  | .lineTimeoutExpiry _ => true
  | .frameTimeoutExpiry _ => true
  | .timeSharedWaitExpiry _ => true
  | .queueStaleTimeout _ _ => true
  | .encConfig _ r => Req.wf r
  | .encRead _ r => Req.wf r
  | .encSet _ r => Req.wf r
  | .triggerSet _ r => Req.wf r
  | .triggerStatus _ r => Req.wf r
  | .linkLatency _ r => Req.wf r
  | .linkLatencyDone _ _ => true
  | .timeRead _ r => Req.wf r
  | .timeSet _ r => Req.wf r
  | .timeAdjust _ r => Req.wf r
  | .ptpConfig _ r => Req.wf r
  | .ptpStatus _ r => Req.wf r
  | .pinConfig _ r => Req.wf r
  | .pulseSet _ r => Req.wf r
  | .captureRead _ r => Req.wf r
  | .alarmSet _ r => Req.wf r
  | .encoderCount _ _ _ => true
  | .encoderIndexEdge _ _ => true
  | .thresholdFire _ => true
  | .timeSourceFire _ => true
  | .headTriggerEmit _ => true
  | .headWindowOpen _ => true
  | .headWindowClose _ => true
  | .timeAlarm => true
  | .slewEnd => true
  | .ppsOutRise => true
  | .ppsOutFall => true
  | .pulseStart _ => true
  | .pulseEnd _ => true
  | .timingPinEdge _ _ _ _ => true
  | .ppsInEdge _ _ => true
  | .ppsInTimeout => true
  | .ptpFrameReceive frame _ _ => frame.length != 0
  | .ptpAnnounceTimeout => true
  | .ptpMessageTransmit _ => true
  | .linSet _ r => Req.wf r
  | .blackSet _ r => Req.wf r
  | .defectSet _ r => Req.wf r
  | .flatSet _ r => Req.wf r
  | .gaugeLoad _ r => Req.wf r
  | .gaugeLoadDone _ => true
  | .gaugeSwap _ r => Req.wf r
  | .gaugeRead _ r => Req.wf r
  | .gaugeReadDone _ => true
  | .swatchStart _ r => Req.wf r
  | .swatchAbort _ r => Req.wf r
  | .swatchRead _ r => Req.wf r
  | .swatchReadDone _ => true
  | .gaugeCompute _ r => Req.wf r
  | .gaugeComputeDone _ => true
  | .corrStatus _ r => Req.wf r
  | .wbSet _ r => Req.wf r
  | .demosaicSet _ r => Req.wf r
  | .alignSet _ r => Req.wf r
  | .matrixSet _ r => Req.wf r
  | .statsSet _ r => Req.wf r
  | .statsRead _ r => Req.wf r
  | .statsReadDone _ => true
  | .colourStatus _ r => Req.wf r
  | .screenSet _ r => Req.wf r
  | .screenTune _ r => Req.wf r
  | .screenStreamSet _ r => Req.wf r
  | .screenStatus _ r => Req.wf r
  | .historyReset _ r => Req.wf r
  | .assemblySet _ r => Req.wf r
  | .geometrySet _ r => Req.wf r
  | .geometrySetDone _ => true
  | .matchSet _ r => Req.wf r
  | .assemblyStatus _ r => Req.wf r
  | .slotComplete _ => true
  | .rowDeadline _ => true
  | .rowClosePhase _ => true
  | .satellitePartClose _ => true
  | .segmentCodeDone _ _ => true
  | .codingSet _ r => Req.wf r
  | .effortSet _ r => Req.wf r
  | .codingStatus _ r => Req.wf r
  | .jobAbort _ r => Req.wf r
  | .jobStatus _ r => Req.wf r
  | .jobDescriptorTake _ => true
  | .jobRowDone _ => true
  | .jobEnd _ => true
  | .streamAdmit _ r => Req.wf r
  | .streamAdmitDone => true
  | .streamStart _ r => Req.wf r
  | .streamStop _ r => Req.wf r
  | .streamStopped _ => true
  | .streamClose _ r => Req.wf r
  | .streamClosed _ => true
  | .streamStatus _ r => Req.wf r
  | .ringSet _ r => Req.wf r
  | .carouselRead _ r => Req.wf r
  | .queueStatus _ r => Req.wf r
  | .carouselSlotStart _ => true
  | .carouselRotationBoundary => true
  | .hostIndexWrite _ _ _ => true
  | .egressRecordDepart _ => true
  | .devIndexUpdate _ => true
  | .ringHoldoffExpiry _ => true
  | .recordDelivered _ _ _ => true
  | .boundExpiry _ _ _ _ => true
  | .cascadeLaneLock _ _ => true
  | .cascadeLaneLockLoss _ _ => true
  | .cascadeInitTimer _ => true
  | .cascadeInitReceive _ info => InitInfo.wf info
  | .cascadeTrainTimeout _ => true
  | .cascadeLinkUp _ u => LinkUp.wf u
  | .satelliteJoinIndex _ _ _ => true
  | .rowPartReceive _ _ _ p => PacketIn.wf p
  | .sidePacketReceive _ _ _ p => PacketIn.wf p
  | .eventPacketReceive _ _ _ p => PacketIn.wf p
  | .ctrlReqReceive _ _ _ p => PacketIn.wf p
  | .ctrlRspReceive _ _ _ p => PacketIn.wf p
  | .imageReqReceive _ _ _ p => PacketIn.wf p
  | .imagePacketReceive _ _ _ p => PacketIn.wf p
  | .timeInfoReceive _ _ _ p => PacketIn.wf p
  | .cascadeTimeExchange _ _ => true
  | .cascadeTimeBlockReceive _ _ _ _ _ => true
  | .cascadeAck _ _ => true
  | .cascadeNak _ _ => true
  | .cascadeTack _ _ => true
  | .cascadeTnak _ _ => true
  | .cascadeCredit _ _ _ => true
  | .cascadeEcho _ _ => true
  | .cascadeEchoReply _ _ _ => true
  | .cascadeRestart _ _ => true
  | .cascadeRestartAck _ => true
  | .cascadeReplayTimeout _ => true
  | .cascadeRestartTimeout _ => true
  | .cascadeTrigReceive _ _ _ => true
  | .cascadeTrigRetryTimeout _ => true
  | .remoteCommandTimeout _ => true
  | .cascadeConfig _ r => Req.wf r
  | .cascadeStatus _ r => Req.wf r
  | .topology _ r => Req.wf r
  | .linkRestart _ r => Req.wf r
  | .prbsTest _ r => Req.wf r
  | .prbsTestDone _ r => r.length <= 4
  | .prbsRead _ r => Req.wf r
  | .twMailboxStartWord _ => true
  | .twMailboxDataWord _ => true
  | .twWakeWord => true
  | .twIdentityWrite => true
  | .twResponseConsume => true
  | .twMbAbort => true
  | .twOutptrWrite _ => true
  | .twShortWrite => true
  | .twProtocolError => true
  | .twRequestTimeout => true
  | .twAlertSend _ => true
  | .twAlertRetry _ => true
  | .twTargetSet _ r => Req.wf r
  | .twTargetStatus _ r => Req.wf r
  | .twConfig _ r => Req.wf r
  | .twXfer _ r => Req.wf r
  | .twTransferDone x _ => twController x
  | .twNack x _ _ _ _ => twController x
  | .twArbitrationLost x _ _ => twController x
  | .twArbRetry x => twController x
  | .twBusStuck x _ _ => twController x
  | .twTunnelReport _ _ => true
  | .twStatus _ r => Req.wf r
  | .eccWriteback _ => true
  | .patrolRead _ _ => true
  | .lockstepMismatch _ => true
  | .headerWordRepair _ => true
  | .faultStatus _ r => Req.wf r
  | .crcCompute _ r => Req.wf r
  | .crcComputeDone => true
  | .errInject _ r => Req.wf r
  | .worldStatus _ r => Req.wf r
  | .worldQuery _ r => Req.wf r
  | .nworldReset _ r => Req.wf r
  | .nworldResetDone => true
  | .attestCert _ r => Req.wf r
  | .attestCertDone => true
  | .attestReport _ r => Req.wf r
  | .keyLoad _ r => Req.wf r
  | .keyClear _ r => Req.wf r
  | .streamTagSet _ r => Req.wf r
  | .rollbackAdvance _ r => Req.wf r
  | .rollbackAdvanceDone => true
  | .debugStatus _ r => Req.wf r
  | .debugChallenge _ r => Req.wf r
  | .debugUnlock _ r => Req.wf r
  | .debugLock _ r => Req.wf r
  | .dbgAccess _ r => Req.wf r
  | .bistRun _ r => Req.wf r
  | .bistRunDone _ _ _ => true
  | .tapUnlockReq _ => true
  | .tapUnlockResp sig => sig.length == 96
  | .tapDapAccess _ _ _ => true
  | .tapExtest _ _ => true
  | .tapSamplePreload _ _ => true
  | .tapClamp => true
  | .tapHighz => true
  | .unlockVerifyDone => true
  | .challengeLapse => true
  | .lockoutEnd => true
  | .coreHaltReq => true
  | .coreResume => true
  | .coreStep => true
  | .debugPowerRelease _ => true
  | .fwSwap _ r => Req.wf r
  | .fwSwapRestart => true
  | .fwSwapRevert => true
  | .fwStatus _ r => Req.wf r
  | .spareCopy _ r => Req.wf r
  | .spareCopyDone _ => true
  | .spareSwap _ r => Req.wf r
  | .autoSpareSet _ r => Req.wf r
  | .headPark _ r => Req.wf r
  | .headResume _ r => Req.wf r
  | .liveStatus _ r => Req.wf r
  | .originLatch _ => true
  | .ucieTrainingFailure _ => true
  | .supplyRestore _ => true
  | .refclkRestore => true
  | .configurationWrite _ w => CfgWrite.wf w
  | .timePortPcsLock _ => true
  | .timePortPcsLockLoss => true
  | .cascadeBadBlock _ => true
  | .tapTestLogicReset => true

end Sys2Proof
end

