-- ==== Sys2Proof/Tests/Slice0.lean ====
section
/-! SUPPORT. Tests: ill-formed commands, worked examples of the spec, and a witness for every statement with hypotheses. -/

namespace Sys2Proof.Machine

theorem test_wf_empty_write : (Instr.inboundPostedWrite 0 .bar0 0 []).wf = false := by decide

end Sys2Proof.Machine
end

section
/-! Firmware takes and refuses a request: what the mailbox operations leave, the state in which a request is taken, and the answer to a
request that fails a check. -/

namespace Sys2Proof.Machine
open Reg

/-! The operations of a host mailbox are those of its registers and its buffer. -/

theorem hosted_or_twoWire {m : MbId} {s : State} (h : Ready m s) : m.hosted = true ∨ m = .twoWire := by
  cases m with
  | pf0 k => exact .inl rfl
  | pf1 k => exact .inl rfl
  | twoWire => exact .inr rfl
  | cascade a t => cases h.1

theorem hosted_cases {m : MbId} (h : m.hosted = true) : (∃ k, m = .pf0 k) ∨ ∃ k, m = .pf1 k := by
  cases m with
  | pf0 k => exact .inl ⟨k, rfl⟩
  | pf1 k => exact .inr ⟨k, rfl⟩
  | twoWire => cases h
  | cascade a t => cases h

section Hosted
variable {m : MbId} (h : m.hosted = true)
include h

theorem mbState_hosted (s : State) : s.mbState m = s.get (Mbx.state m.base) := by
  obtain ⟨k, rfl⟩ | ⟨k, rfl⟩ := hosted_cases h <;> rfl

theorem lastStatus_hosted (s : State) : s.lastStatus m = s.get (Mbx.lastStatus m.base) := by
  obtain ⟨k, rfl⟩ | ⟨k, rfl⟩ := hosted_cases h <;> rfl

theorem setMbState_hosted (v : Nat) : setMbState m v = set (Mbx.state m.base) v := by
  obtain ⟨k, rfl⟩ | ⟨k, rfl⟩ := hosted_cases h <;> rfl

theorem putResponse_hosted (noMsi : Bool) (st : Nat) (bs : List Byte) :
    putResponse m noMsi st bs = block [clearMem (m.base + 0x400) 0x400, setBytes (m.base + 0x400) bs, set (Mbx.lastStatus m.base) st,
      setFlag (Mbx.respReady m.base), setMbState m 3, when (!noMsi) (sendMsix m.fn (1 + (m.base / 0x1000) % 0x10 - 4))] := by
  obtain ⟨k, rfl⟩ | ⟨k, rfl⟩ := hosted_cases h <;> rfl

/-- A host mailbox lies in the pages 0x4000 to 0x7FFF of its function's BAR0. -/
theorem base_hosted : ∃ fn k, fn < 2 ∧ k < 4 ∧ m.base = 0x10000004000 + 0x10000 * fn + 0x1000 * k := by
  obtain ⟨k, rfl⟩ | ⟨k, rfl⟩ := hosted_cases h
  · exact ⟨0, k, by decide, k.isLt, by simp only [MbId.base, hostKey]; omega⟩
  · exact ⟨1, k, by decide, by omega, by simp only [MbId.base, hostKey]; omega⟩

/-- STATE and LAST_STATUS hold every value written to them. -/
theorem whole_mbx : (Mbx.state m.base).Whole ∧ (Mbx.lastStatus m.base).Whole := by
  obtain ⟨k, rfl⟩ | ⟨k, rfl⟩ := hosted_cases h
  · revert k; decide
  · revert k; decide

/-- Sending a message writes no word of a mailbox. -/
theorem not_told_mbx : ¬ Told (m.base + 0x804) := by
  obtain ⟨fn, k, hfn, hk, e⟩ := base_hosted h
  simp only [Told]; omega

end Hosted

theorem fn_lt (m : MbId) : m.fn < 2 := by cases m <;> simp [MbId.fn]

/-! Writing a request and a mailbox's STATE. -/

theorem keepsReg_putRequest (m : MbId) (cls code : Nat) (r : Req) (a : Nat) :
    Keeps (fun s => s.reg a) (putRequest m cls code r) := fun s => by
  have host (x : Nat) (bs : List Byte) : (run (setBytes x bs) s).reg a = s.reg a := by simp only [State.reg, setBytes_regs]
  cases m with
  | pf0 k => exact host _ _
  | pf1 k => exact host _ _
  | twoWire => rfl
  | cascade b t => rfl

/-- A request leaves every part of the device but the words of the two-wire mailbox alone. -/
theorem keepsDev_putRequest {β : Type} {g : Dev → β} (h : ∀ d w, g { d with tw := { d.tw with words := w } } = g d)
    (m : MbId) (cls code : Nat) (r : Req) : Keeps (fun s => g s.dev) (putRequest m cls code r) := fun s => by
  have host (x : Nat) (bs : List Byte) : g (run (setBytes x bs) s).dev = g s.dev := by rw [setBytes_dev]
  cases m with
  | pf0 k => exact host _ _
  | pf1 k => exact host _ _
  | twoWire => exact h s.dev _
  | cascade b t => rfl

theorem keepsReg_setMbState (m : MbId) (v : Nat) {a : Nat} (h : a ≠ m.base + 0x804) : Keeps (fun s => s.reg a) (setMbState m v) := by
  cases m with
  | pf0 k => exact keepsReg_set h (.inl (by simp [Mbx.state]))
  | pf1 k => exact keepsReg_set h (.inl (by simp [Mbx.state]))
  | twoWire => exact fun _ => rfl
  | cascade b t => exact fun _ => rfl

theorem keepsDev_setMbState {β : Type} {g : Dev → β} (h : ∀ d w, g { d with tw := { d.tw with state := w } } = g d)
    (m : MbId) (v : Nat) : Keeps (fun s => g s.dev) (setMbState m v) := fun s => by
  cases m with
  | pf0 k => exact congrArg g (set_dev _ _ s)
  | pf1 k => exact congrArg g (set_dev _ _ s)
  | twoWire => exact h s.dev _
  | cascade b t => rfl

theorem keepsMbState_putRequest (m : MbId) (cls code : Nat) (r : Req) : Keeps (fun s => s.mbState m) (putRequest m cls code r) := by
  have host (f : Fld) (w : f.width ≤ 32) : Keeps (fun s => s.get f) (putRequest m cls code r) :=
    keeps_get (keepsReg_putRequest m cls code r _) (fun x => absurd x (by omega))
  cases m with
  | pf0 k => exact host (Mbx.state _) (by simp [Mbx.state])
  | pf1 k => exact host (Mbx.state _) (by simp [Mbx.state])
  | twoWire => exact fun _ => rfl
  | cascade b t => exact fun _ => rfl

/-- FW_READY shares its word with the STATE of the mailbox that shows it. -/
theorem keepsFwReady_setMbState (m : MbId) (v : Nat) : Keeps State.fwReady (setMbState m v) := fun s => by
  have get : (run (setMbState m v) s).get (Mbx.fwReady (hostKey 0 0x4000)) = s.get (Mbx.fwReady (hostKey 0 0x4000)) := by
    by_cases e : m.base = hostKey 0 0x4000
    · cases m with
      | pf0 k => exact get_set_beside _ _ _ _ (by simp [Mbx.state]) (by decide) (by rw [e]; rfl) (by simp [Mbx.state, Mbx.fwReady])
      | pf1 k => exact get_set_beside _ _ _ _ (by simp [Mbx.state]) (by decide) (by rw [e]; rfl) (by simp [Mbx.state, Mbx.fwReady])
      | twoWire => rfl
      | cascade b t => rfl
    · exact keeps_get (f := Mbx.fwReady (hostKey 0 0x4000)) (keepsReg_setMbState m v (by simp only [Mbx.fwReady]; omega))
        (fun x => absurd x (by simp [Mbx.fwReady])) s
  simp only [State.fwReady, State.on, get]

theorem keepsFwReady_putRequest (m : MbId) (cls code : Nat) (r : Req) : Keeps State.fwReady (putRequest m cls code r) := fun s => by
  simp only [State.fwReady, State.on, get_narrow _ (Mbx.fwReady _) (by decide : (1 : Nat) ≤ 32), (keepsReg_putRequest m cls code r _).reg]

/-! From the request to the checks (R136, R147). -/

/-- A doorbell at an Idle mailbox while firmware is ready only queues the request. -/
theorem run_ring_idle {m : MbId} {s : State} (hi : s.mbState m = 0) (hf : s.fwReady = true) :
    run (ring m) s = run (block [setMbState m 1, dev fun d => { d with doorbells := d.doorbells ++ [m] }]) s := by
  simp [ring, hi, hf]

theorem Ready.run_ring {m : MbId} {s : State} (h : Ready m s) (cls code : Nat) (r : Req) :
    run (ring m) (run (putRequest m cls code r) s)
      = run (block [setMbState m 1, dev fun d => { d with doorbells := d.doorbells ++ [m] }]) (run (putRequest m cls code r) s) := by
  obtain ⟨-, -, ready, idle, -⟩ := h
  exact run_ring_idle ((keepsMbState_putRequest m cls code r s).trans idle) ((keepsFwReady_putRequest m cls code r s).trans ready)

/-- What neither the request, nor STATE, nor the count of takes shows is as before when a request is taken. -/
theorem CmdSpec.taken_keeps {β : Type} {g : State → β} (sp : CmdSpec) {m : MbId} (r : Req) {s : State} (h : Ready m s)
    (hp : Keeps g (putRequest m sp.cls sp.code r)) (hs : ∀ v, Keeps g (setMbState m v))
    (hd : ∀ (s : State) l n, g { s with dev := { s.dev with doorbells := l, takes := n } } = g s) : g (sp.taken m r s) = g s := by
  have bells (f : Dev → List MbId) : Keeps g (dev fun d => { d with doorbells := f d }) := fun s => hd s (f s.dev) s.dev.takes
  have takes : Keeps g (dev fun d => { d with takes := d.takes + 1 }) := fun s => hd s s.dev.doorbells (s.dev.takes + 1)
  have rung : Keeps g (block [setMbState m 1, dev fun d => { d with doorbells := d.doorbells ++ [m] }]) :=
    keeps_cons (hs 1) (keeps_cons (bells _) keeps_nil)
  have took : Keeps g (block [dropBell m, setMbState m 2, dev fun d => { d with takes := d.takes + 1 }]) :=
    keeps_cons (bells _) (keeps_cons (hs 2) (keeps_cons takes keeps_nil))
  rw [CmdSpec.taken, run_block_cons, run_block_cons, h.run_ring, took, rung, hp]

/-- A register outside the mailbox's own word is as before when a request is taken. -/
theorem CmdSpec.taken_reg (sp : CmdSpec) {m : MbId} (r : Req) {s : State} (h : Ready m s) {a : Nat} (ha : a ≠ m.base + 0x804) :
    (sp.taken m r s).reg a = s.reg a :=
  sp.taken_keeps (g := fun s => s.reg a) r h (keepsReg_putRequest m _ _ r a) (fun v => keepsReg_setMbState m v ha) fun _ _ _ => rfl

theorem ne_mbxWord (m : MbId) {a : Nat} (h : 0x804 < a) (h' : a < 0x10000000000) : a ≠ m.base + 0x804 := by
  cases m <;> simp only [MbId.base, hostKey] <;> omega

theorem CmdSpec.taken_mode (sp : CmdSpec) {m : MbId} (r : Req) {s : State} (h : Ready m s) : (sp.taken m r s).mode = s.mode := by
  simp only [State.mode, get_narrow _ ModeReg.modeF (by decide),
    sp.taken_reg r h (ne_mbxWord m (a := ModeReg.modeF.addr) (by decide) (by decide))]

theorem CmdSpec.taken_ownIndex (sp : CmdSpec) {m : MbId} (r : Req) {s : State} (h : Ready m s) :
    (sp.taken m r s).dev.ownIndex = s.dev.ownIndex :=
  sp.taken_keeps (g := fun s => s.dev.ownIndex) r h (keepsDev_putRequest (fun _ _ => rfl) m _ _ r)
    (fun v => keepsDev_setMbState (fun _ _ => rfl) m v) fun _ _ _ => rfl

/-- Taking a request does not move its mailbox to the other world. -/
theorem CmdSpec.taken_mbS (sp : CmdSpec) {m : MbId} (r : Req) {s : State} (h : Ready m s) : (sp.taken m r s).mbS m = s.mbS m := by
  cases m with
  | pf0 k => rfl
  | pf1 k => rfl
  | twoWire =>
    simp only [State.mbS, State.on, get_narrow _ Wld.twS (by decide),
      sp.taken_reg r h (ne_mbxWord .twoWire (a := Wld.twS.addr) (by decide) (by decide))]
  | cascade a t => rfl

/-- A command issued where firmware is ready is taken at once. -/
theorem CmdSpec.run_issue_ready (sp : CmdSpec) {m : MbId} (r : Req) {s : State} (h : Ready m s) :
    run (sp.issue m r) s = run (sp.take m r) (run (block [putRequest m sp.cls sp.code r, ring m]) s) := by
  have rung : run (ring m) (run (putRequest m sp.cls sp.code r) s) = _ := h.run_ring sp.cls sp.code r
  obtain ⟨carried, booted, ready, idle, bells⟩ := h
  have put : (run (putRequest m sp.cls sp.code r) s).dev.doorbells = [] :=
    (keepsDev_putRequest (g := Dev.doorbells) (fun _ _ => rfl) m _ _ r s).trans bells
  have queued : (run (ring m) (run (putRequest m sp.cls sp.code r) s)).dev.doorbells = [m] := by
    rw [rung]
    simp [(keepsDev_setMbState (g := Dev.doorbells) (fun _ _ => rfl) m 1).dev, put]
  have still : (run (ring m) (run (putRequest m sp.cls sp.code r) s)).fwReady = true := by
    rw [rung, run_block_cons]
    exact (keepsFwReady_setMbState m 1 _).trans ((keepsFwReady_putRequest m _ _ r s).trans ready)
  cases m with
  | cascade a t => cases carried
  | _ => simp [CmdSpec.issue, booted, idle, queued, still]

/-- A command issued where firmware is ready, that fails a check from 0x20 on, is answered with that check's status (R144). -/
theorem CmdSpec.run_issue_of_verdict (sp : CmdSpec) {m : MbId} {r : Req} {s : State} {c : Ctx} {st : Nat} {ts : List Tlv}
    (h : Ready m s) (hc : sp.context m r (sp.taken m r s) = .inr c) (hv : sp.verdict c (sp.taken m r s) = (st, ts)) (hst : st ≠ 0) :
    run (sp.issue m r) s = run (respond m sp.cls sp.code r 1 st c.tgt.nid ts) (sp.taken m r s) := by
  have took : run (block [dropBell m, setMbState m 2, dev fun d => { d with takes := d.takes + 1 }])
      (run (block [putRequest m sp.cls sp.code r, ring m]) s) = sp.taken m r s := by simp only [CmdSpec.taken, run_block_cons, run_block_nil]
  simp only [run_block_cons, run_block_nil] at took
  rw [sp.run_issue_ready r h, CmdSpec.take]
  simp only [run_block_cons, run_block_nil, took, run_look', hc, hv, hst, ne_eq, not_false_eq_true, if_true]

/-- A context keeps the mailbox that its request came by. -/
theorem CmdSpec.context_mb {sp : CmdSpec} {m : MbId} {r : Req} {s : State} {c : Ctx} (h : sp.context m r s = .inr c) : c.mb = m := by
  unfold CmdSpec.context at h
  iterate 6
    split at h
    · cases h
  split at h
  · split at h
    · cases h
    · cases h; rfl
  · cases h; rfl

/-- A command of the S world for a node of this device, not denied and with good parameters, is answered 0x21 in a wrong mode (R144). -/
theorem CmdSpec.verdict_wrongMode (sp : CmdSpec) {c : Ctx} {s : State} (hs : s.mbS c.mb = true) (own : c.tgt.dev = s.dev.ownIndex)
    (allowed : sp.denied c s = false) (keys : badKey sp.keys c.tlvs = none) (params : sp.params c s = none) (wrong : sp.mode c s = true) :
    sp.verdict c s = (0x21, []) := by
  simp [CmdSpec.verdict, hs, own, allowed, keys, params, wrong]

/-! The answer (R138, R491). -/

theorem mbState_setMbState {m : MbId} (h : m.hosted = true ∨ m = .twoWire) {v : Nat} (hv : v < 4) (s : State) :
    (run (setMbState m v) s).mbState m = v := by
  obtain h | rfl := h
  · rw [setMbState_hosted h, mbState_hosted h, get_set_same _ _ _ (whole_mbx h).1]
    exact Nat.mod_eq_of_lt hv
  · by_cases e : v = 0 <;> simp [setMbState, setTw, State.mbState, e]

/-- The two-wire mailbox's STATE and LAST_STATUS do not follow its alerts. -/
theorem raiseAlert_tw (cls : Nat) (s : State) :
    (run (raiseAlert cls) s).dev.tw.state = s.dev.tw.state ∧ (run (raiseAlert cls) s).dev.tw.lastStatus = s.dev.tw.lastStatus := by
  rw [raiseAlert, run_look]
  split
  · exact ⟨rfl, rfl⟩
  · exact ⟨rfl, rfl⟩

/-- Sending the completion interrupt leaves the mailbox's own word alone. -/
theorem keepsGet_sendMsix_mbx {m : MbId} (h : m.hosted = true) {f : Fld} (w : f.width ≤ 32) (a : f.addr = m.base + 0x804) (c : Bool) :
    Keeps (fun s => s.get f) (when c (sendMsix m.fn (1 + (m.base / 0x1000) % 0x10 - 4))) :=
  keeps_when (untold_sendMsix (untold_get (a ▸ not_told_mbx h) (.inl w)) (fn_lt m) (by omega))

/-- LAST_STATUS is the top field of the mailbox's own word. -/
theorem get_lastStatus_set_below {m : MbId} (h : m.hosted = true) {f : Fld} (a : f.addr = m.base + 0x804)
    (below : f.lo + f.width ≤ 16) (v : Nat) :
    Keeps (fun s => s.get (Mbx.lastStatus m.base)) (set f v) := fun s =>
  get_set_beside f (Mbx.lastStatus m.base) v s (by omega) (whole_mbx h).2 a.symm (.inr below)

theorem putResponse_done_hosted {m : MbId} (h : m.hosted = true) (noMsi : Bool) {st : Nat} (hst : st < 256) (bs : List Byte) (s : State) :
    Done m st (run (putResponse m noMsi st bs) s) := by
  simp only [putResponse_hosted h, run_block_cons, run_block_nil]
  constructor
  · rw [mbState_hosted h, (keepsGet_sendMsix_mbx h (by simp [Mbx.state]) rfl _).get, ← mbState_hosted h]
    exact mbState_setMbState (.inl h) (by decide) _
  · have flag : Keeps (fun s => s.get (Mbx.lastStatus m.base)) (setFlag (Mbx.respReady m.base)) :=
      keeps_cons (get_lastStatus_set_below h rfl (by simp [Mbx.respReady]) 1) (keeps_cons (fun s =>
        get_bump_other _ _ s (by simp [Mbx.lastStatus]) (by simp [Mbx.lastStatus, Mbx.respReady]) (.inl (by simp))) keeps_nil)
    rw [lastStatus_hosted h, (keepsGet_sendMsix_mbx h (by simp [Mbx.lastStatus]) rfl _).get, setMbState_hosted h,
      (get_lastStatus_set_below h rfl (by simp [Mbx.state]) 3).get, flag.get, get_set_same _ _ _ (whole_mbx h).2]
    exact Nat.mod_eq_of_lt hst

theorem putResponse_done_twoWire (noMsi : Bool) (st : Nat) (bs : List Byte) (s : State) :
    Done .twoWire st (run (putResponse .twoWire noMsi st bs) s) := by
  simp only [putResponse, run_block_cons, run_block_nil]
  constructor
  · simp [State.mbState, raiseAlert_tw, setMbState, setTw]
  · simp [State.lastStatus, raiseAlert_tw, setMbState, setTw, twFlag]

/-- A response leaves its mailbox Response ready, with the status in LAST_STATUS. -/
theorem respond_done {m : MbId} (h : m.hosted = true ∨ m = .twoWire) (cls code : Nat) (r : Req) (version : Nat) {st : Nat} (hst : st < 256)
    (nid : Nat) (ts : List Tlv) (s : State) : Done m st (run (respond m cls code r version st nid ts) s) := by
  obtain h | rfl := h
  · exact putResponse_done_hosted h _ hst _ s
  · exact putResponse_done_twoWire _ st _ s

/-- A command of the S world that its row does not allow in the mode of the device, and that passes every earlier check, is answered
0x21 (R144). -/
theorem CmdSpec.issue_wrongMode (sp : CmdSpec) {m : MbId} {r : Req} {s : State} {c : Ctx} (h : Ready m s)
    (hc : sp.context m r (sp.taken m r s) = .inr c) (hs : s.mbS m = true) (own : c.tgt.dev = s.dev.ownIndex)
    (allowed : sp.denied c (sp.taken m r s) = false) (keys : badKey sp.keys c.tlvs = none) (params : sp.params c (sp.taken m r s) = none)
    (wrong : sp.mode c (sp.taken m r s) = true) : Done m 0x21 (run (sp.issue m r) s) := by
  have world : (sp.taken m r s).mbS c.mb = true := by rw [CmdSpec.context_mb hc, sp.taken_mbS r h, hs]
  have here : c.tgt.dev = (sp.taken m r s).dev.ownIndex := by rw [sp.taken_ownIndex r h, own]
  rw [sp.run_issue_of_verdict h hc (sp.verdict_wrongMode world here allowed keys params wrong) (by decide)]
  exact respond_done (hosted_or_twoWire h) _ _ _ _ (by decide) _ _ _

/-! Starting and admitting a stream in the modes of R57. -/

theorem streamStart_mode_low {c : Ctx} {s : State} (h : s.mode = mStandby ∨ s.mode = mMaintenance ∨ s.mode = mSafeHold) :
    specStreamStart.mode c s = true := by
  obtain h | h | h := h <;> simp [specStreamStart, h]

theorem streamAdmit_mode_low {c : Ctx} {s : State} (h : s.mode = mStandby ∨ s.mode = mMaintenance ∨ s.mode = mSafeHold) :
    specStreamAdmit.mode c s = true := by
  obtain h | h | h := h <;> simp [specStreamAdmit, h]

/-- Settles O50: the check of the mode is the first that fails, and taking the request leaves the mode as it is (R57, R144). -/
theorem lowModesRefuseStreams : Obligations.LowModesRefuseStreams := by
  unfold Obligations.LowModesRefuseStreams
  constructor
  · intro m r s c ready low hc hs own allowed keys params
    have wrong := streamStart_mode_low (c := c) (by rwa [specStreamStart.taken_mode r ready])
    exact ⟨_, rfl, specStreamStart.issue_wrongMode ready hc hs own allowed keys params wrong⟩
  · intro m r s c ready low hc hs own allowed keys params
    have wrong := streamAdmit_mode_low (c := c) (by rwa [specStreamAdmit.taken_mode r ready])
    exact ⟨_, rfl, specStreamAdmit.issue_wrongMode ready hc hs own allowed keys params wrong⟩

/-! The hypotheses can be met: STREAM_START of stream 0 from mailbox 0 of PF1, in Standby with firmware ready. -/

def standbyReady : State := run (block [set ModeReg.modeF mStandby, setFwReady true]) State.reset

def startStream0 : Req := { flags := 0, version := 1, tag := 7, length := 8, rsv := 0, node := 1, payload := tlvBytes [tlv 1 4 0] }

def startStream0Ctx : Ctx :=
  { mb := .pf1 0, cls := 0x0B, code := 2, req := startStream0, tlvs := [tlv 1 4 0], tgt := ⟨0, .device, 1, true⟩, take := 1 }

theorem streamStart_refused_in_standby : Answers (.streamStart (.pf1 0) startStream0) standbyReady (Done (.pf1 0) 0x21) :=
  lowModesRefuseStreams.1 (.pf1 0) startStream0 standbyReady startStream0Ctx (by decide) (.inl (by decide)) (by decide) rfl (by decide)
    (by decide) (by decide) (by decide)

end Sys2Proof.Machine
end

section
/-! Match gain (R349): a column that is not fill-tagged is scaled one component at a time. -/

namespace Sys2Proof.Machine

theorem satNat_eq_min (x hi : Nat) : satNat x hi = min x hi := by
  unfold satNat
  split <;> omega

/-- One N-bit sample v times the unsigned 4.12 gain g, rounded and saturated, as R349 writes it. -/
def gainedSample (n v g : Nat) : Nat := min ((v * g + 0x800) >>> 12) (2 ^ n - 1)

theorem satNat_product_eq_gainedSample (n v g : Nat) : satNat ((v * g + 0x800) / 2 ^ 12) (2 ^ n - 1) = gainedSample n v g := by
  rw [satNat_eq_min, gainedSample, Nat.shiftRight_eq_div_pow]

theorem matchGain_of_fill (n : Nat) (mg : List Nat) {x : Col} (h : x.fill = true) : matchGain n mg x = x := if_pos h

/-- Component k meets gain k, so a one-component column uses MG0. -/
theorem matchGain_of_not_fill (n : Nat) (mg : List Nat) {x : Col} (h : x.fill = false) :
    matchGain n mg x = ⟨false, List.zipWith (gainedSample n) x.v mg⟩ := by
  simp only [matchGain, h, satNat_product_eq_gainedSample, List.zip, List.map_zipWith, Bool.false_eq_true, if_false]

/-- Settles O51: matchGain is gainedSample along the components and the gains, and there is a gain for each component (R349). -/
theorem matchGainIsRounded : Obligations.MatchGainIsRounded := by
  unfold Obligations.MatchGainIsRounded
  refine ⟨fun n mg x fill => matchGain_of_fill n mg fill, fun n mg x k fill gains hk => ?_⟩
  have hg : k < mg.length := hk.trans_le gains
  rw [matchGain_of_not_fill n mg fill]
  refine ⟨rfl, ?_, ?_⟩
  · simp [gains]
  · simp [gainedSample, hk, hg]

/-! The hypotheses can be met: a 10-bit column of three components, whose gains saturate the first (full scale times 1.5) and round the
last up (3 times 0.5), and a one-component column, which MG0 alone scales. -/

/-- MG0 to MG2, 4.12: 1.5, 1 and 0.5. -/
def rgbGains : List Nat := [0x1800, 0x1000, 0x0800]

def rgbColumn : Col := ⟨false, [1023, 512, 3]⟩

theorem matchGain_saturates_rgb : (matchGain 10 rgbGains rgbColumn).v[0]? = some 1023 :=
  (matchGainIsRounded.2 10 rgbGains rgbColumn 0 rfl (by decide) (by decide)).2.2.trans (congrArg some (by decide))

theorem matchGain_rounds_rgb : (matchGain 10 rgbGains rgbColumn).v[2]? = some 2 :=
  (matchGainIsRounded.2 10 rgbGains rgbColumn 2 rfl (by decide) (by decide)).2.2.trans (congrArg some (by decide))

theorem matchGain_mono_uses_mg0 : (matchGain 10 rgbGains ⟨false, [100]⟩).v[0]? = some 150 :=
  (matchGainIsRounded.2 10 rgbGains ⟨false, [100]⟩ 0 rfl (by decide) (by decide)).2.2.trans (congrArg some (by decide))

theorem matchGain_keeps_fill : matchGain 10 rgbGains ⟨true, [1023, 512, 3]⟩ = ⟨true, [1023, 512, 3]⟩ :=
  matchGainIsRounded.1 10 rgbGains ⟨true, [1023, 512, 3]⟩ rfl

end Sys2Proof.Machine
end

section
/-! A HOST_INDEX write (R419, R420): the four bytes reach the ring's HOST_INDEX as one word, and a value the ring's COUNT does not allow
only sets BAD_INDEX. -/

namespace Sys2Proof.Machine
open Reg

/-! The lanes of a whole word. -/

theorem laneVal_map_some (bs : List Byte) : laneVal (bs.map some) = leVal bs := by
  induction bs with
  | nil => rfl
  | cons b bs ih => simp only [List.map_cons, laneVal, leVal, ih]

theorem laneMask_map_some (bs : List Byte) : laneMask (bs.map some) = 256 ^ bs.length - 1 := by
  induction bs with
  | nil => rfl
  | cons b bs ih =>
    have : 0 < 256 ^ bs.length := by positivity
    simp only [List.map_cons, laneMask, ih, List.length_cons, pow_succ]
    omega

/-- Where every bit is admitted, a word takes the value written. -/
theorem merge_full (old : Word) {v : Nat} (h : v < 2 ^ 32) : merge old.toNat v 0xFFFFFFFF = v := by
  have mask : Nat.land (Nat.xor old.toNat v) 0xFFFFFFFF = Nat.xor old.toNat v := by
    change (old.toNat ^^^ v) &&& (2 ^ 32 - 1) = old.toNat ^^^ v
    rw [Nat.and_two_pow_sub_one_eq_mod]
    exact Nat.mod_eq_of_lt (Nat.xor_lt_two_pow old.isLt h)
  rw [merge, mask]
  change old.toNat ^^^ (old.toNat ^^^ v) = v
  rw [← Nat.xor_assoc, Nat.xor_self, Nat.zero_xor]

/-! A posted write of one aligned word through BAR0 (R591). -/

theorem touched_wordsOf_word {off : Nat} (h : off % 4 = 0) {bs : List Byte} (l : bs.length = 4) :
    touched (wordsOf off (bs.map some)) = [(off, bs.map some)] := by
  obtain ⟨b0, b1, b2, b3, rfl⟩ : ∃ b0 b1 b2 b3, bs = [b0, b1, b2, b3] := by
    match bs, l with | [b0, b1, b2, b3], _ => exact ⟨b0, b1, b2, b3, rfl⟩
  have : off / 4 * 4 = off := by omega
  simp [touched, wordsOf, h, this]

theorem run_mendWritten_bar0 (fn off : Nat) (data : List (Option Byte)) (s : State) : run (mendWritten fn .bar0 off data) s = s := by
  rw [mendWritten, run_look']
  split
  · simp
  · rfl

theorem parityHit_of_none {s : State} (h : s.dev.sec.injected = none) (a : Nat) : s.parityHit a = false := by
  simp [State.parityHit, h]

/-- An aligned word that passes its checks is written where its offset leads. -/
theorem run_postWrite_bar0_word {fn off a : Nat} {bs : List Byte} {s : State} (aligned : off % 4 = 0) (l : bs.length = 4)
    (pass : s.check fn .bar0 off true = 0) (ha : bar0Addr fn off = some a) (hi : s.dev.sec.injected = none) :
    run (postWrite fn .bar0 off (bs.map some)) s = run (wordWrite fn a (bs.map some)) s := by
  have addr : s.barAddr fn .bar0 off = some a := ha
  rw [postWrite, touched_wordsOf_word aligned l, run_block_cons, run_block_cons, run_block_nil, run_mendWritten_bar0]
  simp [carry, pass, addr, parityHit_of_none hi, bufferWrite]

/-! HOST_INDEX of a ring lies in BAR0, and a word written there is a HOST_INDEX write. -/

/-- The ring registers are neither a window to another device or the host, nor a mailbox, nor memory. -/
theorem ringWord_plain {a : Nat} (lo : 0x01320000 ≤ a) (hi : a < 0x01321000) :
    isRemote a = false ∧ isOutWindow a = false ∧ isMailbox a = false ∧ isMemory a = false := by
  simp only [isRemote, isOutWindow, isMailbox, isMemory, ← Bool.not_eq_true, Bool.or_eq_true, Bool.and_eq_true, decide_eq_true_eq]
  omega

section
variable {i : Nat} (h : i < 42)
include h

theorem bar0Addr_hostIndex (fn : Nat) : bar0Addr fn (0x9020 + 0x40 * i) = some (Ring.hostIndex i).addr := by
  have mailboxes : (if fn = 0 then 0x8000 else 0x6000) ≤ 0x8000 := by split <;> omega
  unfold bar0Addr
  iterate 6 rw [if_neg (by omega)]
  rw [if_pos (by omega)]
  simp only [Ring.hostIndex, Option.some.injEq]
  omega

theorem run_wordWrite_hostIndex (fn : Nat) (v : BitVec 32) (s : State) :
    run (wordWrite fn (Ring.hostIndex i).addr ((leBytes 4 v.toNat).map some)) s = run (hostIndex i v.toNat) s := by
  have value : laneVal ((leBytes 4 v.toNat).map some) = v.toNat := by
    rw [laneVal_map_some, leVal_leBytes]
    exact Nat.mod_eq_of_lt v.isLt
  have full : laneMask ((leBytes 4 v.toNat).map some) = 0xFFFFFFFF := by simp [laneMask_map_some]
  have slot : ((Ring.hostIndex i).addr - 0x01320000) / 0x40 = i := by simp only [Ring.hostIndex]; omega
  have inRings : 0x01320000 ≤ (Ring.hostIndex i).addr ∧ (Ring.hostIndex i).addr < 0x01320A80 ∧ (Ring.hostIndex i).addr % 0x40 = 0x20 := by
    simp only [Ring.hostIndex]; omega
  obtain ⟨remote, window, mailbox, memory⟩ := ringWord_plain inRings.1 (by omega)
  rw [wordWrite, run_look']
  simp only [value, full, remote, window, mailbox, memory, Bool.false_eq_true, if_false]
  rw [if_neg (by omega), if_neg (by omega), if_neg (by omega), if_pos inRings, slot, merge_full _ v.isLt]

end

/-- A HOST_INDEX write that passes its checks writes HOST_INDEX of its ring. -/
theorem exec_hostIndexWrite {fn : Fin 2} {ring : Fin 42} {s : State} (v : BitVec 32)
    (pass : s.check fn.val .bar0 (0x9020 + 0x40 * ring.val) true = 0) (hi : s.dev.sec.injected = none) :
    exec (.hostIndexWrite fn ring v) s = .next (run (hostIndex ring.val v.toNat) s) := by
  have written := run_postWrite_bar0_word (bs := leBytes 4 v.toNat) (by omega) (by simp) pass (bar0Addr_hostIndex ring.isLt fn.val) hi
  rw [run_wordWrite_hostIndex ring.isLt] at written
  exact congrArg Host.Outcome.next written

/-! What the ring does with the value. -/

/-- How many entries a HOST_INDEX of v claims on ring i, for a DEV_INDEX of d (R420): produced and not yet read, or, on a submission
ring, written and not yet taken. -/
def claimedEntries (i d v : Nat) : Nat :=
  if 34 ≤ i ∧ i < 38 then (v + 0x100000000 - d) % 0x100000000 else (d + 0x100000000 - v) % 0x100000000

theorem claimedEntries_submission {i : Nat} (h : ¬ (i < 34 ∨ 38 ≤ i)) (d v : Nat) :
    claimedEntries i d v = (v + 0x100000000 - d) % 0x100000000 := if_pos (by omega)

theorem claimedEntries_deviceProduced {i : Nat} (h : i < 34 ∨ 38 ≤ i) (d v : Nat) :
    claimedEntries i d v = (d + 0x100000000 - v) % 0x100000000 := if_neg (by omega)

theorem run_hostIndex_outOfRange {i v : Nat} {s : State} (h : s.get (Ring.count i) < claimedEntries i (s.get (Ring.devIndex i)) v) :
    run (hostIndex i v) s = run (ringBad i v) s := by
  rw [hostIndex, run_look']
  exact congrArg (run · s) (if_pos h)

/-! An ignored write sets BAD_INDEX and tells the host; HOST_INDEX keeps its value. -/

theorem get_setFlag_same {f : Fld} (h : f.Whole) (apart : f.addr ≠ f.cnt) (s : State) : (run (setFlag f) s).get f = 1 % 2 ^ f.width := by
  have w : f.width ≤ 32 := by have := h.1; omega
  rw [setFlag, run_block_cons, run_block_cons, run_block_nil,
    get_bump_other (⟨f.cnt, 0, 16, 0⟩ : Fld) f _ w apart (.inl (by simp)), get_set_same f 1 s h]

/-- What telling the host does not write sees of an ignored write only its flag. -/
theorem run_ringBad_untold {β : Type} {g : State → β} (u : Untold g) (i v : Nat) (s : State) :
    g (run (ringBad i v) s) = g (run (setFlag (Ring.badIndex i)) s) := by
  rw [ringBad, run_look', run_block_cons]
  exact keeps_cons (untold_counter u 1 (by decide) (by decide)) (keeps_cons (untold_raiseLimitedIn u _ _ _ _ _ _ _ _) keeps_nil) _

section
variable {i : Nat} (h : i < 42)
include h

theorem untold_hostIndex : Untold (fun s => s.get (Ring.hostIndex i)) :=
  untold_get (by simp only [Told, Ring.hostIndex]; omega) (.inl (by simp [Ring.hostIndex]))

theorem untold_badIndex : Untold (fun s => s.get (Ring.badIndex i)) :=
  untold_get (by simp only [Told, Ring.badIndex]; omega) (.inl (by simp [Ring.badIndex]))

theorem whole_badIndex : (Ring.badIndex i).Whole := by
  have every : ∀ k : Fin 42, (Ring.badIndex k.val).Whole := by decide
  exact every ⟨i, h⟩

theorem get_hostIndex_ringBad (v : Nat) (s : State) : (run (ringBad i v) s).get (Ring.hostIndex i) = s.get (Ring.hostIndex i) := by
  have flag : Keeps (fun s => s.reg (Ring.hostIndex i).addr) (setFlag (Ring.badIndex i)) :=
    keepsReg_setFlag (by simp [Ring.badIndex]) (by simp [Ring.hostIndex, Ring.badIndex]) (by simp [Ring.hostIndex, Ring.badIndex])
  calc (run (ringBad i v) s).get (Ring.hostIndex i)
      = (run (setFlag (Ring.badIndex i)) s).get (Ring.hostIndex i) := run_ringBad_untold (untold_hostIndex h) i v s
    _ = s.get (Ring.hostIndex i) := (keeps_get flag fun wide => absurd wide (by simp [Ring.hostIndex])).get s

theorem on_badIndex_ringBad (v : Nat) (s : State) : (run (ringBad i v) s).on (Ring.badIndex i) = true := by
  have one : (run (ringBad i v) s).get (Ring.badIndex i) = 1 :=
    (run_ringBad_untold (untold_badIndex h) i v s).trans (get_setFlag_same (whole_badIndex h) (by simp [Ring.badIndex]) s)
  simp [State.on, one]

end

/-- Settles O53: the value written reaches the ring whole, and where it claims more than COUNT the write is ignored (R420). -/
theorem ringIndexOutOfRangeIsIgnored : Obligations.RingIndexOutOfRangeIsIgnored := by
  unfold Obligations.RingIndexOutOfRangeIsIgnored
  intro fn ring v s pass uninjected beyond
  have outOfRange : s.get (Ring.count ring.val) < claimedEntries ring.val (s.get (Ring.devIndex ring.val)) v.toNat := by
    split at beyond
    next produced => rwa [claimedEntries_deviceProduced produced]
    next submission => rwa [claimedEntries_submission submission]
  refine ⟨_, exec_hostIndexWrite v pass uninjected, ?_⟩
  rw [run_hostIndex_outOfRange outOfRange]
  exact ⟨get_hostIndex_ringBad ring.isLt _ s, on_badIndex_ringBad ring.isLt _ s⟩

/-! The hypotheses can be met, at the first value out of range: PF1 writes HOST_INDEX of ring 0, which the device fills, and of ring 34,
where the host submits. COUNT is 64 and DEV_INDEX 2, so each value claims 65 entries, and 0xFFFFFFC1 by wrapping below 0. -/

def ringsOf64 : State :=
  run (block [set ModeReg.modeF mStandby, set (Ring.count 0) 64, set (Ring.devIndex 0) 2, set (Ring.count 34) 64, set (Ring.devIndex 34) 2])
    State.reset

theorem hostIndex_ignored_on_data_ring : Answers (.hostIndexWrite 1 0 0xFFFFFFC1) ringsOf64 fun t =>
    t.get (Ring.hostIndex 0) = ringsOf64.get (Ring.hostIndex 0) ∧ t.on (Ring.badIndex 0) = true :=
  ringIndexOutOfRangeIsIgnored 1 0 0xFFFFFFC1 ringsOf64 (by decide) (by decide) (by decide)

theorem hostIndex_ignored_on_submission_ring : Answers (.hostIndexWrite 1 34 67) ringsOf64 fun t =>
    t.get (Ring.hostIndex 34) = ringsOf64.get (Ring.hostIndex 34) ∧ t.on (Ring.badIndex 34) = true :=
  ringIndexOutOfRangeIsIgnored 1 34 67 ringsOf64 (by decide) (by decide) (by decide)

end Sys2Proof.Machine
end


section
/-! The footprint of a meaning: which registers and bytes it may write, what it may do to the device, and whether it may send, read off the
actions it is made of. -/

namespace Sys2Proof.Machine
open Reg

/-- What a meaning may touch: the registers and bytes that it may write, the changes of the device that it may make, and whether it may
send anything. -/
structure Foot where
  reg : Nat → Prop := fun _ => True
  byte : Nat → Prop := fun _ => True
  dev : (Dev → Dev) → Prop := fun _ => True
  out : Prop := True

/-- An action stays within a footprint. -/
def Foot.Allows (F : Foot) : Act → Prop
  | .setReg a _ => F.reg a
  | .setByte a _ => F.byte a
  | .emit _ => F.out
  | .dev f => F.dev f
  | .fresh => True

/-- Every action that a meaning can take, whatever it sees when it looks, stays within a footprint. -/
def Prog.Within (F : Foot) : Prog → Prop
  | .skip => True
  | .act a k => F.Allows a ∧ k.Within F
  | .look f => ∀ s, (f s).Within F

/-- There is a state to look at. -/
@[simp] theorem forall_state {p : Prop} : (∀ _ : State, p) ↔ p := ⟨fun h => h State.reset, fun h _ => h⟩

section Rules
variable {F : Foot}

@[simp] theorem within_skip : Prog.skip.Within F := trivial
@[simp] theorem within_act {a : Act} {k : Prog} : (Prog.act a k).Within F ↔ F.Allows a ∧ k.Within F := Iff.rfl
@[simp] theorem within_look' {f : State → Prog} : (Prog.look f).Within F ↔ ∀ s, (f s).Within F := Iff.rfl
@[simp] theorem within_look {f : State → Prog} : (look f).Within F ↔ ∀ s, (f s).Within F := Iff.rfl
@[simp] theorem allows_setReg {a : Nat} {v : Word} : F.Allows (.setReg a v) ↔ F.reg a := Iff.rfl
@[simp] theorem allows_setByte {a : Nat} {b : Byte} : F.Allows (.setByte a b) ↔ F.byte a := Iff.rfl
@[simp] theorem allows_emit {o : Out} : F.Allows (.emit o) ↔ F.out := Iff.rfl
@[simp] theorem allows_dev {f : Dev → Dev} : F.Allows (.dev f) ↔ F.dev f := Iff.rfl
@[simp] theorem allows_fresh : F.Allows .fresh := trivial

@[simp] theorem within_seq {p q : Prog} : (p.seq q).Within F ↔ p.Within F ∧ q.Within F := by
  induction p with
  | skip => simp [Prog.seq]
  | act a k ih => simp [Prog.seq, ih, and_assoc]
  | look f ih => simp [Prog.seq, ih, forall_and]

@[simp] theorem within_nil : (block []).Within F := trivial
@[simp] theorem within_cons {p : Prog} {ps : List Prog} : (block (p :: ps)).Within F ↔ p.Within F ∧ (block ps).Within F := within_seq

@[simp] theorem within_forEach {α : Type} {xs : List α} {f : α → Prog} : (forEach xs f).Within F ↔ ∀ x ∈ xs, (f x).Within F := by
  induction xs with
  | nil => simp [forEach]
  | cons x xs ih => simp [forEach, ih]

@[simp] theorem within_when {c : Bool} {p : Prog} : (when c p).Within F ↔ (c = true → p.Within F) := by cases c <;> simp [when]

@[simp] theorem within_ite {c : Prop} [Decidable c] {p q : Prog} :
    (if c then p else q).Within F ↔ (c → p.Within F) ∧ (¬ c → q.Within F) := by split <;> simp [*]

@[simp] theorem within_emit {o : Out} : (emit o).Within F ↔ F.out := (by exact and_iff_left trivial)
@[simp] theorem within_dev {f : Dev → Dev} : (dev f).Within F ↔ F.dev f := (by exact and_iff_left trivial)
@[simp] theorem within_setReg {a : Nat} {v : Word} : (setReg a v).Within F ↔ F.reg a := (by exact and_iff_left trivial)
@[simp] theorem within_setByte {a : Nat} {b : Byte} : (setByte a b).Within F ↔ F.byte a := (by exact and_iff_left trivial)

theorem within_fresh {k : Nat → Prog} (h : ∀ n, (k n).Within F) : (fresh k).Within F := fun _ => ⟨trivial, h _⟩

@[simp] theorem within_set {f : Fld} {v : Nat} : (set f v).Within F ↔ F.reg f.addr ∧ (32 < f.width → F.reg (f.addr + 4)) := by
  by_cases w : f.width ≤ 32
  · simp [set, w, Nat.not_lt.mpr w]
  · simp [set, w, Nat.lt_of_not_le w]

@[simp] theorem within_setS {f : Fld} {z : Int} : (setS f z).Within F ↔ F.reg f.addr ∧ (32 < f.width → F.reg (f.addr + 4)) := within_set
@[simp] theorem within_bumpBy {f : Fld} {n : Nat} : (bumpBy f n).Within F ↔ F.reg f.addr ∧ (32 < f.width → F.reg (f.addr + 4)) :=
  ⟨fun h => within_set.mp (h State.reset), fun h _ => within_set.mpr h⟩
@[simp] theorem within_bump {f : Fld} : (bump f).Within F ↔ F.reg f.addr ∧ (32 < f.width → F.reg (f.addr + 4)) := within_bumpBy
@[simp] theorem within_setFlag {f : Fld} :
    (setFlag f).Within F ↔ (F.reg f.addr ∧ (32 < f.width → F.reg (f.addr + 4))) ∧ F.reg f.cnt := by simp [setFlag]

end Rules

end Sys2Proof.Machine
end

section
/-! What a meaning leaves alone, from its footprint; and the footprint of telling the host or another device something. -/

namespace Sys2Proof.Machine
open Reg

section Leaves
variable {F : Foot} {p : Prog}

/-- A view that every action of a footprint leaves alone is left alone by every meaning within it. -/
theorem Prog.Within.keeps {β : Type} {g : State → β} (h : p.Within F) (hg : ∀ a s, F.Allows a → g (a.apply s) = g s) : Keeps g p := by
  induction p with
  | skip => exact fun _ => rfl
  | act a k ih => exact fun s => (ih h.2 _).trans (hg a s h.1)
  | look f ih => exact fun s => ih s (h s) s

theorem Prog.Within.reg (h : p.Within F) {a : Nat} (ha : ¬ F.reg a) (s : State) : (run p s).reg a = s.reg a :=
  h.keeps (g := fun s => s.reg a) (fun b s hb => by
    cases b with
    | setReg x v => exact reg_setReg_other s v (by rintro rfl; exact ha hb)
    | _ => rfl) s

theorem Prog.Within.get (h : p.Within F) {f : Fld} (ha : ¬ F.reg f.addr) (ha' : f.width ≤ 32 ∨ ¬ F.reg (f.addr + 4)) (s : State) :
    (run p s).get f = s.get f :=
  keeps_get (h.reg ha) (fun w => h.reg (ha'.resolve_left (by omega))) s

theorem Prog.Within.byte (h : p.Within F) {a : Nat} (ha : ¬ F.byte a) (s : State) : (run p s).byte a = s.byte a :=
  h.keeps (g := fun s => s.byte a) (fun b s hb => by
    cases b with
    | setByte x v => exact byte_setByte_other s v (by rintro rfl; exact ha hb)
    | _ => rfl) s

theorem Prog.Within.mem (h : p.Within F) (ha : ∀ a, ¬ F.byte a) (s : State) : (run p s).mem = s.mem :=
  h.keeps (g := fun s => s.mem) (fun b s hb => by
    cases b with
    | setByte x v => exact absurd hb (ha x)
    | _ => rfl) s

theorem Prog.Within.regs (h : p.Within F) (ha : ∀ a, ¬ F.reg a) (s : State) : (run p s).regs = s.regs :=
  h.keeps (g := fun s => s.regs) (fun b s hb => by
    cases b with
    | setReg x v => exact absurd hb (ha x)
    | _ => rfl) s

theorem Prog.Within.out (h : p.Within F) (ha : ¬ F.out) (s : State) : (run p s).out = s.out :=
  h.keeps (g := fun s => s.out) (fun b s hb => by
    cases b with
    | emit o => exact absurd hb ha
    | _ => rfl) s

theorem Prog.Within.dev {β : Type} {g : Dev → β} (h : p.Within F) (hg : ∀ f d, F.dev f → g (f d) = g d) (s : State) :
    g (run p s).dev = g s.dev :=
  h.keeps (g := fun s => g s.dev) (fun b s hb => by
    cases b with
    | dev f => exact hg f s.dev hb
    | _ => rfl) s

end Leaves

/-- A change of the device that telling something makes: of the bridge's host side, the event queues, the quads and the limits of
events. -/
def Telling (f : Dev → Dev) : Prop :=
  ∀ d, ∃ h n e q l, f d = { d with host := h, evN := n, evS := e, quads := q, limits := l }

/-- A footprint that takes in all that telling something touches. -/
structure Foot.Tells (F : Foot) : Prop where
  reg : ∀ a, Told a → F.reg a
  dev : ∀ f, Telling f → F.dev f
  out : F.out

section Tells
variable {F : Foot}

theorem Foot.Tells.set (h : F.Tells) {f : Fld} {v : Nat} (a : Told f.addr) (b : f.width ≤ 32 ∨ Told (f.addr + 4)) : (set f v).Within F :=
  within_set.mpr ⟨h.reg _ a, fun w => h.reg _ (b.resolve_left (by omega))⟩

theorem Foot.Tells.bump (h : F.Tells) {f : Fld} (a : Told f.addr) (b : f.width ≤ 32 ∨ Told (f.addr + 4)) : (bump f).Within F :=
  fun _ => h.set a b

theorem Foot.Tells.setFlag (h : F.Tells) {f : Fld} (w : f.width ≤ 32) (a : Told f.addr) (b : Told f.cnt) : (setFlag f).Within F :=
  within_setFlag.mpr ⟨⟨h.reg _ a, fun x => absurd x (by omega)⟩, h.reg _ b⟩

theorem Foot.Tells.setHost (h : F.Tells) (f : HostIf → HostIf) : (setHost f).Within F :=
  within_dev.mpr (h.dev _ fun d => ⟨f d.host, d.evN, d.evS, d.quads, d.limits, rfl⟩)

theorem Foot.Tells.setEvq (h : F.Tells) (w : Bool) (f : EvQ → EvQ) : (setEvq w f).Within F := within_dev.mpr (h.dev _ fun d => by
  cases w
  · exact ⟨d.host, f d.evN, d.evS, d.quads, d.limits, rfl⟩
  · exact ⟨d.host, d.evN, f d.evS, d.quads, d.limits, rfl⟩)

theorem Foot.Tells.setQuad (h : F.Tells) (q : Nat) (f : QuadSt → QuadSt) : (setQuad q f).Within F :=
  within_dev.mpr (h.dev _ fun d => ⟨d.host, d.evN, d.evS, _, d.limits, rfl⟩)

theorem Foot.Tells.limits (h : F.Tells) (l : List LimitRec) : (Machine.dev fun d => { d with limits := l }).Within F :=
  within_dev.mpr (h.dev _ fun d => ⟨d.host, d.evN, d.evS, d.quads, l, rfl⟩)

theorem Foot.Tells.counter (h : F.Tells) {nid i : Nat} (hn : nid < 0x140) (hi : i < 8) : (Machine.bump (Node.counter nid none i)).Within F :=
  h.bump (told_counter hn hi).1 (.inr (told_counter hn hi).2)

theorem Foot.Tells.drainFrom (h : F.Tells) (ws : List HostWrite) : (drainFrom ws).Within F := by
  induction ws with
  | nil => exact h.setHost _
  | cons w ws ih => simp [Machine.drainFrom, h.setHost, h.out, ih]

theorem Foot.Tells.enqueueWrite (h : F.Tells) (w : HostWrite) : (enqueueWrite w).Within F := by
  simp [Machine.enqueueWrite, drainHost, h.setHost, h.drainFrom]

theorem Foot.Tells.outDiscards (h : F.Tells) {fn : Nat} (f : fn < 2) : (Machine.bump (Bridge.outDiscards fn)).Within F :=
  h.bump (by simp only [Told, Bridge.outDiscards]; omega) (.inl (by simp [Bridge.outDiscards]))

theorem Foot.Tells.bmeDiscard (h : F.Tells) {fn : Nat} (f : fn < 2) : (Machine.setFlag (Bridge.bmeDiscard fn)).Within F :=
  h.setFlag (by simp [Bridge.bmeDiscard]) (by simp only [Told, Bridge.bmeDiscard]; omega) (by simp only [Told, Bridge.bmeDiscard]; omega)

theorem Foot.Tells.sendMsix (h : F.Tells) {fn v : Nat} (f : fn < 2) (hv : v < 128) : (sendMsix fn v).Within F := by
  have pend : ∀ x, (Machine.set ⟨hostKey fn (0x3800 + 4 * (v / 32)), v % 32, 1, 0⟩ x).Within F := fun x =>
    h.set (by simp only [Told, hostKey]; omega) (.inl (by simp))
  have drop : (countDropped 1).Within F := h.counter (by decide) (by decide)
  simp only [Machine.sendMsix, within_look', within_ite, within_skip, within_cons, within_nil, pend, drop, h.outDiscards f, h.bmeDiscard f,
    h.enqueueWrite, and_self, implies_true]

theorem Foot.Tells.sendHeld (h : F.Tells) {fn : Nat} (f : fn < 2) : (sendHeld fn).Within F := by
  simp only [Machine.sendHeld, within_forEach, within_look', within_ite, within_skip, List.mem_range]
  exact fun v hv _ => ⟨fun _ => h.sendMsix f hv, fun _ => trivial⟩

theorem Foot.Tells.bridgeFlag (h : F.Tells) {fn : Nat} (f : fn < 2) {b : Nat → Fld} (w : (b fn).width ≤ 32) (ha : Told (b fn).addr)
    (hc : Told (b fn).cnt) : (bridgeFlag fn b).Within F := by
  simp only [Machine.bridgeFlag, within_cons, within_nil, h.setFlag w ha hc, h.sendMsix f (show 0 < 128 by decide), and_self]

theorem Foot.Tells.hostWrite (h : F.Tells) (w : HostWrite) (f : w.fn < 2) : (hostWrite w).Within F := by
  have drop : (countDropped 1).Within F := h.counter (by decide) (by decide)
  simp only [Machine.hostWrite, Machine.bridgeFlag, within_look', within_ite, within_cons, within_nil, h.enqueueWrite, h.outDiscards f,
    h.bmeDiscard f, h.sendMsix f (show 0 < 128 by decide), drop, h.setHost, and_self, implies_true]

theorem Foot.Tells.writeEvent (h : F.Tells) (w : Bool) (r : List Byte) (l : Bool) : (writeEvent w r l).Within F := fun s => by
  have index : (advanceDev (evSlot w) 1).Within F := fun _ => h.set (told_devIndex w) (.inl (by simp [Ring.devIndex]))
  refine within_cons.mpr ⟨h.hostWrite _ (ringFn_lt s _), ?_⟩
  simp only [within_cons, within_nil, index, h.setEvq, and_self]

theorem Foot.Tells.drainEventsFrom (h : F.Tells) (w : Bool) (rs : List (List Byte)) : (drainEventsFrom w rs).Within F := by
  induction rs with
  | nil => exact h.setEvq _ _
  | cons r rs ih =>
    simp only [Machine.drainEventsFrom, within_look', within_ite, within_cons, within_nil, h.writeEvent, ih, h.setEvq, and_self, implies_true]

theorem Foot.Tells.drainEvents (h : F.Tells) (w : Bool) : (drainEvents w).Within F := by
  have lost : (Machine.bump (Node.counter 1 none 6)).Within F := h.counter (by decide) (by decide)
  simp only [Machine.drainEvents, within_look, within_ite, within_cons, within_nil, within_skip, h.drainEventsFrom, h.writeEvent, lost,
    h.setEvq, and_self, implies_true]

theorem Foot.Tells.postEvent (h : F.Tells) (w : Bool) (r : List Byte) : (postEvent w r).Within F := by
  have drop : (countDropped 1).Within F := h.counter (by decide) (by decide)
  have lost : (Machine.bump (Node.counter 1 none 6)).Within F := h.counter (by decide) (by decide)
  simp only [Machine.postEvent, dropEvent, within_look', within_ite, within_cons, within_nil, within_skip, h.drainEvents, drop, lost, h.setEvq,
    and_self, implies_true]

theorem Foot.Tells.pumpFrom (h : F.Tells) {q : Nat} (hq : q < 4) (n : Nat) : (pumpFrom q n).Within F := by
  induction n with
  | zero => trivial
  | succ n ih =>
    intro s
    refine within_ite.mpr ⟨fun _ => trivial, fun _ => ?_⟩
    split
    · trivial
    · have count : (Machine.bump (Quad.txPackets q)).Within F :=
        h.bump (by simp only [Told, Quad.txPackets]; omega) (.inl (by simp [Quad.txPackets]))
      simp only [within_cons, within_nil, within_emit, h.setQuad, count, h.out, ih, and_self]

theorem Foot.Tells.sendPacket (h : F.Tells) {q : Nat} (hq : q < 4) (p : Packet) : (sendPacket q p).Within F := by
  simp only [Machine.sendPacket, pump, within_cons, within_nil, within_look, h.setQuad, h.pumpFrom hq, and_self, implies_true]

theorem Foot.Tells.raiseIn (h : F.Tells) (w : Bool) (c k n : Nat) (d : List Byte) (st : Nat) : (raiseIn w c k n d st).Within F := by
  intro s
  refine within_cons.mpr ⟨within_when.mpr fun e => h.counter (localNid_lt e) (by decide), within_cons.mpr ⟨?_, within_nil⟩⟩
  cases e : (if s.on BootReg.role then s.upstream else none) with
  | none => exact h.postEvent _ _
  | some q =>
    refine h.sendPacket ?_ _
    split at e
    · exact upstream_lt e
    · cases e

theorem Foot.Tells.raise (h : F.Tells) (c k n : Nat) (d : List Byte) : (raise c k n d).Within F := fun _ => h.raiseIn _ _ _ _ _ _
theorem Foot.Tells.raiseStage (h : F.Tells) (c k n st : Nat) (d : List Byte) : (raiseStage c k n st d).Within F :=
  fun _ => h.raiseIn _ _ _ _ _ _

theorem Foot.Tells.raiseLimitedIn (h : F.Tells) (w : Bool) (c k n b : Nat) (d : Nat → List Byte) (st : Nat) (f : Nat → Nat) :
    (raiseLimitedIn w c k n b d st f).Within F := by
  intro s
  simp only
  split
  · simp only [within_ite, within_cons, within_nil, h.limits, h.raiseIn, and_self, implies_true]
  · simp only [within_cons, within_nil, h.limits, h.raiseIn, and_self]

theorem Foot.Tells.raiseLimited (h : F.Tells) (c k n b : Nat) (d : Nat → List Byte) (f : Nat → Nat) : (raiseLimited c k n b d f).Within F :=
  fun _ => h.raiseLimitedIn _ _ _ _ _ _ _ _
theorem Foot.Tells.raiseLimitedStage (h : F.Tells) (c k n st : Nat) (d : Nat → List Byte) : (raiseLimitedStage c k n st d).Within F :=
  fun _ => h.raiseLimitedIn _ _ _ _ _ _ _ _

theorem Foot.Tells.raiseDiscard (h : F.Tells) (fn what : Nat) : (raiseDiscard fn what).Within F := by
  simp only [Machine.raiseDiscard, within_look', within_ite, within_skip, within_cons, within_nil, h.setHost, h.raiseIn, and_self, implies_true]

theorem Foot.Tells.hostWriteFor (h : F.Tells) (what : Nat) (w : HostWrite) (f : w.fn < 2) : (hostWriteFor what w).Within F := by
  simp only [Machine.hostWriteFor, within_cons, within_nil, h.hostWrite w f, h.raiseDiscard, and_self]

end Tells

end Sys2Proof.Machine
end


section
/-! What holds of every step: it takes the front command, never stops, and keeps the invariant; and what reset leaves. -/

namespace Sys2Proof.Machine

/-- Settles O1. -/
theorem stepTakesTheFrontCommand : Obligations.StepTakesTheFrontCommand := by
  unfold Obligations.StepTakesTheFrontCommand
  intro c q s pending
  simp only [step, pending]

/-- Every row of the table is a meaning that runs to its end. -/
theorem exec_eq_run (c : Instr) (s : State) : ∃ p, exec c s = .next (run p s) := by cases c <;> exact ⟨_, rfl⟩

theorem run_pending (p : Prog) (s : State) : (run p s).pending = s.pending :=
  run_keeps (fun s t => t.pending = s.pending) (fun _ => rfl) (fun _ _ _ h h' => h'.trans h) (fun a _ => by cases a <;> rfl) p s

/-- Settles O5: a row is a meaning, and no action of a meaning touches the queue. -/
theorem everyRowAnswersANextState : Obligations.EveryRowAnswersANextState := by
  unfold Obligations.EveryRowAnswersANextState
  intro c s
  obtain ⟨p, h⟩ := exec_eq_run c s
  exact ⟨_, h, run_pending p s⟩

theorem inv_setReg {s : State} (h : Inv s) (a : Nat) (v : Word) : Inv ((Act.setReg a v).apply s) := by
  obtain ⟨mem, canonical, fitted⟩ := h
  refine ⟨mem, Tbl.wf_set Reg.rst s.regs a _ canonical, fun x => ?_⟩
  by_cases e : x = a
  · rw [e, reg_setReg_same, Reg.fit_fit]
  · rw [reg_setReg_other s v e, fitted]

/-- Each primitive action keeps both tables canonical and every register word fitted. -/
theorem inv_apply (a : Act) (s : State) (h : Inv s) : Inv (a.apply s) := by
  cases a with
  | setReg x v => exact inv_setReg h x v
  | setByte x b => exact ⟨memory_wf_apply _ s h.1, h.2⟩
  | emit o => exact h
  | dev f => exact h
  | fresh => exact h

theorem run_inv (p : Prog) {s : State} (h : Inv s) : Inv (run p s) := run_preserves Inv inv_apply p s h

/-- Settles O4: a step runs one meaning, of a cycle or of the front command, and every action of it keeps the invariant. -/
theorem everyStepKeepsTheInvariant : Obligations.EveryStepKeepsTheInvariant := by
  unfold Obligations.EveryStepKeepsTheInvariant
  intro s t inv next
  cases pending : s.pending with
  | nil =>
    simp only [step, pending, Host.Outcome.next.injEq] at next
    exact next ▸ run_inv tick inv
  | cons c q =>
    simp only [step, pending] at next
    obtain ⟨p, h⟩ := exec_eq_run c { s with pending := q }
    rw [h, Host.Outcome.next.injEq] at next
    exact next ▸ run_inv p inv

/-- A word at its reset value is fitted: the bits that do not exist are those of the reset value. -/
theorem Reg.fit_rst (a : Nat) : Reg.fit a (Reg.rst a) = Reg.rst a := by
  unfold Reg.fit
  ext i hi
  simp only [BitVec.getElem_or, BitVec.getElem_and, BitVec.getElem_not]
  cases (Reg.mask a)[i] <;> simp

/-- Settles O3: at reset nothing is listed, so every word has its reset value. -/
theorem resetMeetsTheInvariant : Obligations.ResetMeetsTheInvariant := by
  unfold Obligations.ResetMeetsTheInvariant
  exact ⟨rfl, rfl, Reg.fit_rst⟩

/-- Settles O6. -/
theorem resetLeavesBoot : Obligations.ResetLeavesBoot := by
  unfold Obligations.ResetLeavesBoot
  refine ⟨?_, ?_, ?_, ?_, rfl, rfl, ?_, ?_, ?_, ?_, ?_⟩ <;> decide

end Sys2Proof.Machine
end


section
/-! Rows that leave memory alone, and every register outside their own block and what telling writes: each is within a footprint. -/

namespace Sys2Proof.Machine
open Reg

/-- The footprint of a row with registers of its own: those, and what telling something writes. -/
def ownFoot (mine : Nat → Prop) : Foot where
  reg a := Told a ∨ mine a
  byte _ := False

theorem ownFoot_tells (mine : Nat → Prop) : (ownFoot mine).Tells := ⟨fun _ => .inl, fun _ _ => trivial, trivial⟩

@[simp] theorem ownFoot_reg (mine : Nat → Prop) (a : Nat) : (ownFoot mine).reg a ↔ Told a ∨ mine a := Iff.rfl
@[simp] theorem ownFoot_dev (mine : Nat → Prop) (f : Dev → Dev) : (ownFoot mine).dev f := trivial
@[simp] theorem ownFoot_out (mine : Nat → Prop) : (ownFoot mine).out := trivial

theorem Prog.Within.leavesRest {mine : Nat → Prop} {p : Prog} (h : p.Within (ownFoot mine)) (s : State) : LeavesRest mine s (run p s) :=
  ⟨h.mem (fun _ => id) s, fun _ told own => h.reg (fun x => x.elim told own) s⟩

@[simp] theorem within_setTw {F : Foot} {f : TwMail → TwMail} : (setTw f).Within F ↔ F.dev fun d => { d with tw := f d.tw } := within_dev
@[simp] theorem within_setTime {F : Foot} {f : TimeSt → TimeSt} : (setTime f).Within F ↔ F.dev fun d => { d with time := f d.time } := within_dev
@[simp] theorem within_setPtp {F : Foot} {f : PtpSt → PtpSt} : (setPtp f).Within F ↔ F.dev fun d => { d with ptp := f d.ptp } := within_dev
@[simp] theorem within_setSec {F : Foot} {f : SecSt → SecSt} : (setSec f).Within F ↔ F.dev fun d => { d with sec := f d.sec } := within_dev

/-! The time port and PPS (R254 to R265). -/

theorem time_tells : (ownFoot TimeWord).Tells := ownFoot_tells TimeWord

theorem time_setPortState (v : Nat) : (setPortState v).Within (ownFoot TimeWord) := by
  simp [setPortState, TPort.portState, TimeWord, time_tells.raise]

theorem time_setHoldover (on : Bool) : (setHoldover on).Within (ownFoot TimeWord) := by
  simp [setHoldover, TimeReg.holdover, TimeReg.holdoverEntered, TimeWord, time_tells.raise]

theorem time_sendPtp (bs : List Byte) : (sendPtp bs).Within (ownFoot TimeWord) := by simp [sendPtp, TPort.txPtp, TimeWord]

theorem time_endSlew : endSlew.Within (ownFoot TimeWord) := by
  intro s
  beta_reduce
  split
  · simp [putAddend, TimeReg.addendFrac, TimeReg.addendInt, TimeWord]
  · trivial

/-- Settles O57. -/
theorem timePortRowsLeaveTheRest : Obligations.TimePortRowsLeaveTheRest := by
  unfold Obligations.TimePortRowsLeaveTheRest
  refine ⟨?lock, ?loss, ?rise, ?fall, ?transmit, ?slew, ?timeout⟩
  case lock =>
    rintro x s _ ⟨⟩
    exact Prog.Within.leavesRest (by simp [TPort.pcsLock, TPort.lineRate, TimeWord, time_setPortState]) s
  case loss =>
    rintro s _ ⟨⟩
    exact Prog.Within.leavesRest (by simp [TPort.pcsLock, TPort.lineRate, TimeWord]) s
  case rise =>
    rintro s _ ⟨⟩
    exact Prog.Within.leavesRest (by simp) s
  case fall =>
    rintro s _ ⟨⟩
    exact Prog.Within.leavesRest (by simp) s
  case transmit =>
    rintro x s _ ⟨⟩
    exact Prog.Within.leavesRest (by simp [time_sendPtp]) s
  case slew =>
    rintro s _ ⟨⟩
    exact time_endSlew.leavesRest s
  case timeout =>
    rintro s _ ⟨⟩
    exact Prog.Within.leavesRest (by
      simp [TimeReg.ppsInLost, TimeWord, countCorrected, Node.counter, nodeBase, Told, time_setHoldover]) s

/-! The cascade's acknowledgements (R455 to R464). -/

theorem quad_tells : (ownFoot QuadWord).Tells := ownFoot_tells QuadWord

section
variable {q : Nat} (hq : q < 4)
include hq

theorem quad_enterRestart (seq : Nat) : (enterRestart q seq).Within (ownFoot QuadWord) := by
  simp [enterRestart, noteRestart, Quad.lstate, Quad.restarts, Quad.restarted, QuadWord, quad_tells.setQuad, quad_tells.raise]
  omega

theorem quad_resendFrom (seq : Nat) : (resendFrom q seq).Within (ownFoot QuadWord) := by
  intro s
  dsimp only
  split
  · exact quad_enterRestart hq _
  · simp [Quad.replays, Quad.replayed, QuadWord, quad_tells.setQuad]
    omega

theorem quad_putRtt (rtt : Nat) : (putRtt q rtt).Within (ownFoot QuadWord) := by
  simp [putRtt, Quad.rtt, Quad.ow, Quad.trigHop, QuadWord]
  omega

end

/-- Settles O58. -/
theorem cascadeAcknowledgementsLeaveTheRest : Obligations.CascadeAcknowledgementsLeaveTheRest := by
  unfold Obligations.CascadeAcknowledgementsLeaveTheRest
  refine ⟨?ack, ?nak, ?replay, ?credit, ?echo, ?reply, ?tack, ?bad⟩
  case ack =>
    rintro q n s _ ⟨⟩
    exact Prog.Within.leavesRest (by simp [quad_tells.setQuad]) s
  case nak =>
    rintro q n s _ ⟨⟩
    exact Prog.Within.leavesRest (by simp [quad_resendFrom q.isLt]) s
  case replay =>
    rintro q s _ ⟨⟩
    refine Prog.Within.leavesRest (within_look.mpr fun s => within_when.mpr fun _ => ?_) s
    split
    · exact quad_resendFrom q.isLt _
    · trivial
  case credit =>
    rintro q c v s _ ⟨⟩
    exact Prog.Within.leavesRest (by simp [quad_tells.setQuad, pump, quad_tells.pumpFrom q.isLt]) s
  case echo =>
    rintro q n s _ ⟨⟩
    exact Prog.Within.leavesRest (by simp) s
  case reply =>
    rintro q n rtt s _ ⟨⟩
    exact Prog.Within.leavesRest (by simp [quad_tells.setQuad, quad_putRtt q.isLt]) s
  case tack =>
    rintro q n s _ ⟨⟩
    exact Prog.Within.leavesRest (by simp [quad_tells.setQuad]) s
  case bad =>
    rintro q s _ ⟨⟩
    exact Prog.Within.leavesRest (by simp [Quad.badBlock, QuadWord]; omega) s

/-! The debug port (R539 to R545). -/

theorem debug_tells : (ownFoot DebugWord).Tells := ownFoot_tells DebugWord

theorem debug_unlockRefused : unlockRefused.Within (ownFoot DebugWord) := within_fresh fun _ _ => debug_tells.raise _ _ _ _

/-- Settles O59. -/
theorem scanRowsLeaveTheRest : Obligations.ScanRowsLeaveTheRest := by
  unfold Obligations.ScanRowsLeaveTheRest
  refine ⟨?extest, ?preload, ?clamp, ?highz, ?reset, ?resp, ?lapse, ?lockout⟩
  case extest =>
    rintro a b s _ ⟨⟩
    exact Prog.Within.leavesRest (by simp [scanCells, tapBypass]) s
  case preload =>
    rintro a b s _ ⟨⟩
    exact Prog.Within.leavesRest (by simp [scanCells]) s
  case clamp =>
    rintro s _ ⟨⟩
    exact Prog.Within.leavesRest (by simp [tapBypass]) s
  case highz =>
    rintro s _ ⟨⟩
    exact Prog.Within.leavesRest (by simp [tapBypass]) s
  case reset =>
    rintro s _ ⟨⟩
    exact Prog.Within.leavesRest (by simp) s
  case resp =>
    rintro sig s _ ⟨⟩
    exact Prog.Within.leavesRest (by simp [debug_unlockRefused]) s
  case lapse =>
    rintro s _ ⟨⟩
    exact Prog.Within.leavesRest (by simp [Dbg.challengeLive, DebugWord]) s
  case lockout =>
    rintro s _ ⟨⟩
    exact Prog.Within.leavesRest (by simp [Dbg.lockoutMs, DebugWord]) s

/-! Delivery (R411 to R424). -/

theorem stream_tells : (ownFoot StreamWord).Tells := ownFoot_tells StreamWord

@[simp] theorem within_setStream {i : Nat} {f : StreamSt → StreamSt} : (setStream i f).Within (ownFoot StreamWord) := ⟨trivial, trivial⟩
@[simp] theorem within_setRing {i : Nat} {f : RingSt → RingSt} : (setRing i f).Within (ownFoot StreamWord) := ⟨trivial, trivial⟩

theorem stream_advanceDev {i : Nat} (h : i < 42) (n : Nat) : (advanceDev i n).Within (ownFoot StreamWord) := by
  simp [advanceDev, Ring.devIndex, StreamWord]
  omega

/-- A ring's writes go out for the function of its world. -/
theorem stream_ringWrite (s : State) (what k a : Nat) (d : List Byte) (ro : Bool) (c : Nat) :
    (hostWriteFor what ⟨s.ringFn k, a, d, ro, c⟩).Within (ownFoot StreamWord) :=
  stream_tells.hostWriteFor what _ (ringFn_lt s k)

theorem stream_writeRow {i : Nat} (h : i < 16) (r : EgRec) : (writeRow i r).Within (ownFoot StreamWord) := by
  simp only [writeRow, within_look, within_cons, within_nil, within_when, within_setStream, stream_advanceDev (show i < 42 by omega),
    stream_ringWrite, and_self, implies_true]

theorem stream_writeSide {i : Nat} (h : i < 16) (r : EgRec) : (writeSide i r).Within (ownFoot StreamWord) := by
  have count : (bump (Del.sideRecords i)).Within (ownFoot StreamWord) := by
    simp [Del.sideRecords, StreamWord]
    omega
  simp only [writeSide, within_look, within_cons, within_nil, within_when, within_setStream, stream_advanceDev (show 16 + i < 42 by omega),
    stream_ringWrite, count, and_self, implies_true]

theorem stream_departRecord {i : Nat} (h : i < 16) : (departRecord i).Within (ownFoot StreamWord) := by
  have stalled (side : Bool) : (setFlag (Ring.stalled (if side then 16 + i else i))).Within (ownFoot StreamWord) := by
    cases side <;> simp [Ring.stalled, StreamWord] <;> omega
  refine within_look.mpr fun s => ?_
  split
  · trivial
  · simp only [within_ite, within_cons, within_nil, within_when, within_setStream, stream_writeRow h, stream_writeSide h, stalled, and_self,
      implies_true]

theorem stream_moveStream {i : Nat} (h : i < 16) {k : Nat → Prog} (hk : ∀ b, (k b).Within (ownFoot StreamWord)) (f budget : Nat) :
    (moveStream i f budget k).Within (ownFoot StreamWord) := by
  induction f generalizing budget with
  | zero => exact hk _
  | succ f ih =>
    refine within_look.mpr fun s => ?_
    split
    · exact hk _
    · simp only [within_ite, within_cons, within_nil, within_setStream, stream_departRecord h, hk, ih, and_self, implies_true]

theorem stream_moveStreams {is : List Nat} (h : ∀ i ∈ is, i < 16) (budget : Nat) : (moveStreams is budget).Within (ownFoot StreamWord) := by
  induction is generalizing budget with
  | nil => trivial
  | cons i is ih =>
    exact within_look.mpr fun s => stream_moveStream (h i (by simp)) (fun b => ih (fun j hj => h j (by simp [hj])) b) _ _

theorem stream_slotStart (t : Nat) : (slotStart t).Within (ownFoot StreamWord) := by
  refine within_look.mpr fun s => within_ite.mpr ⟨fun _ => trivial, fun _ => stream_moveStreams (fun i hi => ?_) _⟩
  split at hi
  · obtain rfl | hi := List.mem_cons.mp hi
    · assumption
    · exact List.mem_range.mp (List.mem_filter.mp hi).1
  · exact List.mem_range.mp hi

theorem vector_lt (s : State) (i : Nat) : s.get (Ring.vector i) < 128 := by
  rw [get_narrow _ _ (by simp [Ring.vector])]
  exact bits_lt _ _ 7

theorem stream_ringMessage (i : Nat) : (ringMessage i).Within (ownFoot StreamWord) := by
  simp only [ringMessage, within_look, within_cons, within_nil, within_setRing, stream_tells.sendMsix (ringFn_lt _ _) (vector_lt _ _), and_self,
    implies_true]

theorem stream_updateIndex (i : Nat) : (updateIndex i).Within (ownFoot StreamWord) := by
  simp only [updateIndex, within_look, within_ite, within_skip, within_cons, within_nil, within_when, within_setRing, stream_ringWrite,
    stream_ringMessage, stream_tells.sendMsix (show 0 < 2 by decide) (show 5 < 128 by decide),
    stream_tells.sendMsix (show 1 < 2 by decide) (show 5 < 128 by decide), and_self, implies_true]

theorem stream_holdoffEnd (i : Nat) : (holdoffEnd i).Within (ownFoot StreamWord) := by
  simp only [holdoffEnd, within_look, within_when, stream_ringMessage, implies_true]

theorem stream_boundExpired {i : Nat} (h : i < 16) (seq cause comp : Nat) : (boundExpired i seq cause comp).Within (ownFoot StreamWord) := by
  have late : (bump (Del.lateSuspended i)).Within (ownFoot StreamWord) := by simp [Del.lateSuspended, StreamWord]; omega
  have bad : (bump (Del.violations i)).Within (ownFoot StreamWord) := by simp [Del.violations, StreamWord]; omega
  have flag : (setFlag (Del.violation i)).Within (ownFoot StreamWord) := by simp [Del.violation, StreamWord]; omega
  have top : (countCorrected 1).Within (ownFoot StreamWord) := stream_tells.counter (by decide) (by decide)
  have event (c k : Nat) (d : Nat → List Byte) : (raiseStreamLimited c i k d).Within (ownFoot StreamWord) :=
    fun _ => stream_tells.raiseLimitedIn _ _ _ _ _ _ _ _
  have node (n : Nat) : localNid n = true → (countViolation n).Within (ownFoot StreamWord) :=
    fun l => stream_tells.counter (localNid_lt l) (by decide)
  simp only [boundExpired, within_look, within_ite, within_skip, within_cons, within_nil, within_when, within_setStream, late, bad, flag, top,
    event, and_true, true_and, implies_true]
  exact fun _ _ _ => node _

theorem stream_recordDelivered {i : Nat} (h : i < 16) (cause comp : Nat) : (recordDelivered i cause comp).Within (ownFoot StreamWord) := by
  have count : (bump (Del.delivered i)).Within (ownFoot StreamWord) := by simp [Del.delivered, StreamWord]; omega
  have worst (v : Nat) : (set (Del.worstNs i) v).Within (ownFoot StreamWord) := by simp [Del.worstNs, StreamWord]; omega
  have top : (countTop 1 1).Within (ownFoot StreamWord) := by simp [countTop, Node.counter, nodeBase, Told]
  refine within_look.mpr fun s => ?_
  split
  · trivial
  · simp only [within_cons, within_nil, within_when, within_setStream, stream_boundExpired h, count, worst, top, and_self, implies_true]

/-- Settles O60. -/
theorem deliveryRowsLeaveTheRest : Obligations.DeliveryRowsLeaveTheRest := by
  unfold Obligations.DeliveryRowsLeaveTheRest
  refine ⟨?depart, ?slot, ?index, ?holdoff, ?delivered, ?bound⟩
  case depart =>
    rintro i s _ ⟨⟩
    exact (stream_departRecord i.isLt).leavesRest s
  case slot =>
    rintro t s _ ⟨⟩
    exact (stream_slotStart t.val).leavesRest s
  case index =>
    rintro i s _ ⟨⟩
    exact (stream_updateIndex i.val).leavesRest s
  case holdoff =>
    rintro i s _ ⟨⟩
    exact (stream_holdoffEnd i.val).leavesRest s
  case delivered =>
    rintro i cause k s _ ⟨⟩
    exact (stream_recordDelivered i.isLt cause.val k).leavesRest s
  case bound =>
    rintro i seq cause k s _ ⟨⟩
    exact Prog.Within.leavesRest (by simp [stream_boundExpired i.isLt]) s

end Sys2Proof.Machine
end


section
namespace Sys2Proof.Machine
open Reg

/-- Standby with the two-wire wake source enabled. -/
def standbyWakeable : State := run (block [set ModeReg.modeF mStandby, setPwr fun p => { p with wakeMask := 1 }]) State.reset

/-- Refutes O56: a data word that spells the wake word, while no request is being assembled in Standby, requests the transition to Armed in
the mode register, which is outside the two-wire blocks (R62, R492). -/
theorem not_twoWireRowsLeaveTheRest : ¬ Obligations.TwoWireRowsLeaveTheRest := by
  unfold Obligations.TwoWireRowsLeaveTheRest
  rintro ⟨-, dataWord, -⟩
  have kept := (dataWord 0x57414B45 standbyWakeable _ rfl).2 ModeReg.modeF.addr (by decide) (by decide)
  exact absurd kept (by decide)

end Sys2Proof.Machine
end


section
namespace Sys2Proof.Machine
open Reg

/-- Standby with the alarm armed one nanosecond from now and enabled as a wake source. -/
def standbyAlarm : State :=
  run (block [set ModeReg.modeF mStandby, set TimeReg.alarmSecLo 0, set TimeReg.alarmSecHi 0, set TimeReg.alarmNs 1,
    setTime fun t => { t with alarmArmed := true },
    setPwr fun p => { p with wakeMask := 8 }]) State.reset

/-- Refutes O2: a cycle that passes the armed alarm wakes the device from Standby, and the mode register, which is none of the words left
out, shows the transition (R62, R259). -/
theorem not_idleStepIsOneCycle : ¬ Obligations.IdleStepIsOneCycle := by
  unfold Obligations.IdleStepIsOneCycle
  intro h
  obtain ⟨t, next, -, -, -, -, kept⟩ := h standbyAlarm rfl
  obtain rfl : run tick standbyAlarm = t := Host.Outcome.next.inj next
  exact absurd (kept ModeReg.modeF.addr (by decide) (by decide) (by decide) (by decide)) (by decide)

end Sys2Proof.Machine
end


section
/-! Reading a field, or a part of the device, after a meaning that leaves it alone: the footprint that spares it. -/

namespace Sys2Proof.Machine
open Reg

/-- A row answers what its meaning leaves. -/
theorem answers_next {c : Instr} {s t : State} {P : State → Prop} (h : exec c s = .next t) (p : P t) : Answers c s P := ⟨t, h, p⟩

/-- What a row answers is as said of the state that it answers. -/
theorem Answers.of_next {c : Instr} {s t : State} {P : State → Prop} (h : Answers c s P) (e : exec c s = .next t) : P t := by
  obtain ⟨u, hu, p⟩ := h
  have same : u = t := Host.Outcome.next.inj (hu.symm.trans e)
  exact same ▸ p

/-- Setting a field leaves a field apart from it alone: one of another word, or of other bits of the word. -/
theorem get_set_apart {f g : Fld} {v : Nat} {s : State} (hf : f.width ≤ 32) (hg : g.Whole)
    (h : g.addr ≠ f.addr ∨ g.lo + g.width ≤ f.lo ∨ f.lo + f.width ≤ g.lo) : (run (set f v) s).get g = s.get g := by
  by_cases a : g.addr = f.addr
  · exact get_set_beside f g v s hf hg a (h.resolve_left (not_not.mpr a))
  · exact get_set_other f g v s (by have := hg.1; omega) a (.inl hf)

theorem get_bump_apart {f g : Fld} {s : State} (hf : f.width ≤ 32) (hg : g.Whole)
    (h : g.addr ≠ f.addr ∨ g.lo + g.width ≤ f.lo ∨ f.lo + f.width ≤ g.lo) : (run (bump f) s).get g = s.get g := get_set_apart hf hg h

/-- A flag's counter is a word of its own. -/
theorem get_setFlag_apart {f g : Fld} {s : State} (hf : f.width ≤ 32) (hg : g.Whole)
    (h : g.addr ≠ f.addr ∨ g.lo + g.width ≤ f.lo ∨ f.lo + f.width ≤ g.lo) (hc : g.addr ≠ f.cnt) : (run (setFlag f) s).get g = s.get g := by
  rw [setFlag, run_block_cons, run_block_cons, run_block_nil, get_bump_apart (by simp) hg (.inl hc), get_set_apart hf hg h]

/-- The common counters of a node are told. -/
theorem get_counter_untold {g : Fld} {s : State} {nid i : Nat} (hn : nid < 0x140) (hi : i < 8) (w : g.width ≤ 32) (h : ¬ Told g.addr) :
    (run (bump (Node.counter nid none i)) s).get g = s.get g :=
  get_bump_other _ _ _ w (fun e => h (e ▸ (told_counter hn hi).1)) (.inr fun e => h (e ▸ (told_counter hn hi).2))

theorem get_countDropped {g : Fld} {s : State} {nid : Nat} (hn : nid < 0x140) (w : g.width ≤ 32) (h : ¬ Told g.addr) :
    (run (countDropped nid) s).get g = s.get g := get_counter_untold hn (by decide) w h

theorem get_countCorrected {g : Fld} {s : State} {nid : Nat} (hn : nid < 0x140) (w : g.width ≤ 32) (h : ¬ Told g.addr) :
    (run (countCorrected nid) s).get g = s.get g := get_counter_untold hn (by decide) w h

/-- Everything but the words of a field. -/
def sparing (f : Fld) : Foot where
  reg a := a ≠ f.addr ∧ (32 < f.width → a ≠ f.addr + 4)

@[simp] theorem sparing_reg (f : Fld) (a : Nat) : (sparing f).reg a ↔ a ≠ f.addr ∧ (32 < f.width → a ≠ f.addr + 4) := Iff.rfl
@[simp] theorem sparing_byte (f : Fld) (a : Nat) : (sparing f).byte a := trivial
@[simp] theorem sparing_dev (f : Fld) (g : Dev → Dev) : (sparing f).dev g := trivial
@[simp] theorem sparing_out (f : Fld) : (sparing f).out := trivial

theorem sparing_tells {f : Fld} (h : ¬ Told f.addr) (h' : f.width ≤ 32 ∨ ¬ Told (f.addr + 4)) : (sparing f).Tells :=
  ⟨fun _ told => ⟨by rintro rfl; exact h told, fun w => by rintro rfl; exact (h'.resolve_left (by omega)) told⟩,
    fun _ _ => trivial, trivial⟩

/-- A field that a meaning spares reads as before. -/
theorem Prog.Within.spared {f : Fld} {p : Prog} (h : p.Within (sparing f)) (s : State) : (run p s).get f = s.get f :=
  h.get (fun x => x.1 rfl) (by by_cases w : f.width ≤ 32; exacts [.inl w, .inr fun x => x.2 (by omega) rfl]) s

theorem Prog.Within.spared_on {f : Fld} {p : Prog} (h : p.Within (sparing f)) (s : State) : (run p s).on f = s.on f := by
  simp only [State.on, h.spared]

/-- Everything but a part of the device. -/
def sparingDev {β : Type} (g : Dev → β) : Foot where
  dev f := ∀ d, g (f d) = g d

@[simp] theorem sparingDev_reg {β : Type} (g : Dev → β) (a : Nat) : (sparingDev g).reg a := trivial
@[simp] theorem sparingDev_byte {β : Type} (g : Dev → β) (a : Nat) : (sparingDev g).byte a := trivial
@[simp] theorem sparingDev_dev {β : Type} (g : Dev → β) (f : Dev → Dev) : (sparingDev g).dev f ↔ ∀ d, g (f d) = g d := Iff.rfl
@[simp] theorem sparingDev_out {β : Type} (g : Dev → β) : (sparingDev g).out := trivial

theorem sparingDev_tells {β : Type} {g : Dev → β} (q : Quiet g) : (sparingDev g).Tells :=
  ⟨fun _ _ => trivial, fun f hf d => by obtain ⟨h, n, e, k, l, e1⟩ := hf d; rw [e1]; exact q d h n e k l, trivial⟩

/-- A part of the device that a meaning spares is as before. -/
theorem Prog.Within.sparedDev {β : Type} {g : Dev → β} {p : Prog} (h : p.Within (sparingDev g)) (s : State) :
    g (run p s).dev = g s.dev := h.dev (fun _ d hf => hf d) s

/-! The completion of a pending command. -/

/-- A footprint that takes in the journal of commands too. -/
structure Foot.Completes (F : Foot) : Prop extends F.Tells where
  journal : ∀ f : List Cmd → List Cmd, F.dev fun d => { d with journal := f d.journal }

theorem sparing_completes {f : Fld} (h : ¬ Told f.addr) (h' : f.width ≤ 32 ∨ ¬ Told (f.addr + 4)) : (sparing f).Completes :=
  { sparing_tells h h' with journal := fun _ => trivial }

theorem sparingDev_completes {β : Type} {g : Dev → β} (q : Quiet g) (j : ∀ d l, g { d with journal := l } = g d) : (sparingDev g).Completes :=
  { sparingDev_tells q with journal := fun _ d => j d _ }

section
variable {F : Foot}

theorem Foot.Completes.setJournal (h : F.Completes) (f : List Cmd → List Cmd) : (setJournal f).Within F := within_dev.mpr (h.journal f)

theorem Foot.Completes.completeCmd (h : F.Completes) (e : Cmd) (st : Nat) : (completeCmd e st).Within F := by
  simp [Machine.completeCmd, raiseCompleted, dropCmd, h.setJournal, h.raiseIn]

theorem Foot.Completes.finish (h : F.Completes) {cls code node : Nat} {k : Cmd → Prog} (hk : ∀ e, (k e).Within F) (st : Nat) :
    (finish cls code node k st).Within F := by
  intro s
  dsimp only
  split
  · refine within_cons.mpr ⟨hk _, within_cons.mpr ⟨within_look.mpr fun t => ?_, within_nil⟩⟩
    split
    · exact h.completeCmd _ _
    · trivial
  · trivial

theorem Foot.Completes.finishKey (h : F.Completes) {cls code key v : Nat} {k : Cmd → Prog} (hk : ∀ e, (k e).Within F) (st : Nat) :
    (finishKey cls code key v k st).Within F := by
  intro s
  dsimp only
  split
  · refine within_cons.mpr ⟨hk _, within_cons.mpr ⟨within_look.mpr fun t => ?_, within_nil⟩⟩
    split
    · exact h.completeCmd _ _
    · trivial
  · trivial

end

end Sys2Proof.Machine
end


section
/-! The two-wire target and the transfers of the controllers: what each row leaves. -/

namespace Sys2Proof.Machine
open Reg

/-- A word written to the target leaves what the word did, with a new BASE settled at the STOP. -/
theorem targetWrite_tw (p : Prog) (s : State) :
    (run (targetWrite p) s).dev.tw = { (run p (run (bump TwT.writes) s)).dev.tw with newBase := none } := by
  rw [targetWrite, run_block_cons, run_block_cons, run_block_cons, run_block_nil, atStop_tw]

theorem targetWrite_get {f : Fld} (w : f.width ≤ 32) (h : f.addr ≠ 0x01600000) (p : Prog) (s : State) :
    (run (targetWrite p) s).get f = (run p (run (bump TwT.writes) s)).get f := by
  rw [targetWrite, run_block_cons, run_block_cons, run_block_cons, run_block_nil, (atStop_get w h).get]

theorem writes_get {f : Fld} (w : f.width ≤ 32) (h : f.addr ≠ 0x01600044) (s : State) : (run (bump TwT.writes) s).get f = s.get f :=
  get_bump_other _ _ _ w h (.inl (by decide))

/-- Settles O31. -/
theorem twoWireRequestIsAssembled : Obligations.TwoWireRequestIsAssembled := by
  unfold Obligations.TwoWireRequestIsAssembled
  refine ⟨?start, ?data, ?abort, ?timeout, ?consume⟩
  case start =>
    intro n s idle lo hi
    refine answers_next rfl ?_
    rw [targetWrite_tw, mailboxIn_start n _ (by simpa using idle) lo hi]
    exact ⟨rfl, rfl, rfl⟩
  case data =>
    intro w s assembling more
    refine answers_next rfl ?_
    rw [targetWrite_tw, mailboxIn_data w _ (by simpa using assembling) (by simpa using more), bump_dev]
    exact ⟨assembling, rfl, rfl⟩
  case abort =>
    intro s assembling live
    refine answers_next rfl ?_
    rw [statusWrite_tw _ s live]
    simp [bit, assembling]
  case timeout =>
    intro s assembling
    refine answers_next rfl ?_
    simp [assembling, dropRequest, twFlag, countDropped, setTw]
  case consume =>
    intro s ready live
    refine answers_next rfl ?_
    rw [statusWrite_tw _ s live]
    simp [bit, ready]

theorem twFlag_tw (i : Nat) (s : State) : (run (twFlag i) s).dev.tw =
    (match i with
      | 0 => { s.dev.tw with respReady := true } | 1 => { s.dev.tw with dbLost := true } | 2 => { s.dev.tw with alertFail := true }
      | 3 => { s.dev.tw with protoErr := true } | _ => { s.dev.tw with inTimeout := true }) := by
  simp [twFlag, setTw] <;> rfl

/-- A protocol error after hand-over is shown in the status register. -/
theorem protoError_shown (s : State) (live : s.mode ≠ mBoot) : (run (protoError true) s).dev.tw.protoErr = true := by
  have live' : (Act.fresh.apply s).mode ≠ mBoot := live
  simp [protoError, live', twFlag_tw, run_when, countDropped]

/-- A wake source enabled in Standby requests the transition to Armed (R62). -/
theorem wake_standby (i : Nat) (hi : i < 7) (s : State) (standby : s.mode = mStandby) (quiet : s.on ModeReg.pending = false)
    (enabled : bit s.dev.pwr.wakeMask i = true) :
    (run (wake i) s).on ModeReg.pending = true ∧ (run (wake i) s).get ModeReg.target = mArmed
      ∧ (run (wake i) s).get ModeReg.wakeSrc = i + 1 ∧ (run (wake i) s).mode = mStandby := by
  have word : run (wake i) s
      = run (set ModeReg.wakeSrc (i + 1)) (run (set ModeReg.pending 1) (run (set ModeReg.target mArmed) s)) := by
    simp [wake, enabled, standby, quiet]
  have src : (i + 1) % 2 ^ ModeReg.wakeSrc.width = i + 1 := Nat.mod_eq_of_lt (by simp [ModeReg.wakeSrc]; omega)
  rw [word]
  refine ⟨?_, ?_, by rw [get_set_same _ _ _ (by decide), src], ?_⟩
  · simp (disch := decide) only [State.on, get_set_beside, get_set_same]; decide
  · simp (disch := decide) only [get_set_beside, get_set_same]; decide
  · rw [← standby]; simp (disch := decide) only [State.mode, get_set_beside]

/-- Settles O32. -/
theorem twoWireWritesAreCounted : Obligations.TwoWireWritesAreCounted := by
  unfold Obligations.TwoWireWritesAreCounted
  refine ⟨?outptr, ?identity, ?short, ?error, ?word⟩
  case outptr =>
    intro v s
    refine answers_next rfl ?_
    rw [targetWrite_get (by decide) (by decide), get_set_same _ _ _ (by decide)]
    exact Nat.mod_eq_of_lt v.isLt
  case identity =>
    intro s
    refine answers_next rfl ?_
    rw [targetWrite_get (by decide) (by decide), run_block_cons, run_block_cons, run_block_nil, countDropped,
      get_bump_other _ _ _ (by decide) (by decide) (by decide), get_bump_same _ _ (by decide), writes_get (by decide) (by decide)]
    rfl
  case short =>
    intro s
    refine answers_next rfl ?_
    rw [run_block_cons, run_block_cons, run_block_cons, run_block_nil, (atStop_get (by decide) (by decide)).get, countDropped,
      get_bump_other _ _ _ (by decide) (by decide) (by decide), get_bump_same _ _ (by decide)]
    rfl
  case error =>
    intro s
    refine answers_next rfl ?_
    rw [run_block_cons, run_block_cons, run_block_nil, (atStop_get (by decide) (by decide)).get, protoError_counts, atStop_tw]
    exact ⟨rfl, fun live => protoError_shown s live⟩
  case word =>
    intro s idle standby quiet enabled
    refine answers_next rfl ?_
    have still : Keeps State.mode (bump TwT.writes) := keepsMode_bump (by decide) (by decide)
    have woken : run (mailboxIn 0x57414B45) (run (bump TwT.writes) s) = run (wake 0) (run (bump TwT.writes) s) := by
      simp [mailboxIn, idle, show (run (bump TwT.writes) s).mode = mStandby from (still s).trans standby]
    obtain ⟨pending, target, source, -⟩ := wake_standby 0 (by decide) (run (bump TwT.writes) s) ((still s).trans standby)
      (by rw [State.on, writes_get (by decide) (by decide)]; exact quiet) (by simpa using enabled)
    rw [State.on, targetWrite_get (by decide) (by decide), targetWrite_get (by decide) (by decide),
      targetWrite_get (by decide) (by decide), woken]
    exact ⟨pending, target, source⟩

/-! Alerts (R493, R494). -/

/-- An attempt at the first pending alert ends as the bus says. -/
theorem run_alertAttempt (o : Sys2Proof.AlertEnd) {a : Nat} {as : List Nat} (s : State) (h : s.dev.tw.alerts = a :: as) :
    run (alertAttempt o) s =
      let failed := if s.dev.tw.attempt + 1 = 8 then abandonAlert a else setTw fun t => { t with attempt := t.attempt + 1 }
      run atStop (match o with
        | .acked => run (setTw fun t => { t with alerts := t.alerts.tail, attempt := 0, alertSeq := (t.alertSeq + 1) % 256 })
            (run (bump TwT.alertsSent) (run (emit (.twoWireMessage (s.get TwT.alertAddr) (s.alertBytes a))) s))
        | .lost => run failed (run (bump TwT.alertArbLost) s)
        | .nacked => run failed (run (bump TwT.alertNack) s)) := by
  cases o <;> simp [alertAttempt, h]

/-- An abandoned alert is no longer pending and is shown in the status register. -/
theorem abandonAlert_tw (a : Nat) (s : State) :
    (run (abandonAlert a) s).dev.tw = { s.dev.tw with alerts := s.dev.tw.alerts.tail, attempt := 0, alertFail := true } := by
  simp [abandonAlert, twFlag_tw, setTw, countDropped]

theorem abandonAlert_get {f : Fld} (a : Nat) (w : f.width ≤ 32) (flag : f.addr ≠ 0x01600088) (told : ¬ Told f.addr) (s : State) :
    (run (abandonAlert a) s).get f = s.get f := by
  have tells := sparing_tells told (.inl w)
  refine Prog.Within.spared (within_fresh fun n => ?_) s
  simp [twFlag, countDropped, tells.counter, tells.raise, TwT.flagCount, flag.symm, w, setTw]

theorem atStop_out (s : State) : (run atStop s).out = s.out := by
  rw [atStop, run_look']
  split <;> simp [setTw]

/-- Settles O33. -/
theorem alertAttempts : Obligations.AlertAttempts := by
  unfold Obligations.AlertAttempts
  refine ⟨?acked, ?nacked, ?last⟩
  case acked =>
    intro a as s first alerts
    refine answers_next rfl ?_
    rw [run_look', first, decide_eq_true rfl, run_when_true, run_alertAttempt _ s alerts, atStop_tw, atStop_out,
      (atStop_get (by decide) (by decide)).get]
    refine ⟨?_, ?_, ?_, ?_, ?_⟩
    case _ => simp [setTw, alerts]
    case _ => simp [setTw]
    case _ => simp [setTw]
    case _ => simp [setTw]
    case _ => simp only [setTw, run_dev, get_dev, get_bump_same TwT.alertsSent _ (by decide), run_emit, get_emit]; rfl
  case nacked =>
    intro a as s again more alerts
    refine answers_next rfl ?_
    have early : s.dev.tw.attempt + 1 ≠ 8 := by omega
    rw [run_look', decide_eq_true again, run_when_true, run_alertAttempt _ s alerts, atStop_tw, (atStop_get (by decide) (by decide)).get]
    simp only [if_neg early, setTw, run_dev, dev_dev, bump_dev, get_dev, get_bump_same TwT.alertNack _ (by decide)]
    exact ⟨alerts, trivial, rfl⟩
  case last =>
    intro a as s eighth alerts
    refine answers_next rfl ?_
    have again : s.dev.tw.attempt ≠ 0 := by omega
    have last : s.dev.tw.attempt + 1 = 8 := by omega
    rw [run_look', decide_eq_true again, run_when_true, run_alertAttempt _ s alerts, atStop_tw, (atStop_get (by decide) (by decide)).get]
    simp only [if_pos last, abandonAlert_tw, bump_dev, alerts, List.tail_cons,
      abandonAlert_get (f := TwT.alertArbLost) a (by decide) (by decide) (by decide), get_bump_same TwT.alertArbLost _ (by decide)]
    exact ⟨trivial, trivial, trivial, rfl⟩

end Sys2Proof.Machine
end


section
/-! How a transfer on a two-wire bus ends (R498 to R500). -/

namespace Sys2Proof.Machine
open Reg

theorem twc_whole : ∀ x : Fin 64, (x.val < 4 ∨ 16 ≤ x.val) →
    (TwC.busy x).Whole ∧ (TwC.outcome x).Whole ∧ (TwC.segment x).Whole ∧ (TwC.byte x).Whole ∧ (TwC.arbByte x).Whole ∧ (TwC.arbBit x).Whole := by
  decide

theorem twcBase_bounds (x : Fin 64) : 0x01601000 ≤ twcBase x ∧ twcBase x < 0x01607000 := by
  unfold twcBase; split <;> omega

theorem twc_setTwc (x : Nat) (f : TwCtl → TwCtl) (s : State) : (run (setTwc x f) s).twc x = f (s.twc x) := Tbl.get_set_same _ _ _ _

/-- A word of a controller is told to nobody. -/
theorem not_told_twc (x : Fin 64) {d : Nat} (h : d < 0x100) : ¬ Told (twcBase x + d) := by
  have := twcBase_bounds x
  simp only [Told]; omega

/-- What is left to do when the result of a transfer stands in its registers. -/
def afterTransfer (x outcome seg byte : Nat) (data : List Byte) : Prog := block [
  bump (TwC.transfers x), when (outcome = 3 || outcome = 5) (bump (TwC.failed x)),
  raise 0xD 1 1 ([BitVec.ofNat 8 x, BitVec.ofNat 8 outcome, BitVec.ofNat 8 seg, 0] ++ leBytes 2 byte ++ leBytes 2 data.length),
  finish 0xD 4 (busNode x) (fun _ => .skip) 0]

theorem run_endTransfer (x outcome seg byte : Nat) (data : List Byte) (s : State) (busy : s.on (TwC.busy x) = true) :
    run (endTransfer x outcome seg byte data) s = run (afterTransfer x outcome seg byte data)
      (run (setTwc x fun _ => ⟨[], 0, false, data⟩) (run (set (TwC.byte x) byte) (run (set (TwC.segment x) seg)
        (run (set (TwC.outcome x) outcome) (run (set (TwC.busy x) 0) s))))) := by
  simp [endTransfer, afterTransfer, busy]

theorem afterTransfer_get (x : Fin 64) (outcome seg byte : Nat) (data : List Byte) {f : Fld} {d : Nat} (hf : f.addr = twcBase x + d)
    (hd : d < 0x40) (w : f.width ≤ 32) (s : State) : (run (afterTransfer x outcome seg byte data) s).get f = s.get f := by
  have told : ¬ Told f.addr := hf ▸ not_told_twc x (by omega)
  have c := sparing_completes told (.inl w)
  refine Prog.Within.spared ?_ s
  simp [afterTransfer, TwC.transfers, TwC.failed, hf, w, c.raise, c.finish]
  omega

theorem afterTransfer_twc (x y outcome seg byte : Nat) (data : List Byte) (s : State) :
    (run (afterTransfer x outcome seg byte data) s).twc y = s.twc y := by
  have c : (sparingDev Dev.twc).Completes := sparingDev_completes (fun _ _ _ _ _ _ => rfl) fun _ _ => rfl
  have kept : (run (afterTransfer x outcome seg byte data) s).dev.twc = s.dev.twc :=
    Prog.Within.sparedDev (by simp [afterTransfer, c.raise, c.finish]) s
  rw [State.twc, kept]; rfl

/-- A transfer that ends frees its bus, and leaves its result and the bytes it read. -/
theorem endTransfer_ends (x : Fin 64) (at_ : x.val < 4 ∨ 16 ≤ x.val) (outcome : Fin 8) (seg : Fin 8) (byte : BitVec 9) (data : List Byte)
    (s : State) (busy : s.on (TwC.busy x) = true) :
    let t := run (endTransfer x outcome seg byte.toNat data) s
    t.on (TwC.busy x) = false ∧ t.get (TwC.outcome x) = outcome ∧ t.get (TwC.segment x) = seg ∧ t.get (TwC.byte x) = byte.toNat
      ∧ (t.twc x).lastRead = data := by
  obtain ⟨wb, wo, ws, wy, -, -⟩ := twc_whole x at_
  have idle : (TwC.busy x).addr = twcBase x + 0 := rfl
  have result : (TwC.outcome x).addr = twcBase x + 0xc := rfl
  intro t
  have e : t = _ := run_endTransfer x outcome seg byte.toNat data s busy
  rw [e]
  refine ⟨?_, ?_, ?_, ?_, ?_⟩
  · rw [State.on, afterTransfer_get x _ _ _ _ idle (by decide) (by simp [TwC.busy]), setTwc, run_dev, get_dev]
    simp (disch := first | assumption | (refine id ?_; dsimp only [TwC.busy, TwC.byte, TwC.segment, TwC.outcome]; omega) | fail) only
      [get_set_apart, get_set_same]
    rfl
  · rw [afterTransfer_get x _ _ _ _ result (by decide) (by simp [TwC.outcome]), setTwc, run_dev, get_dev]
    simp (disch := first | assumption | (refine id ?_; dsimp only [TwC.busy, TwC.byte, TwC.segment, TwC.outcome]; omega) | fail) only
      [get_set_apart, get_set_same]
    exact Nat.mod_eq_of_lt outcome.isLt
  · rw [afterTransfer_get x _ _ _ _ (d := 0xc) rfl (by decide) (by simp [TwC.segment]), setTwc, run_dev, get_dev]
    simp (disch := first | assumption | (refine id ?_; dsimp only [TwC.busy, TwC.byte, TwC.segment, TwC.outcome]; omega) | fail) only
      [get_set_apart, get_set_same]
    exact Nat.mod_eq_of_lt seg.isLt
  · rw [afterTransfer_get x _ _ _ _ (d := 0xc) rfl (by decide) (by simp [TwC.byte]), setTwc, run_dev, get_dev,
      get_set_same _ _ _ wy]
    exact Nat.mod_eq_of_lt byte.isLt
  · rw [afterTransfer_twc, twc_setTwc]

end Sys2Proof.Machine
end


section
/-! Outcomes of a transfer on a two-wire bus (Table 15-9). -/

namespace Sys2Proof.Machine
open Reg

theorem twc_emit (s : State) (o : Out) (x : Nat) : ((Act.emit o).apply s).twc x = s.twc x := id rfl

/-- An attempt under way on a bus takes its outcome. -/
theorem run_busBusy (x : Nat) (p : Prog) (s : State) (busy : s.on (TwC.busy x) = true) (going : (s.twc x).waiting = false) :
    run (busBusy x p) s = run p s := by
  simp [busBusy, busy, going]

theorem transferDone_ends (x : Fin 64) (at_ : x.val < 4 ∨ 16 ≤ x.val) (data : List Byte) (s : State) (busy : s.on (TwC.busy x) = true)
    (going : (s.twc x).waiting = false) :
    let t := run (transferDone x data) s
    t.on (TwC.busy x) = false ∧ t.get (TwC.outcome x) = 0 ∧ (t.twc x).lastRead = slice data 0 (s.readTotal x) := by
  rw [transferDone, run_busBusy _ _ _ busy going, run_look']
  obtain ⟨idle, outcome, -, -, read⟩ := endTransfer_ends x at_ 0 0 0 (slice data 0 (s.readTotal x)) s busy
  exact ⟨idle, outcome, read⟩

/-- Settles O34. -/
theorem twoWireTransfersEnd : Obligations.TwoWireTransfersEnd := by
  unfold Obligations.TwoWireTransfersEnd
  refine ⟨?done, ?nack, ?lost, ?retry, ?stuck, ?tunnel⟩
  case done =>
    intro x data s at_ busy going
    exact answers_next rfl (transferDone_ends x at_ data s busy going)
  case nack =>
    intro x addr seg byte data s at_ busy going
    refine answers_next rfl ?_
    obtain ⟨wb, -⟩ := twc_whole x at_
    have still : (run (bump (TwC.nacks x)) (run (setFlag (TwC.nacked x)) s)).on (TwC.busy x) = true := by
      simp (disch := first | assumption | omega | (refine id ?_; dsimp only [TwC.busy, TwC.nacks, TwC.nacked]; omega) | fail) only
        [State.on, get_bump_apart, get_setFlag_apart]
      exact busy
    rw [transferNack, run_busBusy _ _ _ busy going, run_block_cons, run_block_cons, run_block_cons, run_block_nil]
    obtain ⟨idle, outcome, segment, byteNo, read⟩ := endTransfer_ends x at_ (if addr then 1 else 2) seg byte data _ still
    cases addr <;> exact ⟨idle, outcome, segment, byteNo, read⟩
  case lost =>
    intro x byte bitNo s busy going others early
    refine answers_next rfl ?_
    have at_ : x.val < 4 ∨ 16 ≤ x.val := by omega
    obtain ⟨wb, -, -, -, wy, wi⟩ := twc_whole x at_
    have tb : ¬ Told (TwC.busy x).addr := not_told_twc x (d := 0) (by decide)
    have ty : ¬ Told (TwC.arbByte x).addr := not_told_twc x (d := 0x10) (by decide)
    have ti : ¬ Told (TwC.arbBit x).addr := not_told_twc x (d := 0x10) (by decide)
    have checks : (decide (16 ≤ x.val) || s.on (TwC.multi x)) = true := by rcases others with h | ⟨-, h⟩ <;> simp [h]
    have waits : ¬ 8 ≤ (s.twc x).attempt := by omega
    simp only [transferLost, run_busBusy _ _ _ busy going, run_look', checks, run_when_true, run_block_cons, run_block_nil, if_neg waits,
      twc_setTwc, true_and]
    rw [State.on]
    simp (disch :=
      first
      | assumption
      | omega
      | (refine id ?_; dsimp only [TwC.busy, TwC.arbByte, TwC.arbBit, TwC.arbAttempt, TwC.arbLost, TwC.arbLosses]; omega)
      | fail) only [setTwc, run_dev, get_dev, raiseLimited_get, get_countCorrected, get_bump_apart, get_setFlag_apart,
      get_set_apart, get_set_same]
    exact ⟨busy, Nat.mod_eq_of_lt byte.isLt, Nat.mod_eq_of_lt bitNo.isLt⟩
  case retry =>
    intro x s busy waiting
    refine answers_next rfl ?_
    have going := twc_setTwc x (fun t => { t with waiting := false, attempt := t.attempt + 1 }) s
    simp only [busy, waiting, Bool.and_self, run_look', run_when_true, run_block_cons, run_block_nil, startAttempt, run_emit,
      twc_emit, going, and_self]
  case stuck =>
    intro x sda pulses s at_ enabled busy
    refine answers_next rfl ?_
    obtain ⟨wb, -⟩ := twc_whole x at_
    have tb : ¬ Told (TwC.busy x).addr := not_told_twc x (d := 0) (by decide)
    have recovers : (s.on (TwC.enable x) && (sda || s.on (TwC.busy x))) = true := by simp [enabled, busy]
    simp only [transferStuck, run_look', recovers, run_when_true, run_block_cons, run_block_nil]
    have still (u : State) (hu : u.on (TwC.busy x) = true) : (run (raise 0xD 3 1 [BitVec.ofNat 8 x, BitVec.ofNat 8 (boolNat sda)])
        (run (countDropped 1) (run (bump (TwC.stuck x)) (run (setFlag (TwC.busStuck x)) u)))).on (TwC.busy x) = true := by
      simp (disch := first | assumption | omega | (refine id ?_; dsimp only [TwC.busy, TwC.stuck, TwC.busStuck]; omega) | fail) only
        [State.on, raise_get, get_countDropped, get_bump_apart, get_setFlag_apart]
      exact hu
    obtain ⟨idle, outcome, -⟩ := endTransfer_ends x at_ 4 0 0 [] _
      (still (run (when sda (emit (.twoWireRecover x pulses))) s) (by cases sda <;> exact busy))
    exact ⟨idle, outcome⟩
  case tunnel =>
    intro n data s up busy going
    refine answers_next rfl ?_
    rw [run_look', up, decide_eq_true rfl, run_when_true]
    exact transferDone_ends ⟨16 + n.val, by omega⟩ (.inr (by simp)) data s busy going

end Sys2Proof.Machine
end


section
/-! CLEAR_FLAG_COUNTERS from the two-wire mailbox (R596): its own response counts RESP_READY again. -/

namespace Sys2Proof.Machine
open Reg

/-- Armed with firmware ready, and the two-wire mailbox of the S world. -/
def armedReady : State := run (block [set ModeReg.modeF mArmed, setFwReady true, set Wld.twS 1]) State.reset

/-- CLEAR_FLAG_COUNTERS of the status register of the two-wire target. -/
def clearTwoWireFlags : Req :=
  { flags := 0, version := 1, tag := 7, length := 12, rsv := 0, node := 1, payload := tlvBytes [tlv 0xB 8 0x01600004] }

def clearTwoWireFlagsCtx : Ctx :=
  { mb := .twoWire, cls := 1, code := 5, req := clearTwoWireFlags, tlvs := [tlv 0xB 8 0x01600004], tgt := ⟨0, .device, 1, true⟩, take := 1 }

/-- Refutes O38: the flag counters of the two-wire status register are cleared, and then the response through the two-wire mailbox sets
RESP_READY, which counts (R491, R596). -/
theorem not_deviceAndNodeCommandsAct : ¬ Obligations.DeviceAndNodeCommandsAct := by
  unfold Obligations.DeviceAndNodeCommandsAct
  rintro ⟨-, -, -, clear, -⟩
  obtain ⟨t, answered, -, cleared⟩ := clear .twoWire clearTwoWireFlags clearTwoWireFlagsCtx armedReady (by decide) (by decide)
  cases answered
  exact absurd (cleared 0x01600080 (by decide)) (by decide)

end Sys2Proof.Machine
end


section
/-! SET_NODE_STATE to Off of a cluster in retention (R65, Table 2-7): its common is off already, so nothing moves. -/

namespace Sys2Proof.Machine
open Reg

/-- Armed with firmware ready, cluster 0 Retained: its common domain is off with its state kept. -/
def clusterRetained : State := run (block [set (Node.state (nidCluster 0)) stRetained, setDomain 13 false true]) armedReady

/-- SET_NODE_STATE of cluster 0 to Off. -/
def setClusterOff : Req :=
  { flags := 0, version := 1, tag := 7, length := 8, rsv := 0, node := 0x10, payload := tlvBytes [tlv 5 1 0] }

def setClusterOffCtx : Ctx :=
  { mb := .pf1 0, cls := 3, code := 4, req := setClusterOff, tlvs := [tlv 5 1 0], tgt := ⟨0, .cluster 0, 0x10, true⟩, take := 1 }

/-- Refutes O39: a Retained cluster is asked to go to Off, which passes every check, but switching off a cluster whose domain is off does
nothing, so the state stays Retained. -/
theorem not_powerCommandsAct : ¬ Obligations.PowerCommandsAct := by
  unfold Obligations.PowerCommandsAct
  rintro ⟨-, -, -, -, setNodeState, -⟩
  have off := (setNodeState (.pf1 0) setClusterOff setClusterOffCtx clusterRetained (by decide +kernel)).of_next
    (t := run (specSetNodeState.issue (.pf1 0) setClusterOff) clusterRetained) rfl
  exact absurd off.2 (by decide +kernel)

end Sys2Proof.Machine
end


section
/-! EQ_ADAPT of a tunnelled port whose bus has a transfer under way (R199, R500). -/

namespace Sys2Proof.Machine
open Reg

/-- A transfer on the bus of port 0 that bears the sequence number of the next command. -/
def tunnelTransfer : Cmd :=
  { mb := .pf1 1, cls := 0xD, code := 4, req := clearTwoWireFlags, phase := .pending, seq := 1, node := busNode 16, result := 0, waits := 0, status := 0,
    answered := false, due := 0, parts := [] }

/-- Armed with firmware ready, port 0 up and a transfer under way on its bus. -/
def tunnelBusy : State :=
  run (block [set (Port.link 0) 2, set (TwC.busy 16) 1, setJournal fun _ => [tunnelTransfer]]) armedReady

/-- EQ_ADAPT of port 0 in mode 1. -/
def adaptPort0 : Req :=
  { flags := 0, version := 1, tag := 7, length := 16, rsv := 0, node := 0x10, payload := tlvBytes [tlv 1 1 0, tlv 0x40 1 1] }

def adaptPort0Ctx : Ctx :=
  { mb := .pf1 0, cls := 4, code := 8, req := adaptPort0, tlvs := [tlv 1 1 0, tlv 0x40 1 1], tgt := ⟨0, .cluster 0, 0x10, true⟩, take := 1 }

/-- Refutes O40: EQ_ADAPT in mode 1 takes the port's link down, which ends the transfer on its bus and drops from the journal every command of
that transfer's sequence number. The statement leaves the journal free, so the number can be that of EQ_ADAPT itself, which then is no longer
pending. -/
theorem not_cameraPortCommandsAct : ¬ Obligations.CameraPortCommandsAct := by
  unfold Obligations.CameraPortCommandsAct
  rintro ⟨-, -, -, -, -, -, -, -, -, -, eqAdapt, -⟩
  have adapted := (eqAdapt (.pf1 0) adaptPort0 adaptPort0Ctx tunnelBusy (by decide +kernel)).of_next
    (t := run (specEqAdapt.issue (.pf1 0) adaptPort0) tunnelBusy) rfl
  exact absurd adapted.2 (by decide +kernel)

end Sys2Proof.Machine
end


section
/-! LIN_SET where stage 0 is set wider than its knots (R274). -/

namespace Sys2Proof.Machine
open Reg

/-- Armed with firmware ready, and a stage-0 width of 31 bits in pipeline 0, which its five-bit field holds. -/
def wideStage : State := run (set (Corr.w 0) 31) armedReady

/-- Knots 0 to 31 and one at 2²⁰, each with Y 0 and its padding 0. -/
def wideKnots : List Byte := (List.range 32).flatMap (leBytes 8) ++ leBytes 8 0x100000

/-- LIN_SET of pipeline 0 with those knots. -/
def linWide : Req :=
  { flags := 0, version := 1, tag := 7, length := 276, rsv := 0, node := 0x100, payload := tlvBytes [tlv 1 1 1, ⟨2, wideKnots⟩] }

def linWideCtx : Ctx :=
  { mb := .pf1 0, cls := 6, code := 1, req := linWide, tlvs := [tlv 1 1 1, ⟨2, wideKnots⟩], tgt := ⟨0, .pipeline 0, 0x100, true⟩, take := 1 }

/-- Refutes O42: a knot is checked against the width of the stage, whose field holds up to 31, but the register of a knot's X has 20 bits, so
X = 2²⁰ reads 0. -/
theorem not_correctionCommandsAct : ¬ Obligations.CorrectionCommandsAct := by
  unfold Obligations.CorrectionCommandsAct
  rintro ⟨linSet, -⟩
  have set := (linSet (.pf1 0) linWide linWideCtx wideStage (by decide +kernel) (by decide +kernel) (by decide +kernel)).of_next
    (t := run (specLinSet.issue (.pf1 0) linWide) wideStage) rfl
  exact absurd (set.2.2 32).1 (by decide +kernel)

end Sys2Proof.Machine
end


section
/-! A byte above the shared memory of the device survives a reset of the device. -/

namespace Sys2Proof.Machine
open Reg

/-- After reset, with one byte at the first address past the memory that a reset clears. -/
def byteBeyond : State := { State.reset with mem := [(0x20000000000, 1)] }

/-- Refutes O11: an undervoltage of VDD_AON resets the device, and the byte stays. -/
theorem not_thermalNetActs : ¬ Obligations.ThermalNetActs := by
  unfold Obligations.ThermalNetActs
  rintro ⟨-, -, -, -, -, -, failedAon, -⟩
  obtain ⟨t, answered, -, empty, -⟩ := failedAon byteBeyond
  cases answered
  exact absurd empty (by decide +kernel)

/-- Refutes O15: a power-on reset leaves the byte. -/
theorem not_resetsKeepWhatTheyKeep : ¬ Obligations.ResetsKeepWhatTheyKeep := by
  unfold Obligations.ResetsKeepWhatTheyKeep
  rintro ⟨powerOn, -⟩
  obtain ⟨t, answered, empty, -⟩ := powerOn byteBeyond
  cases answered
  exact absurd empty (by decide +kernel)

end Sys2Proof.Machine
end


section
/-! Values armed for the screen of a pipeline take effect at the next tile row, as words written to registers (`applyArmed`): of a state
whose armed words name a register outside the screen, the row that opens a tile row writes that register. -/

namespace Sys2Proof.Machine
open Reg

/-- The state that a row answers; every row answers one (O5). -/
def after (c : Instr) (s : State) : State := match exec c s with | .next t => t | _ => s

theorem Answers.after {c : Instr} {s : State} {P : State → Prop} (h : Answers c s P) : P (after c s) := by
  obtain ⟨t, answered, p⟩ := h
  simpa [Machine.after, answered] using p

/-- Stream 0 admitted with head 0 on port 0, which pipeline 0 takes and whose screen is on with one word armed. -/
def armedWord (addr v : Nat) : State :=
  run (block [set (Del.state 0) 1, set (Head.valid 0 0) 1, set (Head.device 0 0) State.reset.dev.ownIndex, set (Head.port 0 0) 0, set (Head.vc 0 0) 0, setReg (steerWord 0 0 0) 1,
    set (Scr.enable 0) 1, setPipe 0 fun p => { p with armed := [⟨9, 0, [(addr, v)]⟩] }]) State.reset

/-- A window of head 0 is about to close with nothing in it. -/
def windowClosing : State :=
  run (setGen 0 fun g => { g with wins := [⟨0, 0, 0, 0, false, false, false⟩] }) (armedWord (Head.absent 0 0).addr 0)

/-- Refutes O19: a window closes with nothing in it, which counts ABSENT; the tile row that opens then writes the word of the counter. -/
theorem not_triggersFire : ¬ Obligations.TriggersFire := by
  unfold Obligations.TriggersFire
  rintro ⟨-, -, -, -, -, -, -, -, windowClose, -⟩
  obtain ⟨-, absent⟩ := (windowClose 0 ⟨0, 0, 0, 0, false, false, false⟩ windowClosing (by decide +kernel) (by decide +kernel) (by decide)).after
  exact absurd absent (by decide +kernel)

/-- Pin 0 captures both edges and triggers stream 0, which issues indices but fired less than its minimum period ago. -/
def pinSoon : State :=
  run (block [set (Pin.func 0) 3, set (Pin.edge 0) 3, set (Trig.source 0) 5, set (Trig.pin 0) 0,
    setGen 0 fun g => { g with issuing := true, lastTrig := some 1 }]) (armedWord (Pin.capLevel 0).addr 0)

/-- Refutes O20: an edge is captured and the index it would fire is skipped; the tile row that opens for it writes the word of LEVEL. -/
theorem not_timeBaseAndPins : ¬ Obligations.TimeBaseAndPins := by
  unfold Obligations.TimeBaseAndPins
  rintro ⟨-, -, -, -, -, -, pinEdge, -⟩
  obtain ⟨-, level⟩ := (pinEdge 0 true 0 0 pinSoon (by decide +kernel) (by decide +kernel) (by decide +kernel) (by decide +kernel)).after
  exact absurd level (by decide +kernel)

/-- A line of head 0, with no bytes yet. -/
def emptyLine : OpenLine := ⟨0, 0, 0, some (0, 0), 0, true, 0, [], 0, 0, 0, 0⟩

/-- That line is open in pipeline 0. -/
def lineOpen : State := run (setPipe 0 fun p => { p with line := some emptyLine }) (armedWord (Framer.truncated 0).addr 0)

/-- Refutes O18: a line times out, which counts TRUNCATED; the tile row that opens for the line writes the word of the counter. -/
theorem not_packetsReachFramers : ¬ Obligations.PacketsReachFramers := by
  unfold Obligations.PacketsReachFramers
  rintro ⟨-, -, -, -, -, -, -, -, -, -, -, lineTimeout, -⟩
  obtain ⟨-, -, truncated⟩ := (lineTimeout 0 emptyLine lineOpen (by decide +kernel)).after
  exact absurd truncated (by decide +kernel)

end Sys2Proof.Machine
end


section
/-! STREAM_START at once fires the indices reached already, and with them the tile row of a skipped index takes its armed words. -/

namespace Sys2Proof.Machine
open Reg

/-- Armed with firmware ready, and stream 0 admitted with index 0 at its origin, a pitch of one, and a trigger less than its minimum period ago;
the armed word is the one that holds the stream's state. -/
def startClobbers : State :=
  run (block [set ModeReg.modeF mArmed, setFwReady true, set (Trig.source 0) 0, set (Trig.pitchInt 0) 1, set (Trig.phaseInt 0) 0,
    setGen 0 fun g => { g with lastTrig := some 1 }]) (armedWord (Del.state 0).addr 0)

/-- STREAM_START of stream 0 at once. -/
def startFirst : Req := { flags := 0, version := 1, tag := 7, length := 8, rsv := 0, node := 1, payload := tlvBytes [tlv 1 1 0] }

def startFirstCtx : Ctx :=
  { mb := .pf1 0, cls := 0xB, code := 2, req := startFirst, tlvs := [tlv 1 1 0], tgt := ⟨0, .device, 1, true⟩, take := 1 }

/-- Refutes O45: the stream is Started, then its first index is skipped, and the words armed for the tile row write the stream's state. -/
theorem not_streamCommandsAct : ¬ Obligations.StreamCommandsAct := by
  unfold Obligations.StreamCommandsAct
  rintro ⟨-, startAtOnce, -⟩
  obtain ⟨-, started, -⟩ := (startAtOnce (.pf1 0) startFirst startFirstCtx startClobbers (by decide +kernel) (by decide +kernel)
    (by decide +kernel) (by decide +kernel)).after
  exact absurd started (by decide +kernel)

end Sys2Proof.Machine
end


section
/-! What a field and a saturated count can hold. -/

namespace Sys2Proof.Machine
open Reg

theorem get_lt {f : Fld} (w : f.width ≤ 32) (s : State) : s.get f < 2 ^ f.width := by
  rw [get_narrow s f w]
  exact Nat.mod_lt _ (Nat.two_pow_pos _)

theorem satNat_satNat (a b m : Nat) : satNat (satNat a m + b) m = satNat (a + b) m := by
  simp only [satNat_eq_min]; omega

end Sys2Proof.Machine
end


section
/-! The replay buffer of a cascade link (R454, R458 to R460). -/

namespace Sys2Proof.Machine
open Reg

theorem quad_setQuad (q : Nat) (f : QuadSt → QuadSt) (s : State) : (run (setQuad q f) s).quad q = f (s.quad q) := Tbl.get_set_same _ _ _ _

theorem replay_whole : ∀ q : Fin 4, (Quad.replays q).Whole ∧ (Quad.rtt q).Whole ∧ (Quad.ow q).Whole := by decide

/-- One packet goes out again. -/
def resendOne (q : Nat) (x : TxPacket) : Prog := block [bump (Quad.replays q), setFlag (Quad.replayed q), emit (.packet q x.seq x.pkt)]

theorem resendOne_dev (q : Nat) (x : TxPacket) (s : State) : (run (resendOne q x) s).dev = s.dev := by simp [resendOne, setFlag]

theorem resendOne_out (q : Nat) (x : TxPacket) (s : State) : (run (resendOne q x) s).out = .packet q x.seq x.pkt :: s.out := by
  simp [resendOne, setFlag]

theorem resendOne_replays (q : Fin 4) (x : TxPacket) (s : State) :
    (run (resendOne q x) s).get (Quad.replays q) = satNat (s.get (Quad.replays q) + 1) 0xFFFFFFFF := by
  obtain ⟨whole, -, -⟩ := replay_whole q
  rw [resendOne, run_block_cons, run_block_cons, run_block_cons, run_block_nil, run_emit, get_emit,
    get_setFlag_apart (by simp [Quad.replayed]) whole (by simp [Quad.replays, Quad.replayed]) (by simp [Quad.replays, Quad.replayed]),
    get_bump_same _ _ whole]
  rfl

theorem replays_le (q : Fin 4) (s : State) : s.get (Quad.replays q) ≤ 0xFFFFFFFF :=
  Nat.le_of_lt_succ (get_lt (f := Quad.replays q) (Nat.le_refl 32) s)

theorem resendAll_dev (q : Nat) (ps : List TxPacket) (s : State) : (run (forEach ps (resendOne q)) s).dev = s.dev := by
  induction ps generalizing s with
  | nil => rfl
  | cons p ps ih => rw [run_forEach_cons, ih, resendOne_dev]

theorem resendAll_out (q : Nat) (ps : List TxPacket) (s : State) :
    (run (forEach ps (resendOne q)) s).out = (ps.map fun y => .packet q y.seq y.pkt).reverse ++ s.out := by
  induction ps generalizing s with
  | nil => rfl
  | cons p ps ih => rw [run_forEach_cons, ih, resendOne_out]; simp

theorem resendAll_replays (q : Fin 4) (ps : List TxPacket) (s : State) :
    (run (forEach ps (resendOne q)) s).get (Quad.replays q) = satNat (s.get (Quad.replays q) + ps.length) 0xFFFFFFFF := by
  induction ps generalizing s with
  | nil => exact (satNat_of_le (replays_le q s)).symm
  | cons p ps ih => rw [run_forEach_cons, ih, resendOne_replays, satNat_satNat, List.length_cons, Nat.add_assoc, Nat.add_comm 1]

/-- A packet with one retry more. -/
def TxPacket.again (x : TxPacket) : TxPacket := { x with retries := x.retries + 1 }

/-- Sending again from a sequence number on: the packets before it stay as they are, and none of the rest has had its three retries. -/
theorem resendFrom_resends (q : Fin 4) (seq : Nat) (a b : List TxPacket) (s : State) (whole : (s.quad q).unacked = a ++ b)
    (before : ∀ y ∈ a, y.seq ≠ seq ∧ y ∉ b) (first : ∃ x, b.head? = some x ∧ x.seq = seq) (few : ∀ y ∈ b, y.retries < 3) :
    let t := run (resendFrom q seq) s
    (t.quad q).unacked = a ++ b.map TxPacket.again ∧ t.out = (b.map fun y => .packet q y.seq y.pkt).reverse ++ s.out
      ∧ t.get (Quad.replays q) = satNat (s.get (Quad.replays q) + b.length) 0xFFFFFFFF := by
  obtain ⟨x, head, found⟩ := first
  obtain ⟨b', rfl⟩ : ∃ b', b = x :: b' := by cases b <;> simp_all
  have rest : (s.quad q).unacked.dropWhile (fun y => decide (y.seq ≠ seq)) = x :: b' := by
    rw [whole, List.dropWhile_append_of_pos (by simpa using fun y m => (before y m).1)]
    simp [found]
  have young : (x :: b').find? (fun y => decide (3 ≤ y.retries)) = none := by
    simpa using ⟨few x (by simp), fun y m => few y (by simp [m])⟩
  have marked : (s.quad q).unacked.map (fun y => if (x :: b').contains y then y.again else y) = a ++ (x :: b').map TxPacket.again := by
    rw [whole, List.map_append]
    congr 1
    · conv_rhs => rw [← List.map_id a]
      exact List.map_congr_left fun y m => if_neg (by simpa using (before y m).2)
    · exact List.map_congr_left fun y m => if_pos (by simpa using m)
  intro t
  have shape : t = run (forEach (x :: b') (resendOne q)) (run (setQuad q fun u => { u with
      unacked := u.unacked.map (fun y => if (x :: b').contains y then y.again else y), resent := some (seq, s.now) }) s) := by
    simp only [t, resendFrom, run_look', rest, young, List.isEmpty_cons, Bool.not_false, run_when_true, run_block_cons, run_block_nil]
    rfl
  rw [shape]
  refine ⟨?_, ?_, ?_⟩
  · rw [State.quad, resendAll_dev]
    exact (congrArg QuadSt.unacked (quad_setQuad ..)).trans marked
  · rw [resendAll_out]; rfl
  · rw [resendAll_replays]; rfl

theorem run_pump_empty (q : Nat) (s : State) (h : (s.quad q).sendQ = []) : run (pump q) s = s := by
  rw [pump, run_look', h]; rfl

/-- What a CREDIT of class 1 adds to a quad. -/
def QuadSt.credited (t : QuadSt) (freed total : Nat) : QuadSt := { t with credit1 := t.credit1 + freed, seen1 := total }

theorem credited_spares (t : QuadSt) (freed total : Nat) :
    (t.credited freed total).sendQ = t.sendQ ∧ (t.credited freed total).credit1 = t.credit1 + freed ∧ (t.credited freed total).seen1 = total
      ∧ (t.credited freed total).credit2 = t.credit2 ∧ (t.credited freed total).credit3 = t.credit3 := ⟨rfl, rfl, rfl, rfl, rfl⟩

theorem exec_cascadeCredit_first (q : Fin 4) (v : BitVec 32) (s : State) (up : s.get (Quad.lstate q) = lUp) (idle : (s.quad q).sendQ = []) :
    exec (.cascadeCredit q 1 v) s
      = .next (run (setQuad q fun t => t.credited ((v.toNat + 0x100000000 - t.seen1) % 0x100000000) v.toNat) s) := by
  have e : exec (.cascadeCredit q 1 v) s = .next (run (pump q)
      (run (setQuad q fun t => t.credited ((v.toNat + 0x100000000 - t.seen1) % 0x100000000) v.toNat) s)) := by
    change execCascadeCredit q 1 v s = _
    unfold execCascadeCredit
    simp only [run_look', up, decide_true, run_when_true, run_block_cons, run_block_nil]
    rfl
  rw [e, run_pump_empty]
  rw [quad_setQuad, (credited_spares ..).1]
  exact idle

/-- Settles O27. -/
theorem cascadeReplayBuffer : Obligations.CascadeReplayBuffer := by
  unfold Obligations.CascadeReplayBuffer
  refine ⟨?ack, ?nak, ?timeout, ?credit, ?echo, ?reply⟩
  case ack =>
    intro q seq a b x s up sent named others
    refine answers_next rfl ?_
    have mine : (s.quad q).unacked.any (fun y => decide (y.seq = seq.toNat)) = true := by simp [sent, named]
    have before : a.takeWhile (fun y => decide (y.seq ≠ seq.toNat)) = a :=
      List.takeWhile_eq_self_iff.mpr fun y m => by simpa using others y (by simp [m])
    have none_else (l : List TxPacket) (h : ∀ y ∈ l, y ∈ a ++ b) : l.filter (fun y => decide (y.seq = seq.toNat)) = [] :=
      List.filter_eq_nil_iff.mpr fun y m => by simpa using others y (h y m)
    have gone : ((s.quad q).unacked.takeWhile fun y => decide (y.seq ≠ seq.toNat)) ++ ((s.quad q).unacked.filter fun y => decide (y.seq = seq.toNat))
        = a ++ [x] := by
      rw [sent, List.takeWhile_append, before, List.filter_append, none_else a (by simp +contextual), List.filter_cons,
        none_else b (by simp +contextual)]
      simp [named]
    simp only [run_look', up, mine, decide_true, Bool.and_self, run_when_true]
    refine ⟨?_, rfl, rfl⟩
    calc (run (setQuad q _) s).quad q |>.unacked
      _ = (s.quad q).unacked.drop (a ++ [x]).length := by rw [quad_setQuad]; exact congrArg (fun l => List.drop l.length _) gone
      _ = b := by rw [sent]; simp
  case nak =>
    intro q seq a b s up fresh sent distinct first few
    refine answers_next rfl ?_
    simp only [run_look', up, fresh, decide_true, Bool.not_false, Bool.and_self, run_when_true]
    refine resendFrom_resends q seq.toNat a b s sent (fun y m => ?_) first few
    obtain ⟨x, head, found⟩ := first
    have apart := (List.nodup_append.mp (List.map_append ▸ distinct)).2.2
    have other (z) (hz : z ∈ b) : y.seq ≠ z.seq := apart _ (List.mem_map_of_mem m) _ (List.mem_map_of_mem hz)
    exact ⟨found ▸ other x (List.mem_of_mem_head? head), fun h => other y h rfl⟩
  case timeout =>
    intro q x b s up sent few
    refine answers_next rfl ?_
    simp only [run_look', up, sent, decide_true, run_when_true]
    obtain ⟨kept, sentAgain, -⟩ := resendFrom_resends q x.seq [] (x :: b) s sent (by simp) ⟨x, rfl, rfl⟩ few
    exact ⟨kept, sentAgain⟩
  case credit =>
    intro q v s up idle
    refine answers_next (exec_cascadeCredit_first q v s up idle) ?_
    obtain ⟨-, credit1, seen1, credit2, credit3⟩ :=
      credited_spares (s.quad q) ((v.toNat + 0x100000000 - (s.quad q).seen1) % 0x100000000) v.toNat
    rw [quad_setQuad]
    exact ⟨credit1, seen1, credit2, credit3⟩
  case echo =>
    intro q n s up
    refine answers_next rfl ?_
    simp [up]
  case reply =>
    intro q n rtt s up known asked
    obtain ⟨-, wr, wo⟩ := replay_whole q
    refine answers_next rfl ?_
    have small : max (s.get (Quad.rtt q)) rtt.toNat < 0x10000 := max_lt (get_lt (f := Quad.rtt q) (by simp [Quad.rtt]) s) rtt.isLt
    simp only [run_look', up, known, asked, decide_true, ne_eq, not_false_eq_true, Bool.and_self, run_when_true, run_block_cons, run_block_nil, putRtt]
    refine ⟨?_, ?_, ?_⟩
    · simp (disch := first | assumption | (refine id ?_; dsimp only [Quad.rtt, Quad.ow, Quad.trigHop]; omega) | fail) only
        [get_set_apart, get_set_same]
      exact Nat.mod_eq_of_lt small
    · simp (disch := first | assumption | (refine id ?_; dsimp only [Quad.rtt, Quad.ow, Quad.trigHop]; omega) | fail) only
        [get_set_apart, get_set_same]
      refine Nat.mod_eq_of_lt (lt_of_le_of_lt ?_ small)
      simp only [ceilDiv, OfNat.ofNat_ne_zero, if_false]; omega
    · have asked : (s.quad q).echoes - 1 + 1 = (s.quad q).echoes := Nat.sub_add_cancel (Nat.pos_of_ne_zero asked)
      rw [State.quad, set_dev, set_dev, set_dev]
      exact (congrArg (fun u : QuadSt => u.echoes + 1) (quad_setQuad q (fun u => { u with echoes := u.echoes - 1 }) s)).trans asked

end Sys2Proof.Machine
end


section
/-! The time port (R258 to R262). -/

namespace Sys2Proof.Machine
open Reg

theorem setPortState_shows (v : Nat) (hv : v < 16) (s : State) : (run (setPortState v) s).get TPort.portState = v := by
  rw [setPortState, run_look']
  by_cases same : s.get TPort.portState = v
  · simp [same]
  · simp only [same, ne_eq, not_false_eq_true, decide_true, run_when_true, run_block_cons, run_block_nil]
    rw [raise_get _ _ _ _ _ (by decide) (.inl (by decide)), get_set_same _ _ _ (by decide)]
    exact Nat.mod_eq_of_lt hv

theorem setPortState_get {f : Fld} (v : Nat) (s : State) (w : f.Whole)
    (apart : f.addr ≠ 0x01560000 ∨ 4 ≤ f.lo) (told : ¬ Told f.addr) (narrow : f.width ≤ 32) : (run (setPortState v) s).get f = s.get f := by
  rw [setPortState, run_look', run_when]
  split
  · rw [run_block_cons, run_block_cons, run_block_nil, raise_get _ _ _ _ _ told (.inl narrow),
      get_set_apart (by decide) w (apart.imp_right .inr)]
  · rfl

theorem setHoldover_shows (on : Bool) (s : State) : (run (setHoldover on) s).on TimeReg.holdover = on := by
  rw [setHoldover, run_look']
  by_cases same : s.on TimeReg.holdover = on
  · simp [same]
  · have flag (t : State) : (run (when on (setFlag TimeReg.holdoverEntered)) t).get TimeReg.holdover = t.get TimeReg.holdover := by
      rw [run_when]; split
      · exact get_setFlag_apart (by decide) (by decide) (by decide) (by decide)
      · rfl
    simp only [same, ne_eq, not_false_eq_true, decide_true, run_when_true, run_block_cons, run_block_nil]
    rw [State.on, raise_get _ _ _ _ _ (by decide) (.inl (by decide)), flag, get_set_same _ _ _ (by decide)]
    cases on <;> rfl

theorem setHoldover_get {f : Fld} (on : Bool) (s : State) (apart : ¬ (0x01500000 ≤ f.addr ∧ f.addr < 0x01500100))
    (told : ¬ Told f.addr) (narrow : f.width ≤ 32) : (run (setHoldover on) s).get f = s.get f := by
  refine Prog.Within.spared ?_ s
  simp [setHoldover, TimeReg.holdover, TimeReg.holdoverEntered, (sparing_tells told (.inl narrow)).raise]
  omega

theorem sendPtp_out (bs : List Byte) (s : State) : (run (sendPtp bs) s).out = .timeFrame bs :: s.out := by simp [sendPtp]
theorem sendPtp_dev (bs : List Byte) (s : State) : (run (sendPtp bs) s).dev = s.dev := by simp [sendPtp]

theorem setPtp_out (f : PtpSt → PtpSt) (s : State) : (run (setPtp f) s).out = s.out := rfl
theorem setPtp_ptp (f : PtpSt → PtpSt) (s : State) : (run (setPtp f) s).dev.ptp = f s.dev.ptp := rfl
theorem setPtp_get (f : PtpSt → PtpSt) (s : State) (g : Fld) : (run (setPtp f) s).get g = s.get g := rfl

/-- The port's state with the next sequence number of an Announce, a Sync or a Delay_Req. -/
def PtpSt.announced (p : PtpSt) (n : Nat) : PtpSt := { p with annSeq := n }
def PtpSt.synced (p : PtpSt) (n : Nat) : PtpSt := { p with syncSeq := n }
def PtpSt.asked (p : PtpSt) (n : Nat) (t : Int) : PtpSt := { p with delaySeq := n, t3 := some t }

theorem announced_spares (p : PtpSt) (n : Nat) : (p.announced n).syncSeq = p.syncSeq := rfl
theorem synced_spares (p : PtpSt) (n : Nat) : (p.synced n).annSeq = p.annSeq := rfl

/-- What a transmission sends, by its kind, and the number that it takes. -/
theorem exec_announce (s : State) (locked : s.on TPort.pcsLock = true) (master : 2 ≤ s.dev.ptp.role) (ready : s.get TPort.portState = 6) :
    ∃ bytes, exec (.ptpMessageTransmit 0) s
      = .next (run (setPtp fun p => p.announced ((p.annSeq + 1) % 65536)) (run (sendPtp bytes) s)) := by
  change ∃ bytes, execPtpMessageTransmit 0 s = _
  simp only [execPtpMessageTransmit, run_look', locked, master, ready, Bool.not_true, Bool.false_eq_true, if_false, Fin.val_zero, decide_true,
    Bool.and_self, run_when_true, if_true, run_block_cons, run_block_nil, show (0 : Nat) ≠ 2 by decide]
  exact ⟨_, rfl⟩

theorem exec_sync (s : State) (locked : s.on TPort.pcsLock = true) (master : 2 ≤ s.dev.ptp.role) (ready : s.get TPort.portState = 6) :
    ∃ sync followUp, exec (.ptpMessageTransmit 1) s = .next (run (setPtp fun p => p.synced ((p.syncSeq + 1) % 65536))
      (run (when (!s.dev.ptp.oneStep) (sendPtp followUp)) (run (sendPtp sync) s))) := by
  change ∃ sync followUp, execPtpMessageTransmit 1 s = _
  simp only [execPtpMessageTransmit, run_look', locked, master, ready, Bool.not_true, Bool.false_eq_true, if_false, Fin.val_one, decide_true,
    Bool.and_self, run_when_true, run_block_cons, run_block_nil, show (1 : Nat) ≠ 2 by decide, show (1 : Nat) ≠ 0 by decide]
  exact ⟨_, _, rfl⟩

theorem exec_request (s : State) (locked : s.on TPort.pcsLock = true) (asks : s.dev.ptp.role = 1 ∨ s.dev.ptp.peer = true) :
    ∃ bytes, exec (.ptpMessageTransmit 2) s
      = .next (run (setPtp fun p => p.asked ((p.delaySeq + 1) % 65536) s.now) (run (sendPtp bytes) s)) := by
  change ∃ bytes, execPtpMessageTransmit 2 s = _
  have asks : (decide (s.dev.ptp.role = 1) || s.dev.ptp.peer) = true := by simpa using asks
  simp only [execPtpMessageTransmit, run_look', locked, asks, Bool.not_true, Bool.false_eq_true, if_false, Fin.val_two, if_true,
    run_when_true, run_block_cons, run_block_nil]
  exact ⟨_, rfl⟩

/-- Settles O21. -/
theorem timePortSpeaksPtp : Obligations.TimePortSpeaksPtp := by
  unfold Obligations.TimePortSpeaksPtp
  refine ⟨?lock, ?loss, ?badFcs, ?other, ?sync, ?silent, ?announce, ?ownSync, ?request⟩
  case lock =>
    intro x s powered
    refine answers_next rfl ?_
    have kept {f : Fld} (h : f = TPort.pcsLock ∨ f = TPort.lineRate) (u : State) :
        (run (when (s.dev.ptp.role ≠ 0) (setPortState (if s.dev.ptp.role = 1 then 4 else 6))) u).get f = u.get f := by
      rw [run_when]; split
      · rcases h with rfl | rfl <;> exact setPortState_get _ _ (by decide) (by decide) (by decide) (by decide)
      · rfl
    simp only [run_look', powered, run_when_true, run_block_cons, run_block_nil]
    refine ⟨?_, ?_, fun slave => ?_, fun master => ?_⟩
    · rw [State.on, kept (.inl rfl), get_set_beside _ _ _ _ (by decide) (by decide) (by decide) (by decide), get_set_same _ _ _ (by decide)]
      rfl
    · rw [kept (.inr rfl), get_set_same _ _ _ (by decide)]
      cases x <;> rfl
    · rw [run_when, if_pos (by simp [slave]), setPortState_shows _ (by split <;> decide), if_pos slave]
    · rw [run_when, if_pos (by simp; omega), setPortState_shows _ (by split <;> decide), if_neg (by omega)]
  case loss =>
    intro s
    refine answers_next rfl ?_
    simp only [run_block_cons, run_block_nil]
    refine ⟨?_, get_set_same _ _ _ (by decide)⟩
    rw [State.on, get_set_beside _ _ _ _ (by decide) (by decide) (by decide) (by decide), get_set_same _ _ _ (by decide)]
    rfl
  case badFcs =>
    intro f time s locked
    refine answers_next rfl ?_
    simp only [run_look', locked, Bool.not_true, Bool.false_eq_true, if_false, Bool.not_false, if_true, run_block_cons, run_block_nil]
    rw [get_countDropped (by decide) (by decide) (by decide), get_bump_same _ _ (by decide)]
    exact ⟨rfl, by simp [countDropped]⟩
  case other =>
    intro f time s locked foreign
    refine answers_next rfl ?_
    simp only [run_look', locked, foreign, Bool.not_true, Bool.false_eq_true, if_false, run_block_cons, run_block_nil]
    rw [get_countDropped (by decide) (by decide) (by decide), get_bump_same _ _ (by decide)]
    exact ⟨rfl, by simp [countDropped]⟩
  case sync =>
    intro f b time s locked ours slave sync version domain parent twoStep
    refine answers_next rfl ?_
    have role (p : Prog) : run (when (s.dev.ptp.role ≠ 0 && leAt b 1 1 % 16 = 2 && leAt b 4 1 = s.dev.ptp.domain) p) = run p := by
      funext u; simp [run_when, slave, version, domain]
    have message (u : State) (h : u.dev.ptp = s.dev.ptp) : run (ptpMessage b time) u
        = run (setPtp fun p => { p with t2 := some (time : Int), correction := ptpCorr b, twoStepSeq := some (beVal (slice b 30 2)) }) u := by
      simp [ptpMessage, h, sync, slave, parent, twoStep]
    simp only [run_look', locked, ours, Bool.not_true, Bool.false_eq_true, if_false, run_block_cons, run_block_nil]
    rw [role, message _ (by simp), setPtp_get, setPtp_ptp, get_bump_same _ _ (by decide)]
    exact ⟨rfl, rfl, rfl⟩
  case silent =>
    intro s role
    refine answers_next rfl ?_
    simp only [run_look', role, if_false, run_block_cons, run_block_nil]
    by_cases slave : s.dev.ptp.role = 1
    · simp only [slave, if_true, run_block_cons, run_block_nil]
      refine ⟨?_, ?_, fun _ => setHoldover_shows true _⟩
      · rw [setHoldover_get _ _ (by decide) (by decide) (by decide), setPortState_shows _ (by decide)]
      · rw [setHoldover_get _ _ (by decide) (by decide) (by decide),
          setPortState_get _ _ (by decide) (by decide) (by decide) (by decide), setPtp_get,
          get_countCorrected (by decide) (by decide) (by decide), get_bump_same _ _ (by decide)]
        rfl
    · simp only [slave, if_false]
      refine ⟨setPortState_shows _ (by decide) _, ?_, fun h => absurd h id⟩
      rw [setPortState_get _ _ (by decide) (by decide) (by decide) (by decide),
        get_countCorrected (by decide) (by decide) (by decide), get_bump_same _ _ (by decide)]
      rfl
  case announce =>
    intro s locked master ready
    obtain ⟨bytes, sent⟩ := exec_announce s locked master ready
    refine answers_next sent ?_
    rw [setPtp_ptp, setPtp_out, sendPtp_out, sendPtp_dev]
    exact ⟨rfl, announced_spares .., bytes, rfl⟩
  case ownSync =>
    intro s locked master ready
    obtain ⟨sync, followUp, sent⟩ := exec_sync s locked master ready
    refine answers_next sent ?_
    rw [setPtp_ptp, setPtp_out, run_when]
    cases oneStep : s.dev.ptp.oneStep <;> simp only [Bool.not_true, Bool.not_false, Bool.false_eq_true, if_true, if_false, sendPtp_out, sendPtp_dev] <;>
      exact ⟨rfl, synced_spares .., rfl⟩
  case request =>
    intro s locked asks
    obtain ⟨bytes, sent⟩ := exec_request s locked asks
    refine answers_next sent ?_
    rw [setPtp_ptp, setPtp_out, sendPtp_out, sendPtp_dev]
    exact ⟨rfl, rfl, rfl⟩

end Sys2Proof.Machine
end


section
/-! A flag of the bridge lies in a word that telling writes, beside BME_DISCARD: telling leaves it alone all the same. -/

namespace Sys2Proof.Machine
open Reg

/-- The words of the bridge that hold its flags. -/
def BridgeFlags (a : Nat) : Prop := a = 0x01300004 ∨ a = 0x01310004

/-- A field that telling writes: of the bridge's flags BME_DISCARD alone. -/
def TellFld (f : Fld) : Prop := Told f.addr ∧ (f.width ≤ 32 ∨ Told (f.addr + 4) ∧ ¬ BridgeFlags (f.addr + 4)) ∧ (BridgeFlags f.addr → f.lo = 5 ∧ f.width = 1)

/-- What telling leaves alone of the host's interface: the functions as configured, their resets under way, training and replays. -/
def HostIf.settings (h : HostIf) : PciFn × PciFn × Bool × Bool × Nat × Nat × List (Nat × Nat × Nat) :=
  (h.pf0, h.pf1, h.flr0, h.flr1, h.fails0, h.fails1, h.replayed)

/-- A change of the device that telling makes beside those of quads. -/
def TellingHost (f : Dev → Dev) : Prop :=
  ∀ d, ∃ h n e l, h.settings = d.host.settings ∧ f d = { d with host := h, evN := n, evS := e, limits := l }

/-- A change of a quad that sending a packet makes: of its queue, its replay buffer, its sequence number and its credits. -/
def Sending (f : QuadSt → QuadSt) : Prop :=
  ∀ t, ∃ a b n c d e, f t = { t with sendQ := a, unacked := b, txSeq := n, credit1 := c, credit2 := d, credit3 := e }

theorem sending_queue (p : Packet) : Sending fun x => { x with sendQ := x.sendQ ++ [p] } := fun _ => ⟨_, _, _, _, _, _, rfl⟩

theorem sending_next (cls units : Nat) (p p' : Packet) : Sending fun x => { (x.spend cls units) with
    sendQ := x.sendQ.erase p, unacked := x.unacked ++ [⟨x.txSeq, p', 0⟩], txSeq := (x.txSeq + 1) % 0x100000000 } := by
  intro t
  unfold QuadSt.spend
  split
  · exact ⟨_, _, _, _, _, _, rfl⟩
  · split <;> exact ⟨_, _, _, _, _, _, rfl⟩

/-- A view of the state that telling leaves alone, by the fields that it writes. -/
structure Aside {β : Type} (g : State → β) : Prop where
  dev : ∀ (s : State) (f : Dev → Dev), TellingHost f → g ((Act.dev f).apply s) = g s
  quad : ∀ q f, Sending f → Keeps g (setQuad q f)
  emit : ∀ (s : State) (o : Out), g ((Act.emit o).apply s) = g s
  set : ∀ f v, TellFld f → Keeps g (set f v)

section
variable {β : Type} {g : State → β}

theorem Aside.bump (h : Aside g) {f : Fld} (t : TellFld f) : Keeps g (bump f) := fun s => h.set f _ t s

theorem Aside.setFlag (h : Aside g) {f : Fld} (t : TellFld f) (c : TellFld ⟨f.cnt, 0, 16, 0⟩) : Keeps g (setFlag f) :=
  keeps_cons (h.set f 1 t) (keeps_cons (h.bump c) keeps_nil)

theorem Aside.setHost (h : Aside g) {f : HostIf → HostIf} (same : ∀ x, (f x).settings = x.settings) : Keeps g (setHost f) :=
  fun s => h.dev s _ fun d => ⟨f d.host, d.evN, d.evS, d.limits, same d.host, rfl⟩

theorem Aside.setEvq (h : Aside g) (w : Bool) (f : EvQ → EvQ) : Keeps g (setEvq w f) := fun s => by
  cases w
  · exact h.dev s _ fun d => ⟨d.host, f d.evN, d.evS, d.limits, rfl, rfl⟩
  · exact h.dev s _ fun d => ⟨d.host, d.evN, f d.evS, d.limits, rfl, rfl⟩

theorem Aside.counter (h : Aside g) {nid i : Nat} (hn : nid < 0x140) (hi : i < 8) : Keeps g (Machine.bump (Node.counter nid none i)) :=
  h.bump ⟨(told_counter hn hi).1, .inr ⟨(told_counter hn hi).2, by simp only [BridgeFlags, Node.counter, nodeBase]; omega⟩, by
    simp only [BridgeFlags, Node.counter, nodeBase]; omega⟩

theorem Aside.drainFrom (h : Aside g) (ws : List HostWrite) : Keeps g (drainFrom ws) := by
  induction ws with
  | nil => exact h.setHost fun _ => rfl
  | cons w ws ih =>
    exact keeps_look' fun s => keeps_ite
      (keeps_cons (h.setHost fun _ => rfl) (keeps_cons (fun u => h.emit u _) (keeps_cons ih keeps_nil)))
      (h.setHost fun _ => rfl)

theorem Aside.enqueueWrite (h : Aside g) (w : HostWrite) : Keeps g (enqueueWrite w) :=
  keeps_cons (h.setHost fun _ => rfl) (keeps_cons (keeps_look fun _ => h.drainFrom _) keeps_nil)

theorem Aside.outDiscards (h : Aside g) {fn : Nat} (f : fn < 2) : Keeps g (Machine.bump (Bridge.outDiscards fn)) :=
  h.bump ⟨by simp only [Told, Bridge.outDiscards]; omega, .inl (by simp [Bridge.outDiscards]), by
    simp only [BridgeFlags, Bridge.outDiscards]; omega⟩

theorem Aside.bmeDiscard (h : Aside g) {fn : Nat} (f : fn < 2) : Keeps g (Machine.setFlag (Bridge.bmeDiscard fn)) :=
  h.setFlag ⟨by simp only [Told, Bridge.bmeDiscard]; omega, .inl (by simp [Bridge.bmeDiscard]), fun _ => ⟨rfl, rfl⟩⟩
    ⟨by simp only [Told, Bridge.bmeDiscard]; omega, .inl (by simp), by simp only [BridgeFlags, Bridge.bmeDiscard]; omega⟩

theorem Aside.sendMsix (h : Aside g) {fn v : Nat} (f : fn < 2) (hv : v < 128) : Keeps g (sendMsix fn v) := by
  have pend : ∀ x, Keeps g (Machine.set ⟨hostKey fn (0x3800 + 4 * (v / 32)), v % 32, 1, 0⟩ x) := fun x =>
    h.set _ x ⟨by simp only [Told, hostKey]; omega, .inl (by simp), by simp only [BridgeFlags, hostKey]; omega⟩
  exact keeps_look' fun _ => keeps_ite keeps_skip (keeps_ite (pend 1) (keeps_ite
    (keeps_cons (h.outDiscards f) (keeps_cons (h.bmeDiscard f) (keeps_cons (h.counter (by decide) (by decide)) keeps_nil)))
    (keeps_cons (pend 0) (keeps_cons (h.enqueueWrite _) keeps_nil))))

theorem Aside.hostWrite (h : Aside g) (w : HostWrite) (f : w.fn < 2) : Keeps g (hostWrite w) :=
  keeps_look' fun _ => keeps_ite (h.enqueueWrite _)
    (keeps_cons (h.outDiscards f) (keeps_cons (keeps_cons (h.bmeDiscard f) (keeps_cons (h.sendMsix f (by decide)) keeps_nil))
      (keeps_cons (h.counter (by decide) (by decide)) (keeps_cons (h.setHost fun _ => by split <;> rfl) keeps_nil))))

theorem Aside.writeEvent (h : Aside g) (w : Bool) (r : List Byte) (l : Bool) : Keeps g (writeEvent w r l) := by
  have index (v : Nat) : Keeps g (Machine.set (Ring.devIndex (evSlot w)) v) := h.set _ v ⟨told_devIndex w, .inl (by simp [Ring.devIndex]), by
    cases w <;> simp [BridgeFlags, Ring.devIndex, evSlot]⟩
  exact keeps_look' fun s => keeps_cons (h.hostWrite _ (ringFn_lt s _))
    (keeps_cons (keeps_look' fun _ => index _) (keeps_cons (h.setEvq _ _) keeps_nil))

theorem Aside.drainEventsFrom (h : Aside g) (w : Bool) (rs : List (List Byte)) : Keeps g (drainEventsFrom w rs) := by
  induction rs with
  | nil => exact h.setEvq _ _
  | cons r rs ih =>
    exact keeps_look' fun s => keeps_ite (keeps_cons (h.writeEvent _ _ _) (keeps_cons ih keeps_nil)) (h.setEvq _ _)

theorem Aside.drainEvents (h : Aside g) (w : Bool) : Keeps g (drainEvents w) :=
  keeps_cons (keeps_look fun _ => h.drainEventsFrom _ _) (keeps_cons (keeps_look fun _ => keeps_ite
    (keeps_cons (h.counter (by decide) (by decide)) (keeps_cons (h.writeEvent _ _ _) (keeps_cons (h.setEvq _ _) keeps_nil))) keeps_skip) keeps_nil)

theorem Aside.postEvent (h : Aside g) (w : Bool) (r : List Byte) : Keeps g (postEvent w r) :=
  have drop : Keeps g (dropEvent w) := keeps_cons (h.counter (by decide) (by decide)) (keeps_cons (h.setEvq _ _) keeps_nil)
  keeps_look' fun _ => keeps_ite keeps_skip (keeps_ite drop (keeps_ite drop (keeps_ite
    (keeps_cons (h.counter (by decide) (by decide)) (keeps_cons (h.setEvq _ _) (keeps_cons (h.drainEvents _) keeps_nil)))
    (keeps_cons (h.setEvq _ _) (keeps_cons (h.drainEvents _) keeps_nil)))))

theorem Aside.pumpFrom (h : Aside g) {q : Nat} (hq : q < 4) (n : Nat) : Keeps g (pumpFrom q n) := by
  have count : Keeps g (Machine.bump (Quad.txPackets q)) := h.bump ⟨by simp only [Told, Quad.txPackets]; omega, .inl (by simp [Quad.txPackets]), by
    simp only [BridgeFlags, Quad.txPackets]; omega⟩
  induction n with
  | zero => exact keeps_skip
  | succ n ih =>
    refine keeps_look' fun s => keeps_ite keeps_skip ?_
    split
    · exact keeps_skip
    · exact keeps_cons (h.quad _ _ (sending_next _ _ _ _)) (keeps_cons count (keeps_cons (fun u => h.emit u _) (keeps_cons ih keeps_nil)))

theorem Aside.sendPacket (h : Aside g) {q : Nat} (hq : q < 4) (p : Packet) : Keeps g (sendPacket q p) :=
  keeps_cons (h.quad _ _ (sending_queue p)) (keeps_cons (keeps_look fun _ => h.pumpFrom hq _) keeps_nil)

theorem Aside.raiseIn (h : Aside g) (w : Bool) (c k n : Nat) (d : List Byte) (st : Nat) : Keeps g (raiseIn w c k n d st) := by
  refine keeps_look' fun s => keeps_cons ?_ (keeps_cons ?_ keeps_nil)
  · cases e : localNid n
    · exact keeps_skip
    · exact h.counter (localNid_lt e) (by decide)
  · cases e : (if s.on BootReg.role then s.upstream else none) with
    | none => exact h.postEvent _ _
    | some q =>
      refine h.sendPacket ?_ _
      split at e
      · exact upstream_lt e
      · cases e

theorem Aside.raise (h : Aside g) (c k n : Nat) (d : List Byte) : Keeps g (raise c k n d) := keeps_look' fun _ => h.raiseIn _ _ _ _ _ _

end

/-- A view that the journal does not touch either. -/
def Unlisted {β : Type} (g : State → β) : Prop := ∀ (s : State) (l : List Cmd), g { s with dev := { s.dev with journal := l } } = g s

section
variable {β : Type} {g : State → β}

theorem Aside.completeCmd (h : Aside g) (j : Unlisted g) (e : Cmd) (st : Nat) : Keeps g (completeCmd e st) := by
  have list (f : List Cmd → List Cmd) : Keeps g (setJournal f) := fun s => j s _
  exact keeps_look fun _ => keeps_ite (list _)
    (keeps_cons (keeps_look' fun _ => h.raiseIn _ _ _ _ _ _) (keeps_cons (list _) keeps_nil))

theorem Aside.finish (h : Aside g) (j : Unlisted g) {cls code node st : Nat} {k : Cmd → Prog} (hk : ∀ e, Keeps g (k e)) :
    Keeps g (finish cls code node k st) := by
  refine keeps_look' fun s => ?_
  split
  · refine keeps_cons (hk _) (keeps_cons (keeps_look fun s => ?_) keeps_nil)
    split
    · exact h.completeCmd j _ _
    · exact keeps_skip
  · exact keeps_skip

theorem Aside.finishKey (h : Aside g) (j : Unlisted g) {cls code key v st : Nat} {k : Cmd → Prog} (hk : ∀ e, Keeps g (k e)) :
    Keeps g (finishKey cls code key v k st) := by
  refine keeps_look' fun s => ?_
  split
  · refine keeps_cons (hk _) (keeps_cons (keeps_look fun s => ?_) keeps_nil)
    split
    · exact h.completeCmd j _ _
    · exact keeps_skip
  · exact keeps_skip

end

/-- What telling leaves alone by its words, it leaves alone by its fields. -/
theorem aside_untold {β : Type} {g : State → β} (h : Untold g) : Aside g where
  dev s f tells := by
    obtain ⟨host, n, e, l, -, same⟩ := tells s.dev
    exact (congrArg (fun d => g { s with dev := d }) same).trans (h.1 s host n e s.dev.quads l)
  quad q f _ := untold_setQuad h q f
  emit := h.2.1
  set _ v told := untold_set h v told.1 (told.2.1.imp_right And.left)

/-- A flag of the bridge other than BME_DISCARD. -/
theorem aside_flag {f : Fld} (w : f.Whole) (n : f.width ≤ 32) (here : BridgeFlags f.addr) (beside : f.lo + f.width ≤ 5 ∨ 6 ≤ f.lo) :
    Aside (fun s => s.get f) where
  dev _ _ _ := rfl
  quad _ _ _ _ := rfl
  emit _ _ := rfl
  set t v told s := by
    obtain ⟨-, second, only⟩ := told
    show (run (Machine.set t v) s).get f = s.get f
    have apart : f.addr ≠ t.addr ∨ f.lo + f.width ≤ t.lo ∨ t.lo + t.width ≤ f.lo := by
      by_cases same : f.addr = t.addr
      · obtain ⟨lo, width⟩ := only (same ▸ here); omega
      · exact .inl same
    by_cases narrow : t.width ≤ 32
    · exact get_set_apart narrow w apart
    · obtain ⟨-, high⟩ := second.resolve_left narrow
      refine get_set_other _ _ _ _ n (fun same => ?_) (.inr fun same => high (same ▸ here))
      exact absurd (only (same ▸ here)).2 (by omega)

/-- A part of a quad that sending a packet leaves alone. -/
theorem aside_quad {β : Type} (q : Nat) {v : QuadSt → β} (h : ∀ f, Sending f → ∀ t, v (f t) = v t) : Aside (fun s => v (s.quad q)) where
  dev s f tells := by
    obtain ⟨_, _, _, _, -, same⟩ := tells s.dev
    show v (Tbl.get QuadSt.reset (f s.dev).quads q) = _
    rw [same]; rfl
  quad p f sends s := by
    show v (Tbl.get QuadSt.reset (Tbl.set QuadSt.reset s.dev.quads p (f (s.quad p))) q) = _
    by_cases here : q = p
    · subst here; rw [Tbl.get_set_same]; exact h f sends _
    · rw [Tbl.get_set_other _ _ _ _ here]; rfl
  emit _ _ := rfl
  set f u _ s := by
    show v ((run (Machine.set f u) s).quad q) = _
    rw [State.quad, set_dev]; rfl

/-- What telling leaves alone of the host's interface. -/
theorem aside_settings {β : Type} {v : HostIf → β} (h : ∀ x y : HostIf, x.settings = y.settings → v x = v y) : Aside (fun s => v s.dev.host) where
  dev s f tells := by
    obtain ⟨_, _, _, _, settings, same⟩ := tells s.dev
    show v (f s.dev).host = _
    rw [same]
    exact h _ _ settings
  quad _ _ _ _ := rfl
  emit _ _ := rfl
  set f u _ s := by
    show v (run (Machine.set f u) s).dev.host = _
    rw [set_dev]

end Sys2Proof.Machine
end


section
/-! Who belongs to a group, and what a remote access or a test leaves when its wait is over (R470, R475, R476). -/

namespace Sys2Proof.Machine
open Reg

/-! A pending command that is done leaves the journal. -/

theorem completeCmd_drops (e : Cmd) (st : Nat) (s : State) (h : s.awaited e.seq = false) :
    ∀ x ∈ (run (completeCmd e st) s).dev.journal, x.seq ≠ e.seq := by
  have gone : (run (completeCmd e st) s).dev.journal = s.dev.journal.filter fun x => decide (x.seq ≠ e.seq) := by
    simp [completeCmd, h, raiseCompleted, dropCmd, setJournal]
  rw [gone]
  simp

/-- The end of a completion: the command that is still in the journal under its number is completed. -/
def completion (seq st : Nat) : Prog := look fun s =>
  match s.dev.journal.find? fun x => x.seq = seq with
  | some e => completeCmd e st
  | none => .skip

theorem completion_drops (seq st : Nat) (s : State) (h : s.awaited seq = false) :
    ∀ x ∈ (run (completion seq st) s).dev.journal, x.seq ≠ seq := by
  rw [completion, run_look']
  split
  case h_1 e found =>
    have same : e.seq = seq := by simpa using List.find?_some found
    exact same ▸ completeCmd_drops e st s (same ▸ h)
  case h_2 none_left => simpa using none_left

theorem run_finish {cls code node st : Nat} {k : Cmd → Prog} {e : Cmd} {s : State} (p : s.pendingCmd cls code node = some e) :
    run (finish cls code node k st) s = run (completion e.seq st) (run (k e) s) := by
  rw [finish, run_look, p]
  exact (run_block_cons ..).trans (run_block_cons ..)

theorem finish_drops {cls code node st : Nat} {k : Cmd → Prog} {e : Cmd} {s : State} (p : s.pendingCmd cls code node = some e)
    (h : (run (k e) s).awaited e.seq = false) : ∀ x ∈ (run (finish cls code node k st) s).dev.journal, x.seq ≠ e.seq := by
  rw [run_finish p]
  exact completion_drops e.seq st _ h

theorem run_finishKey {cls code key v st : Nat} {k : Cmd → Prog} {e : Cmd} {s : State}
    (p : s.dev.journal.find? (fun e => e.cls = cls && e.code = code && e.phase = .pending && e.val key = v) = some e) :
    run (finishKey cls code key v k st) s = run (completion e.seq st) (run (k e) s) := by
  rw [finishKey, run_look, p]
  exact (run_block_cons ..).trans (run_block_cons ..)

theorem finishKey_drops {cls code key v st : Nat} {k : Cmd → Prog} {e : Cmd} {s : State}
    (p : s.dev.journal.find? (fun e => e.cls = cls && e.code = code && e.phase = .pending && e.val key = v) = some e)
    (h : (run (k e) s).awaited e.seq = false) : ∀ x ∈ (run (finishKey cls code key v k st) s).dev.journal, x.seq ≠ e.seq := by
  rw [run_finishKey p]
  exact completion_drops e.seq st _ h

theorem Foot.Completes.completion {F : Foot} (h : F.Completes) (seq st : Nat) : (completion seq st).Within F := by
  intro s
  dsimp only
  split
  · exact h.completeCmd _ _
  · trivial

theorem waits_completes : (sparingDev Dev.ctlWaits).Completes := sparingDev_completes (fun _ _ _ _ _ _ => rfl) fun _ _ => rfl

/-- Nobody is awaited anew where the waits for members are left alone. -/
theorem Prog.Within.awaited {p : Prog} (h : p.Within (sparingDev Dev.ctlWaits)) (s : State) (seq : Nat) :
    (run p s).awaited seq = s.awaited seq := by
  rw [State.awaited, h.sparedDev]; rfl

/-! Control messages to a member. -/

/-- Nothing that a control message leaves alone has changed: the group, and every field that telling does not write. -/
def SameGroup (s t : State) : Prop :=
  t.dev.group = s.dev.group ∧ t.dev.ownIndex = s.dev.ownIndex ∧ ∀ f : Fld, ¬ Told f.addr → f.width ≤ 32 → t.get f = s.get f

theorem SameGroup.trans {a b c : State} (h : SameGroup a b) (k : SameGroup b c) : SameGroup a c :=
  ⟨k.1.trans h.1, k.2.1.trans h.2.1, fun f t w => (k.2.2 f t w).trans (h.2.2 f t w)⟩

theorem quadTo_go_congr {s t : State} {up : Nat → Option (Nat × Nat)} (own : t.dev.ownIndex = s.dev.ownIndex) (n x : Nat) :
    State.quadTo.go t up n x = State.quadTo.go s up n x := by
  induction n generalizing x with
  | zero => rfl
  | succ n ih => simp only [State.quadTo.go, own, ih]

/-- The way to a member is told by the parents and the quads of the group. -/
theorem quadTo_congr {s t : State} (own : t.dev.ownIndex = s.dev.ownIndex)
    (group : ∀ x, (t.dev.group.find? fun m => m.index = x).map (fun m => (m.parent, m.quad))
      = (s.dev.group.find? fun m => m.index = x).map fun m => (m.parent, m.quad)) (d : Nat) : t.quadTo d = s.quadTo d := by
  simp only [State.quadTo, quadTo_go_congr own, funext group]

theorem SameGroup.quadTo {s t : State} (h : SameGroup s t) (d : Nat) : t.quadTo d = s.quadTo d :=
  quadTo_congr h.2.1 (fun x => by rw [h.1]) d

/-- The footprint of a control message. -/
def groupFoot : Foot where
  reg a := Told a
  byte _ := False
  dev f := ∀ d, (f d).group = d.group ∧ (f d).ownIndex = d.ownIndex

theorem groupFoot_tells : groupFoot.Tells := ⟨fun _ => id, fun f tells d => by obtain ⟨_, _, _, _, _, e⟩ := tells d; simp [e], trivial⟩

theorem Prog.Within.sameGroup {p : Prog} (h : p.Within groupFoot) (s : State) : SameGroup s (run p s) :=
  ⟨h.dev (g := Dev.group) (fun _ d hf => (hf d).1) s, h.dev (g := Dev.ownIndex) (fun _ d hf => (hf d).2) s,
    fun _ told narrow => h.get told (.inl narrow) s⟩

theorem sendCtrl_same {d q : Nat} {s : State} (way : s.quadTo d = some q) (hq : q < 4) (auth : Bool) (use : CtlFor) (bs : List Byte) :
    SameGroup s (run (sendCtrl d auth use bs) s) := by
  have shape : run (sendCtrl d auth use bs) s = run (sendPacket q ⟨5, 3, boolNat auth, s.dev.ownIndex, d, s.dev.ctlTag, bs⟩)
      (run (dev fun x => { x with ctlTag := (x.ctlTag + 1) % 0x100000000, ctlWaits := x.ctlWaits ++ [⟨x.ctlTag, d, use⟩] }) s) := by
    rw [sendCtrl, run_look', way]
    exact (run_block_cons ..).trans (run_block_cons ..)
  rw [shape]
  refine SameGroup.trans ⟨rfl, rfl, fun _ _ _ => rfl⟩ (Prog.Within.sameGroup (groupFoot_tells.sendPacket hq _) _)

/-- Control messages to a member, one after another. -/
theorem forEach_same {α : Type} {d q : Nat} {f : α → Prog}
    (one : ∀ x s, s.quadTo d = some q → SameGroup s (run (f x) s)) (xs : List α) (s : State) (way : s.quadTo d = some q) :
    SameGroup s (run (forEach xs f) s) := by
  induction xs generalizing s with
  | nil => exact ⟨rfl, rfl, fun _ _ _ => rfl⟩
  | cons x xs ih =>
    rw [run_forEach_cons]
    exact (one x s way).trans (ih _ (((one x s way).quadTo d).trans way))

/-- A change of members that keeps their places. -/
theorem setMember_quadTo {d : Nat} {f : Member → Member} (place : ∀ m, (f m).index = m.index ∧ (f m).parent = m.parent ∧ (f m).quad = m.quad)
    (s : State) (x : Nat) : (run (setMember d f) s).quadTo x = s.quadTo x := by
  refine quadTo_congr (s := s) (t := run (setMember d f) s) rfl (fun y => ?_) x
  have kept (m : Member) : (if m.index = d then f m else m).index = m.index ∧ (if m.index = d then f m else m).parent = m.parent
      ∧ (if m.index = d then f m else m).quad = m.quad := by
    split
    · exact place m
    · exact ⟨rfl, rfl, rfl⟩
  show ((s.dev.group.map fun m => if m.index = d then f m else m).find? _).map _ = _
  rw [List.find?_map, Option.map_map]
  simp only [Function.comp_def, kept]

/-- Every member of an index has joined. -/
def AllJoined (d : Nat) (s : State) : Prop := ∀ x ∈ s.dev.group, x.index = d → x.joined = true

theorem setMember_group (d : Nat) (f : Member → Member) (s : State) :
    (run (setMember d f) s).dev.group = s.dev.group.map fun m => if m.index = d then f m else m := rfl

theorem setJoin_joined (e i j d : Nat) (s : State) (h : AllJoined d s) : AllJoined d (run (setJoin e i j) s) := by
  intro x m at_
  rw [setJoin, setMember_group, List.mem_map] at m
  obtain ⟨y, my, rfl⟩ := m
  by_cases here : y.index = e <;> simp only [here, if_true, if_false] at at_ ⊢
  · exact h y my (by simpa [here] using at_)
  · exact h y my at_

theorem setMember_joined (d : Nat) (s : State) : AllJoined d (run (setMember d fun m => { m with joined := true }) s) := by
  intro x m at_
  rw [setMember_group, List.mem_map] at m
  obtain ⟨y, -, rfl⟩ := m
  by_cases here : y.index = d
  · simp [here]
  · simp [here] at at_

/-- What joins of a member leave: where it is, and every register. -/
theorem setJoins_spare {α : Type} (d : Nat) (i j : α → Nat) (xs : List α) (s : State) (h : AllJoined d s) :
    let t := run (forEach xs fun x => setJoin d (i x) (j x)) s
    AllJoined d t ∧ (∀ x, t.quadTo x = s.quadTo x) ∧ ∀ f, t.get f = s.get f := by
  induction xs generalizing s with
  | nil => exact ⟨h, fun _ => rfl, fun _ => rfl⟩
  | cons x xs ih =>
    obtain ⟨joined, way, kept⟩ := ih (run (setJoin d (i x) (j x)) s) (setJoin_joined d (i x) (j x) d s h)
    refine ⟨joined, fun y => (way y).trans ?_, fun f => (kept f).trans rfl⟩
    exact setMember_quadTo (f := fun m => { m with joinAt := Tbl.set 0 m.joinAt (i x) (j x) }) (fun m => ⟨rfl, rfl, rfl⟩) s y

theorem joined_whole : ∀ q : Fin 4, (Quad.joined q).Whole ∧ (⟨(Quad.joined q).cnt, 0, 16, 0⟩ : Fld).Whole ∧ ¬ Told (Quad.joined q).addr
    ∧ ¬ Told (Quad.joined q).cnt := by decide

/-- A member completes its join: it has joined, its streams have their join indices, its quad shows it, and it is told. -/
def joinEnds (d q : Nat) (is : List Nat) (j : Nat → Nat) (bs : List Byte) : Prog := block [
  setMember d fun m => { m with joined := true }, forEach is fun i => setJoin d i (j i), setFlag (Quad.joined q),
  tellMember d ctlJoin (leBytes 4 d), raise 0x0C 5 1 bs]

theorem joinEnds_joins {d q : Nat} (hq : q < 4) (is : List Nat) (j : Nat → Nat) (bs : List Byte) (s : State) (way : s.quadTo d = some q) :
    let t := run (joinEnds d q is j bs) s
    AllJoined d t ∧ t.on (Quad.joined q) = true
      ∧ t.get ⟨(Quad.joined q).cnt, 0, 16, 0⟩ = satNat (s.get ⟨(Quad.joined q).cnt, 0, 16, 0⟩ + 1) 0xFFFF := by
  obtain ⟨joined, placed, kept⟩ := setJoins_spare d id j is _ (setMember_joined d s)
  have shape : run (joinEnds d q is j bs) s = run (raise 0x0C 5 1 bs) (run (sendCtrl d false .note (leBytes 4 ctlJoin ++ leBytes 4 d))
      (run (setFlag (Quad.joined q)) (run (forEach is fun i => setJoin d (id i) (j i)) (run (setMember d fun m => { m with joined := true }) s)))) := by
    simp [joinEnds, tellMember]
  set u := run (forEach is fun i => setJoin d (id i) (j i)) (run (setMember d fun m => { m with joined := true }) s)
  have flagged : (run (setFlag (Quad.joined q)) u).quadTo d = some q := calc
    _ = u.quadTo d := quadTo_congr (by simp [setFlag]) (fun x => by simp [setFlag]) d
    _ = _ := placed d
    _ = s.quadTo d := setMember_quadTo (f := fun m => { m with joined := true }) (fun m => ⟨rfl, rfl, rfl⟩) s d
    _ = some q := way
  have last := sendCtrl_same flagged hq false .note (leBytes 4 ctlJoin ++ leBytes 4 d)
  obtain ⟨wj, wc, nj, nc⟩ := joined_whole ⟨q, hq⟩
  intro t
  rw [show t = _ from shape]
  refine ⟨?_, ?_, ?_⟩
  · rw [AllJoined, raise_group, last.1]
    simpa [setFlag] using show ∀ x ∈ u.dev.group, x.index = d → x.joined = true from joined
  · rw [State.on, raise_get _ _ _ _ _ nj (.inl (by simp [Quad.joined])), last.2.2 _ nj (by simp [Quad.joined]), get_setFlag_same wj (by simp [Quad.joined])]
    rfl
  · rw [raise_get _ _ _ _ _ nc (.inl (by simp)), last.2.2 _ nc (by simp), setFlag, run_block_cons, run_block_cons, run_block_nil,
      get_bump_same _ _ wc, get_set_apart (by simp [Quad.joined]) wc (by simp [Quad.joined]), kept]
    rfl

/-! Posted faults of the bridge (R122). -/

theorem postedFault_whole : ∀ fn : Fin 2, (Bridge.postedFault fn).Whole ∧ (Bridge.cause fn).Whole ∧ BridgeFlags (Bridge.postedFault fn).addr
    ∧ ¬ Told (Bridge.cause fn).addr := by unfold BridgeFlags; decide

/-- What is left to do when a posted fault is flagged. -/
def faultTold (fn : Nat) (bs : List Byte) : Prog := block [countDropped 1, raiseIn (fn = 1) 1 0x20 1 bs, sendMsix fn 0]

theorem faultTold_keeps {β : Type} {g : State → β} (h : Aside g) {fn : Nat} (hf : fn < 2) (bs : List Byte) : Keeps g (faultTold fn bs) :=
  keeps_cons (h.counter (by decide) (by decide)) (keeps_cons (h.raiseIn _ _ _ _ _ _) (keeps_cons (h.sendMsix hf (by decide)) keeps_nil))

/-- What a first posted fault notes. -/
def noteFault (fn a cause world bar len : Nat) : Prog := block [
  set (Bridge.faultAddrLo fn) a, set (Bridge.faultAddrHi fn) (a / 0x100000000), set (Bridge.cause fn) cause, set (Bridge.world fn) world,
  set (Bridge.bar fn) bar, set (Bridge.length fn) len]

theorem noteFault_cause (fn : Fin 2) (a cause world bar len : Nat) (hc : cause < 8) (s : State) :
    (run (noteFault fn a cause world bar len) s).get (Bridge.cause fn) = cause := by
  obtain ⟨-, whole, -, -⟩ := postedFault_whole fn
  simp only [noteFault, run_block_cons, run_block_nil]
  simp (disch := first | assumption | (refine id ?_; dsimp only [Bridge.cause, Bridge.world, Bridge.bar, Bridge.length]; omega) | fail) only
    [get_set_apart, get_set_same]
  exact Nat.mod_eq_of_lt hc

theorem run_postedFault (fn : Nat) (bar : Sys2Proof.Bar) (addr : Option Nat) (off cause len : Nat) (s : State) :
    ∃ a b bs, run (postedFault fn bar addr off cause len) s = run (faultTold fn bs) (run (setFlag (Bridge.postedFault fn))
      (run (when (!s.on (Bridge.postedFault fn)) (noteFault fn a cause fn b len)) s)) := by
  unfold postedFault
  rw [run_look, run_block_cons, run_block_cons]
  exact ⟨_, _, _, rfl⟩

theorem postedFault_shows (fn : Nat) (hf : fn < 2) (bar : Sys2Proof.Bar) (addr : Option Nat) (off cause len : Nat) (hc : cause < 8) (s : State) :
    let t := run (postedFault fn bar addr off cause len) s
    t.dev.ctlWaits = s.dev.ctlWaits ∧ t.on (Bridge.postedFault fn) = true ∧ (s.on (Bridge.postedFault fn) = false → t.get (Bridge.cause fn) = cause) := by
  obtain ⟨wf, wc, flags, quiet⟩ := postedFault_whole ⟨fn, hf⟩
  obtain ⟨a, b, bs, shape⟩ := run_postedFault fn bar addr off cause len s
  intro t
  rw [show t = _ from shape]
  refine ⟨?_, ?_, fun first => ?_⟩
  · rw [(faultTold_keeps (aside_untold (untold_dev (g := Dev.ctlWaits) fun _ _ _ _ _ _ => rfl)) hf bs).dev, run_when]
    split <;> simp [setFlag, noteFault]
  · rw [State.on, (faultTold_keeps (aside_flag wf (by simp [Bridge.postedFault]) flags (.inl (by simp [Bridge.postedFault]))) hf bs).get,
      get_setFlag_same wf (by simp [Bridge.postedFault])]
    rfl
  · rw [(faultTold_keeps (aside_untold (untold_get quiet (.inl (by simp [Bridge.cause])))) hf bs).get,
      get_setFlag_apart (by simp [Bridge.postedFault]) wc (by simp [Bridge.postedFault, Bridge.cause]) (by simp [Bridge.postedFault, Bridge.cause]),
      first, Bool.not_false, run_when_true]
    exact noteFault_cause ⟨fn, hf⟩ a cause fn b len hc s

/-! PRBS tests (R476). -/

/-- A lane stops its test with what its checker counted. -/
def laneDone (q l : Nat) (x : Bool × Nat × Nat) : Prog := block [
  set (Lane.gen q l) 0, set (Lane.chk q l) 0, set (Lane.chkSync q l) (boolNat x.1),
  set (Lane.prbsBitsLo q l) (satNat x.2.1 (2 ^ 48 - 1)), set (Lane.prbsBitsHi q l) (satNat x.2.1 (2 ^ 48 - 1) / 0x100000000),
  set (Lane.prbsErr q l) (satNat x.2.2 0xFFFFFFFF)]

theorem lane_whole : ∀ q l : Fin 4, (Lane.gen q l).Whole ∧ (Lane.chkSync q l).Whole ∧ (Lane.prbsErr q l).Whole := by decide

/-- A lane has stopped its test. -/
def Stopped (q l : Nat) (x : Bool × Nat × Nat) (s : State) : Prop :=
  s.on (Lane.gen q l) = false ∧ s.on (Lane.chkSync q l) = x.1 ∧ s.get (Lane.prbsErr q l) = satNat x.2.2 0xFFFFFFFF

theorem laneDone_stops (q l : Fin 4) (x : Bool × Nat × Nat) (s : State) : Stopped q l x (run (laneDone q l x) s) := by
  obtain ⟨wg, wc, we⟩ := lane_whole q l
  simp only [Stopped, laneDone, run_block_cons, run_block_nil, State.on]
  simp (disch := first | assumption | (refine id ?_; dsimp only [Lane.gen, Lane.chk, Lane.chkSync, Lane.prbsBitsLo, Lane.prbsBitsHi, Lane.prbsErr]; omega) | fail) only
    [get_set_apart, get_set_same]
  refine ⟨rfl, ?_, Nat.mod_eq_of_lt (lt_of_le_of_lt (satNat_le _ _) (by simp [Lane.prbsErr]))⟩
  cases x.1 <;> rfl

theorem laneDone_spares (q l k : Fin 4) (hk : k ≠ l) (x : Bool × Nat × Nat) {f : Fld} (narrow : f.width ≤ 32)
    (here : f.addr = 0x01401000 + 0x40000 * q + 0x100 * k + 0x10 ∨ f.addr = 0x01401000 + 0x40000 * q + 0x100 * k + 0x1c) (s : State) :
    (run (laneDone q l x) s).get f = s.get f := by
  refine Prog.Within.spared ?_ s
  have : k.val ≠ l.val := fun e => hk (Fin.ext e)
  simp [laneDone, Lane.gen, Lane.chk, Lane.chkSync, Lane.prbsBitsLo, Lane.prbsBitsHi, Lane.prbsErr]
  omega

theorem laneDone_keeps (q l k : Fin 4) (hk : k ≠ l) (x y : Bool × Nat × Nat) (s : State) (h : Stopped q k y s) :
    Stopped q k y (run (laneDone q l x) s) := by
  obtain ⟨gen, sync, err⟩ := h
  refine ⟨?_, ?_, ?_⟩
  · rw [State.on, laneDone_spares q l k hk x (by simp [Lane.gen]) (.inl rfl)]; exact gen
  · rw [State.on, laneDone_spares q l k hk x (by simp [Lane.chkSync]) (.inl rfl)]; exact sync
  · rw [laneDone_spares q l k hk x (by simp [Lane.prbsErr]) (.inr rfl)]; exact err

/-- Lanes that stop one after another have all stopped. -/
theorem lanes_stop (q k : Fin 4) (at_ : Nat → Bool × Nat × Nat) (ls : List Nat) (small : ∀ l ∈ ls, l < 4) (s : State)
    (h : k.val ∈ ls ∨ Stopped q k (at_ k) s) : Stopped q k (at_ k) (run (forEach ls fun l => laneDone q l (at_ l)) s) := by
  induction ls generalizing s with
  | nil => simpa using h
  | cons l ls ih =>
    rw [run_forEach_cons]
    refine ih (fun x m => small x (by simp [m])) _ ?_
    by_cases here : k.val = l
    · exact .inr (here ▸ laneDone_stops q k (at_ k) s)
    · have lane : k ≠ ⟨l, small l (by simp)⟩ := fun e => here (congrArg Fin.val e)
      refine h.imp (fun m => (List.mem_cons.mp m).resolve_left here) (laneDone_keeps q ⟨l, small l (by simp)⟩ k lane _ _ s)

theorem lane_quiet : ∀ q l : Fin 4, ¬ Told (Lane.gen q l).addr ∧ ¬ Told (Lane.prbsErr q l).addr := by decide

/-- What is left to do when the lanes of a test have stopped: the event and the completion of PRBS_TEST. -/
def prbsEnded (q : Nat) (bs : List Byte) (more : State → List Byte) : Prog := block [
  look fun s => raise 0x0C 0xA 1 (bs ++ more s), finishKey 0xC 5 1 q (fun _ => .skip) 0]

theorem prbsEnded_spares (q l : Fin 4) (bs : List Byte) (more : State → List Byte) (s : State) :
    ((run (prbsEnded q bs more) s).quad q).prbsMask = (s.quad q).prbsMask
      ∧ ∀ x, Stopped q l x (run (prbsEnded q bs more) s) ↔ Stopped q l x s := by
  have view {β : Type} {g : State → β} (h : Aside g) (j : Unlisted g) : (g (run (prbsEnded q bs more) s)) = g s :=
    keeps_cons (keeps_look fun _ => h.raise _ _ _ _) (keeps_cons (h.finishKey j fun _ => keeps_skip) keeps_nil) s
  have field (f : Fld) (quiet : ¬ Told f.addr) (narrow : f.width ≤ 32) : (run (prbsEnded q bs more) s).get f = s.get f :=
    view (g := fun s => s.get f) (aside_untold (untold_get quiet (.inl narrow))) fun _ _ => rfl
  obtain ⟨quietGen, quietErr⟩ := lane_quiet q l
  refine ⟨view (aside_quad (v := QuadSt.prbsMask) q fun f sends t => ?_) fun _ _ => rfl, fun x => ?_⟩
  · obtain ⟨_, _, _, _, _, _, same⟩ := sends t
    rw [same]
  · rw [Stopped, State.on, State.on, field (Lane.gen q l) quietGen (by simp [Lane.gen]), field (Lane.chkSync q l) quietGen (by simp [Lane.chkSync]),
      field (Lane.prbsErr q l) quietErr (by simp [Lane.prbsErr])]
    rfl

/-- Settles O30. -/
theorem cascadeTreeWaits : Obligations.CascadeTreeWaits := by
  unfold Obligations.CascadeTreeWaits
  refine ⟨?join, ?timeout, ?prbs⟩
  case join =>
    intro d differ lost m q s root hq found way up locked fresh space
    refine answers_next rfl ?_
    simp only [run_look', found, way, root, up, locked, fresh, space, Bool.not_false, Bool.true_or, Bool.and_self, run_when_true, Bool.false_eq_true,
      if_false]
    rw [run_block_cons]
    set is := s.streamsUnder d.val
    set told := run (when true _) s with toldIs
    rw [run_block_cons (p := block _) (ps := []), run_block_nil]
    have same : SameGroup s told := by
      rw [toldIs, run_when_true, run_block_cons, run_block_cons, run_block_nil]
      have first : SameGroup s (run (when differ (replayShadow d.val)) s) := by
        rw [run_when]; split
        · exact forEach_same (fun x u to_ => sendCtrl_same to_ hq false .note _) _ s way
        · exact ⟨rfl, rfl, fun _ _ _ => rfl⟩
      exact first.trans (forEach_same (f := fun i => tellAdmitTo i d.val) (fun i u to_ => sendCtrl_same to_ hq false .note _) _ _ ((first.quadTo d.val).trans way))
    have count := same.2.2 ⟨(Quad.joined q).cnt, 0, 16, 0⟩ (joined_whole ⟨q, hq⟩).2.2.2 (by simp)
    rw [← count]
    exact joinEnds_joins hq is _ _ told ((same.quadTo d.val).trans way)
  case timeout =>
    intro tag w fn a s found use hf
    refine answers_next rfl ?_
    have done := postedFault_shows fn hf .bar2 (some a) 0 1 4 (by decide)
      (run (dev fun d => { d with ctlWaits := d.ctlWaits.erase w }) s)
    have code : leAt (leBytes 4 1) 0 4 = 1 := by decide
    simp only [run_look', found, use, ctlAnswer, run_block_cons, run_block_nil, code]
    exact ⟨done.1, done.2.1, done.2.2⟩
  case prbs =>
    intro q l r s running
    refine answers_next rfl ?_
    obtain ⟨ended, kept⟩ := prbsEnded_spares q l ([BitVec.ofNat 8 q, BitVec.ofNat 8 (s.quad q).prbsMask])
      (fun u => (List.range 4).flatMap fun l => leBytes 3 (if bit (s.quad q).prbsMask l then satNat (u.get (Lane.prbsErr q l)) 0xFFFFFF else 0))
      (run (setQuad q fun t => { t with prbsMask := 0 })
        (run (forEach ((List.range 4).filter (bit (s.quad q).prbsMask)) fun l => laneDone q l (r.getD l (false, 0, 0))) s))
    simp only [run_look', running, ne_eq, not_false_eq_true, decide_true, run_when_true]
    rw [run_block_cons, run_block_cons]
    refine ⟨ended.trans (congrArg QuadSt.prbsMask (quad_setQuad ..)), fun tested => ?_⟩
    refine (kept (r.getD l (false, 0, 0))).mpr ?_
    exact lanes_stop q l (fun l => r.getD l (false, 0, 0)) _ (by simp +contextual) s (.inl (by simpa using tested))

end Sys2Proof.Machine
end


section
/-! Camera links (R193 to R200). -/

namespace Sys2Proof.Machine
open Reg

theorem port_setPort (n : Nat) (f : PortSt → PortSt) (s : State) : (run (setPort n f) s).port n = f (s.port n) := Tbl.get_set_same _ _ _ _

theorem portBase_bounds (n : Fin 56) : 0x10100000 ≤ portBase n ∧ portBase n < 0x17200000 := by
  unfold portBase; split <;> omega

theorem not_told_port (n : Fin 56) {d : Nat} (h : d < 0x1000) : ¬ Told (portBase n + d) := by
  have := portBase_bounds n
  simp only [Told]; omega

theorem portCluster_lt (n : Fin 56) : nidCluster (portCluster n) < 0x140 := by
  unfold portCluster nidCluster; split <;> omega

theorem port_whole : ∀ n : Fin 56, (Port.link n).Whole ∧ (Port.gear n).Whole ∧ (Port.rtt n).Whole ∧ (Port.rate n).Whole ∧ (Port.linkLost n).Whole
    ∧ (Port.eqReadapt n).Whole ∧ (Port.lost n).Whole ∧ (Port.retrans n).Whole ∧ (Port.linkErr n).Whole := by decide

/-- A completion leaves a register of a port alone, and what the port holds beside it. -/
theorem port_completes (n : Fin 56) {f : Fld} {d : Nat} (at_ : f.addr = portBase n + d) (hd : d < 0x1000) (narrow : f.width ≤ 32) :
    (sparing f).Completes := sparing_completes (at_ ▸ not_told_port n hd) (.inl narrow)

theorem ports_completes : (sparingDev Dev.ports).Completes := sparingDev_completes (fun _ _ _ _ _ _ => rfl) fun _ _ => rfl

/-- What a locked link's registers show. -/
def lockShown (n gear rate active rtt term : Nat) : Prog := block [
  set (Port.link n) 2, set (Port.gear n) gear, set (Port.rate n) rate, set (Port.rtxActive n) active, set (Port.rtt n) rtt, set (Port.rtxTerm n) term]

theorem lockShown_get (n : Fin 56) (gear rate active rtt term : Nat) (s : State) :
    let t := run (lockShown n gear rate active rtt term) s
    t.get (Port.link n) = 2 ∧ t.get (Port.gear n) = gear % 8 ∧ t.get (Port.rtt n) = rtt % 2 ^ 20 := by
  obtain ⟨wl, wg, wr, -⟩ := port_whole n
  simp only [lockShown, run_block_cons, run_block_nil]
  simp (disch := first | assumption | (refine id ?_; dsimp only [Port.link, Port.gear, Port.rate, Port.rtxActive, Port.rtt, Port.rtxTerm]; omega) | fail)
    only [get_set_apart, get_set_same]
  exact ⟨rfl, rfl, rfl⟩

/-- What is left to do when a link has locked and its port starts over. -/
def lockTold (n nid : Nat) (bs : List Byte) : Prog := block [
  when (n < 48) (fresh fun v => set (TwC.tunLat (16 + n)) v), raise 4 1 nid bs, finishKey 4 2 1 n (fun _ => .skip) 0]

theorem lockTold_get (n : Fin 56) (nid : Nat) (bs : List Byte) {f : Fld} {d : Nat} (at_ : f.addr = portBase n + d) (hd : d < 0x1000)
    (narrow : f.width ≤ 32) (s : State) : (run (lockTold n nid bs) s).get f = s.get f := by
  have c := port_completes n at_ hd narrow
  have := portBase_bounds n
  have latency (v : Nat) : (set (TwC.tunLat (16 + n)) v).Within (sparing f) := by
    simp only [within_set, sparing_reg, TwC.tunLat, twcBase, at_]; split <;> omega
  exact Prog.Within.spared (by simp [lockTold, within_fresh latency, c.raise, c.finishKey]) s

theorem lockTold_port (n m nid : Nat) (bs : List Byte) (s : State) : (run (lockTold n nid bs) s).port m = s.port m := by
  have kept : (run (lockTold n nid bs) s).dev.ports = s.dev.ports := Prog.Within.sparedDev (by
    have latency (v : Nat) : (set (TwC.tunLat (16 + n)) v).Within (sparingDev Dev.ports) := by simp
    simp [lockTold, within_fresh latency, ports_completes.raise, ports_completes.finishKey]) s
  rw [State.port, kept]; rfl

theorem resyncs_get (ps : List Nat) (c : Bool) (f : PipeSt → PipeSt) (g : Fld) (s : State) :
    (run (when c (forEach ps fun p => setPipe p f)) s).get g = s.get g :=
  Prog.Within.spared (by simp [setPipe]) s

theorem get_countMarked {g : Fld} {s : State} {nid : Nat} (hn : nid < 0x140) (w : g.width ≤ 32) (h : ¬ Told g.addr) :
    (run (countMarked nid) s).get g = s.get g := get_counter_untold hn (by decide) w h

theorem get_countedBy {g : Fld} {nid i n : Nat} (hn : nid < 0x140) (hi : i < 8) (w : g.width ≤ 32) (h : ¬ Told g.addr) (s : State) :
    (run (bumpBy (Node.counter nid none i) n) s).get g = s.get g :=
  (untold_counter (untold_get h (.inl w)) n hn hi).get s

theorem get_bumpBy_apart {f g : Fld} {n : Nat} {s : State} (hf : f.width ≤ 32) (hg : g.Whole)
    (h : g.addr ≠ f.addr ∨ g.lo + g.width ≤ f.lo ∨ f.lo + f.width ≤ g.lo) : (run (bumpBy f n) s).get g = s.get g := get_set_apart hf hg h

/-- What a packet of a port's link counts. -/
theorem packetCounts_get (n : Fin 56) (failed retries all : Nat) (s : State) :
    let t := run (bumpBy (Node.counter (nidCluster (portCluster n)) none 4) all) (run (bumpBy (Port.retrans n) retries) (run (bumpBy (Port.linkErr n) failed) s))
    t.get (Port.lost n) = s.get (Port.lost n) ∧ t.get (Port.retrans n) = satNat (s.get (Port.retrans n) + retries) 0xFFFFFFFF
      ∧ t.get (Port.linkErr n) = satNat (s.get (Port.linkErr n) + failed) 0xFFFFFFFF := by
  obtain ⟨-, -, -, -, -, -, wl, wr, we⟩ := port_whole n
  have kept {f : Fld} {d : Nat} (at_ : f.addr = portBase n + d) (hd : d < 0x1000) (narrow : f.width ≤ 32) (u : State) :
      (run (bumpBy (Node.counter (nidCluster (portCluster n)) none 4) all) u).get f = u.get f :=
    get_countedBy (portCluster_lt n) (by decide) narrow (at_ ▸ not_told_port n hd) u
  intro t
  refine ⟨?_, ?_, ?_⟩
  · rw [kept (f := Port.lost n) rfl (by decide) (by simp [Port.lost]), get_bumpBy_apart (by simp [Port.retrans]) wl (by simp [Port.lost, Port.retrans]),
      get_bumpBy_apart (by simp [Port.linkErr]) wl (by simp [Port.lost, Port.linkErr])]
  · rw [kept (f := Port.retrans n) rfl (by decide) (by simp [Port.retrans]), get_bumpBy_same _ _ _ wr,
      get_bumpBy_apart (by simp [Port.linkErr]) wr (by simp [Port.retrans, Port.linkErr])]
    rfl
  · rw [kept (f := Port.linkErr n) rfl (by decide) (by simp [Port.linkErr]), get_bumpBy_apart (by simp [Port.retrans]) we (by simp [Port.linkErr, Port.retrans]),
      get_bumpBy_same _ _ _ we]
    rfl

theorem tunnelDown_get (n : Nat) {f : Fld} (here : 0x10100000 ≤ f.addr ∧ f.addr < 0x18000000) (narrow : f.width ≤ 32) (s : State) :
    (run (tunnelDown n) s).get f = s.get f := by
  have c := sparing_completes (f := f) (by simp only [Told]; omega) (.inl narrow)
  refine Prog.Within.spared ?_ s
  simp [tunnelDown, endTransfer, setTwc, TwC.busy, TwC.outcome, TwC.segment, TwC.byte, TwC.transfers, TwC.failed, twcBase, c.raise, c.finish]
  intros; omega

theorem tunnelDown_ports (n : Nat) (s : State) : (run (tunnelDown n) s).dev.ports = s.dev.ports :=
  Prog.Within.sparedDev (by simp [tunnelDown, endTransfer, setTwc, ports_completes.raise, ports_completes.finish]) s

theorem portLose_loses (n : Fin 56) (s : State) :
    let t := run (portLose n) s
    t.get (Port.link n) = 1 ∧ t.get (Port.rate n) = 0 ∧ t.on (Port.linkLost n) = true ∧ (t.port n).lost = true := by
  obtain ⟨wl, -, -, wr, wf, -⟩ := port_whole n
  have := portBase_bounds n
  have told {d : Nat} (h : d < 0x1000) := not_told_port n h
  have end_ {f : Fld} {d : Nat} (at_ : f.addr = portBase n + d) (hd : d < 0x1000) (narrow : f.width ≤ 32) (u : State) (c k m : Nat) (bs : List Byte) :
      (run (raise c k m bs) (run (tunnelDown n) u)).get f = u.get f := by
    rw [raise_get _ _ _ _ _ (at_ ▸ told hd) (.inl narrow), tunnelDown_get _ (by omega) narrow]
  intro t
  simp only [t, portLose, run_look', run_block_cons, run_block_nil]
  refine ⟨?_, ?_, ?_, ?_⟩
  · rw [end_ (f := Port.link n) rfl (by decide) (by simp [Port.link]), setPort, run_dev, get_dev,
      get_countMarked (portCluster_lt n) (by simp [Port.link]) (told (d := 0x10) (by decide))]
    simp (disch := first | assumption | (refine id ?_; dsimp only [Port.link, Port.gear, Port.rate, Port.rtxActive, Port.linkLost]; omega) | fail) only
      [get_setFlag_apart, get_set_apart, get_set_same]
    rfl
  · rw [end_ (f := Port.rate n) rfl (by decide) (by simp [Port.rate]), setPort, run_dev, get_dev,
      get_countMarked (portCluster_lt n) (by simp [Port.rate]) (told (d := 0x10) (by decide))]
    simp (disch := first | assumption | (refine id ?_; dsimp only [Port.link, Port.gear, Port.rate, Port.rtxActive, Port.linkLost]; omega) | fail) only
      [get_setFlag_apart, get_set_apart, get_set_same]
    rfl
  · rw [State.on, end_ (f := Port.linkLost n) rfl (by decide) (by simp [Port.linkLost]), setPort, run_dev, get_dev,
      get_countMarked (portCluster_lt n) (by simp [Port.linkLost]) (told (d := 0x14) (by decide)),
      get_setFlag_same wf (by simp [Port.linkLost])]
    rfl
  · rw [State.port, raise_ports, tunnelDown_ports]
    exact congrArg PortSt.lost (port_setPort ..)

theorem exec_portLinkLocked {n : Fin 56} {s : State} (gear : Fin 6) (rtx : Bool) (rtt : BitVec 20) (enabled : s.on (Port.enable n) = true)
    (training : s.get (Port.link n) = 1) : exec (.portLinkLocked n gear rtx rtt) s = .next (run (portLock n
      (if s.get (Port.rateCap n) < gear.val then s.get (Port.rateCap n) else gear.val) rtx rtt.toNat) s) := by
  change execPortLinkLocked n gear rtx rtt s = _
  simp only [execPortLinkLocked, run_look', enabled, training, decide_true, Bool.and_self, run_when_true]

theorem portLock_locks (n : Fin 56) (gear : Nat) (hgear : gear < 6) (rtx : Bool) (rtt : BitVec 20) (s : State) :
    let t := run (portLock n (if s.get (Port.rateCap n) < gear then s.get (Port.rateCap n) else gear) rtx rtt.toNat) s
    t.get (Port.link n) = 2 ∧ (n.val < 48 → t.get (Port.gear n) = min gear (s.get (Port.rateCap n)))
      ∧ t.get (Port.rtt n) = (if n.val < 48 ∧ rtx = true ∧ s.on (Port.rtxEn n) = true then rtt.toNat else 0) ∧ (t.port n).attempts = 0 := by
  set g := if s.get (Port.rateCap n) < gear then s.get (Port.rateCap n) else gear with hg
  set active := decide (n.val < 48) && rtx && s.on (Port.rtxEn n) with hactive
  set shown := run (lockShown n (if n.val < 48 then g else 0) (s.rateCode n g) (boolNat active) (if active then rtt.toNat else 0)
    (if active then s.get (Port.rtxLimit n) * rtt.toNat else 0)) s
  have shape : run (portLock n g rtx rtt.toNat) s = run (lockTold n (nidCluster (portCluster n))
      [BitVec.ofNat 8 n, BitVec.ofNat 8 (if n.val < 48 then g else s.rateCode n g)])
      (run (setPort n fun t => { t with lost := false, attempts := 0, ref := none })
        (run (when (s.port n).lost (forEach (s.pipesOfPort n) fun p =>
          setPipe p fun t => { t with resync := if t.resync = 0 then 1 else t.resync })) shown)) := by
    simp only [portLock, run_look', shown, lockShown, lockTold, run_block_cons, run_block_nil, hactive]
  have small : g < 8 := by
    have := hgear; rw [hg]; split <;> omega
  obtain ⟨link, gear', rtt'⟩ : shown.get (Port.link n) = 2 ∧ shown.get (Port.gear n) = _ % 8 ∧ shown.get (Port.rtt n) = _ % 2 ^ 20 := lockShown_get ..
  have kept {f : Fld} {d : Nat} (at_ : f.addr = portBase n + d) (hd : d < 0x1000) (narrow : f.width ≤ 32) :
      (run (portLock n g rtx rtt.toNat) s).get f = shown.get f := by
    rw [shape, lockTold_get n _ _ at_ hd narrow, setPort, run_dev, get_dev, resyncs_get]
  refine ⟨?_, fun aphy => ?_, ?_, ?_⟩
  · exact (kept (f := Port.link n) rfl (by decide) (by simp [Port.link])).trans link
  · refine (kept (f := Port.gear n) rfl (by decide) (by simp [Port.gear])).trans (gear'.trans ?_)
    rw [if_pos aphy, Nat.mod_eq_of_lt small, hg]; split <;> omega
  · refine (kept (f := Port.rtt n) rfl (by decide) (by simp [Port.rtt])).trans (rtt'.trans ?_)
    have := rtt.isLt
    have same : active = true ↔ n.val < 48 ∧ rtx = true ∧ s.on (Port.rtxEn n) = true := by simp [hactive, and_assoc]
    by_cases on : active = true
    · rw [if_pos on, if_pos (same.mp on), Nat.mod_eq_of_lt this]
    · rw [if_neg on, if_neg (mt same.mpr on)]; rfl
  · rw [shape, lockTold_port, port_setPort]

theorem within_setBytes {F : Foot} (bytes : ∀ a, F.byte a) (bs : List Byte) (a : Nat) : (setBytes a bs).Within F := by
  induction bs generalizing a with
  | nil => exact trivial
  | cons b bs ih => exact ⟨bytes a, ih (a + 1)⟩

theorem within_putResult {F : Foot} (h : F.Completes) (bytes : ∀ a, F.byte a) (e : Cmd) (bs : List Byte) : (putResult e bs).Within F := by
  simp [putResult, h.setJournal, within_setBytes, bytes]

/-- Settles O17. -/
theorem cameraLinksComeAndGo : Obligations.CameraLinksComeAndGo := by
  unfold Obligations.CameraLinksComeAndGo
  refine ⟨?lock, ?startup, ?loss, ?combo, ?repaired, ?lost, ?adapted, ?scanned⟩
  case lock => exact fun n gear rtx rtt s enabled training => answers_next (exec_portLinkLocked gear rtx rtt enabled training) (portLock_locks n gear.val gear.isLt rtx rtt s)
  case startup =>
    intro n s aphy enabled training
    refine answers_next rfl ?_
    simp only [run_look', aphy, enabled, training, decide_true, Bool.and_self, run_when_true, run_block_cons, run_block_nil]
    have c := port_completes n (f := Port.link n) rfl (by decide) (by simp [Port.link])
    constructor
    · rw [State.port, Prog.Within.sparedDev (ports_completes.finishKey (k := fun _ => .skip) (fun _ => trivial) _), raise_ports]
      exact congrArg PortSt.attempts (port_setPort ..)
    · rw [Prog.Within.spared (c.finishKey (k := fun _ => .skip) (fun _ => trivial) _), raise_get _ _ _ _ _ (not_told_port n (d := 0x10) (by decide)) (.inl (by simp [Port.link]))]
      exact training
  case loss =>
    intro n s locked
    refine answers_next rfl ?_
    simp only [run_look', locked, decide_true, run_when_true]
    exact portLose_loses ⟨n, by omega⟩ s
  case combo =>
    intro j s locked
    refine answers_next rfl ?_
    simp only [run_look', locked, decide_true, run_when_true]
    exact portLose_loses ⟨48 + j, by omega⟩ s
  case repaired =>
    intro n d s locked active few
    refine answers_next rfl ?_
    have fits : ¬ s.get (Port.rtxLimit n) < d := by omega
    have tries : (if d < s.get (Port.rtxLimit n) then d else s.get (Port.rtxLimit n)) = d := by split <;> omega
    simp only [run_look', locked, active, decide_true, run_when_true, if_true, fits, tries, decide_false, if_false,
      run_block_cons, run_block_nil, run_when_false]
    obtain ⟨lost, retrans, linkErr⟩ := packetCounts_get ⟨n, by omega⟩ d d (d + d) s
    exact ⟨lost, retrans, linkErr⟩
  case lost =>
    intro n d s locked active many
    refine answers_next rfl ?_
    have tries : (if d < s.get (Port.rtxLimit n) then d else s.get (Port.rtxLimit n)) = s.get (Port.rtxLimit n) := by split <;> omega
    simp only [run_look', locked, active, decide_true, run_when_true, if_true, many, tries, run_block_cons, run_block_nil]
    obtain ⟨lost, retrans, linkErr⟩ := packetCounts_get ⟨n, by omega⟩ (s.get (Port.rtxLimit n) + 1) (s.get (Port.rtxLimit n))
      (s.get (Port.rtxLimit n) + 1 + s.get (Port.rtxLimit n)) s
    set u := run (bumpBy (Node.counter _ none 4) _) _
    obtain ⟨-, -, -, -, -, -, wl, -, -⟩ := port_whole ⟨n, by omega⟩
    have kept {f : Fld} {x : Nat} (at_ : f.addr = portBase n + x) (hx : x < 0x1000) (narrow : f.width ≤ 32) (v : State) (d : Nat → List Byte) :
        (run (raiseLimited 4 8 (nidCluster (portCluster n)) n d) (run (countMarked (nidCluster (portCluster n))) v)).get f = v.get f := by
      have told := not_told_port ⟨n, by omega⟩ hx
      rw [(untold_raiseLimited (untold_get (at_ ▸ told) (.inl narrow)) _ _ _ _ _ _).get,
        get_countMarked (portCluster_lt ⟨n, by omega⟩) narrow (at_ ▸ told)]
    refine ⟨?_, ?_, ?_⟩
    · rw [kept (f := Port.lost n) rfl (by decide) (by simp [Port.lost]), get_bump_same _ _ wl, lost]; rfl
    · rw [kept (f := Port.retrans n) rfl (by decide) (by simp [Port.retrans]),
        get_bump_other _ _ _ (by simp [Port.retrans]) (by simp [Port.retrans, Port.lost]) (.inl (by simp [Port.lost])), retrans]
    · rw [kept (f := Port.linkErr n) rfl (by decide) (by simp [Port.linkErr]),
        get_bump_other _ _ _ (by simp [Port.linkErr]) (by simp [Port.linkErr, Port.lost]) (.inl (by simp [Port.lost])), linkErr]
      rfl
  case adapted =>
    intro n e s pending alone
    have waits : (block [when (e.val 0x40 = 1) (setFlag (Port.eqReadapt n)), raise 4 0x0C (nidCluster (portCluster n))
        [BitVec.ofNat 8 n, BitVec.ofNat 8 (e.val 0x40)]]).Within (sparingDev Dev.ctlWaits) := by simp [waits_completes.raise]
    refine answers_next rfl ⟨finishKey_drops pending ((waits.awaited s e.seq).trans alone), fun lasting => ?_⟩
    obtain ⟨-, -, -, -, -, we, -⟩ := port_whole n
    have c := port_completes n (f := Port.eqReadapt n) rfl (by decide) (by simp [Port.eqReadapt])
    rw [run_finishKey pending, State.on, (c.completion _ _).spared]
    simp only [lasting, decide_true, run_when_true, run_block_cons, run_block_nil]
    rw [raise_get _ _ _ _ _ (not_told_port n (d := 0x14) (by decide)) (.inl (by simp [Port.eqReadapt])), get_setFlag_same we (by simp [Port.eqReadapt])]
    rfl
  case scanned =>
    intro n counts e s pending alone
    refine answers_next rfl (finishKey_drops pending ?_)
    have waits (bs : List Byte) (d : List Byte) : (block [putResult e bs, raise 4 0x0D (nidCluster (portCluster n)) d]).Within (sparingDev Dev.ctlWaits) := by
      simp [waits_completes.raise, within_putResult waits_completes fun _ => trivial]
    exact ((waits _ _).awaited s e.seq).trans alone

end Sys2Proof.Machine
end


section
/-! A mailbox command that passes every check is carried out: what its row runs, in terms of its description (R136, R143, R147, R590). -/

namespace Sys2Proof.Machine
open Reg

/-- The row of a mailbox command issues it with its request. -/
theorem exec_command {i : Instr} {sp : CmdSpec} {m : MbId} {r : Req} (h : i.command = some (sp, m, r)) (s : State) :
    exec i s = .next (run (sp.issue m r) s) := by
  unfold Instr.command at h
  split at h
  all_goals cases h
  all_goals rfl

/-- The context of a command names its class, code, request and mailbox, and counts the take. -/
theorem CmdSpec.context_fields {sp : CmdSpec} {m : MbId} {r : Req} {s : State} {c : Ctx} (h : sp.context m r s = .inr c) :
    c.mb = m ∧ c.cls = sp.cls ∧ c.code = sp.code ∧ c.req = r ∧ c.take = s.dev.takes := by
  unfold CmdSpec.context at h
  iterate 6
    split at h
    · cases h
  split at h
  · split at h
    · cases h
    · cases h; exact ⟨rfl, rfl, rfl, rfl, rfl⟩
  · cases h; exact ⟨rfl, rfl, rfl, rfl, rfl⟩

/-- Every check from 0x20 on passes of a command for this device whose verdict is 0 (R144). -/
theorem CmdSpec.checked {sp : CmdSpec} {c : Ctx} {s : State} (own : c.tgt.dev = s.dev.ownIndex) (h : sp.verdict c s = (0, [])) :
    sp.denied c s = false ∧ badKey sp.keys c.tlvs = none ∧ sp.params c s = none ∧ sp.mode c s = false := by
  unfold CmdSpec.verdict at h
  simp only [own, ne_eq, not_true_eq_false, decide_false, Bool.not_false, Bool.true_and, Bool.false_and, Bool.or_false, if_false,
    Bool.false_eq_true] at h
  split at h
  · cases h
  split at h
  · cases h
  next allowed =>
  split at h
  · cases h
  next keys =>
  split at h
  · cases h
  next params =>
  split at h
  · cases h
  next mode => exact ⟨by simpa using allowed, keys, params, by simpa using mode⟩

section
variable {sp : CmdSpec} {m : MbId} {r : Req} {s : State} {c : Ctx}

theorem Executes.mb (h : Executes sp m r s c) : c.mb = m := (CmdSpec.context_fields h.2.1).1
theorem Executes.cls (h : Executes sp m r s c) : c.cls = sp.cls := (CmdSpec.context_fields h.2.1).2.1
theorem Executes.code (h : Executes sp m r s c) : c.code = sp.code := (CmdSpec.context_fields h.2.1).2.2.1
theorem Executes.req (h : Executes sp m r s c) : c.req = r := (CmdSpec.context_fields h.2.1).2.2.2.1

theorem Executes.served (h : Executes sp m r s c) : m.hosted = true ∨ m = .twoWire := hosted_or_twoWire h.1

/-- A command that is carried out passed its own checks when it was taken. -/
theorem Executes.checked (h : Executes sp m r s c) : sp.denied c (sp.taken m r s) = false ∧ badKey sp.keys c.tlvs = none
    ∧ sp.params c (sp.taken m r s) = none ∧ sp.mode c (sp.taken m r s) = false := by
  obtain ⟨ready, -, passed, -, -, own, -, -⟩ := h
  exact sp.checked (by rw [own, sp.taken_ownIndex r ready]) passed

/-- The count of takes goes up by one when a request is taken. -/
theorem CmdSpec.taken_takes (sp : CmdSpec) (r : Req) (h : Ready m s) : (sp.taken m r s).dev.takes = s.dev.takes + 1 := by
  have put : (run (putRequest m sp.cls sp.code r) s).dev.takes = s.dev.takes := keepsDev_putRequest (fun _ _ => rfl) m sp.cls sp.code r s
  have state (v : Nat) (s : State) : (run (setMbState m v) s).dev.takes = s.dev.takes :=
    keepsDev_setMbState (g := Dev.takes) (fun _ _ => rfl) m v s
  simp only [CmdSpec.taken, run_block_cons, run_block_nil, h.run_ring, dropBell, run_dev]
  exact congrArg (· + 1) ((state 2 _).trans ((state 1 _).trans put))

theorem Executes.take (h : Executes sp m r s c) : c.take = s.dev.takes + 1 :=
  (CmdSpec.context_fields h.2.1).2.2.2.2.trans (sp.taken_takes r h.1)

theorem CmdSpec.taken_group (sp : CmdSpec) (r : Req) (h : Ready m s) : (sp.taken m r s).dev.group = s.dev.group :=
  sp.taken_keeps (g := fun s => s.dev.group) r h (keepsDev_putRequest (fun _ _ => rfl) m _ _ r)
    (fun v => keepsDev_setMbState (fun _ _ => rfl) m v) fun _ _ _ => rfl

/-- Which members a target takes in depends on the group and on the device's own index alone. -/
theorem membersOf_congr {s t : State} (g : t.dev.group = s.dev.group) (own : t.dev.ownIndex = s.dev.ownIndex) (x : Target) :
    t.membersOf x = s.membersOf x := by
  have up (d f y : Nat) : State.membersOf.up t d f y = State.membersOf.up s d f y := by
    induction f generalizing y with
    | zero => rfl
    | succ f ih => simp only [State.membersOf.up, g, ih]
  simp only [State.membersOf, g, own, up]

/-- A command that is carried out runs as its description says, in the state in which it was taken. -/
theorem Executes.run_issue (h : Executes sp m r s c) : run (sp.issue m r) s = run (sp.execute c) (sp.taken m r s) := by
  have req := h.req
  obtain ⟨ready, context, passed, unordered, wet, own, alone, -⟩ := h
  have here : c.tgt.dev = (sp.taken m r s).dev.ownIndex := by rw [own, sp.taken_ownIndex r ready]
  have none_else : sp.fanout = true → (sp.taken m r s).membersOf c.tgt = [] := fun f => by
    rw [membersOf_congr (sp.taken_group r ready) (sp.taken_ownIndex r ready), alone f]
  have took : run (block [dropBell m, setMbState m 2, dev fun d => { d with takes := d.takes + 1 }])
      (run (block [putRequest m sp.cls sp.code r, ring m]) s) = sp.taken m r s := by simp only [CmdSpec.taken, run_block_cons, run_block_nil]
  simp only [run_block_cons, run_block_nil] at took
  rw [sp.run_issue_ready r ready, CmdSpec.take]
  simp only [run_block_cons, run_block_nil, took, run_look', context, passed, unordered, ne_eq, not_true_eq_false, if_false,
    Bool.false_and, Bool.false_eq_true, CmdSpec.begin, here, false_and, req, wet]
  by_cases f : sp.fanout = true
  · simp [f, none_else f]
  · simp [f]

/-- What a command executes in: the state in which it was taken, with its target powered where it asks for that. -/
theorem Executes.run_power (h : Executes sp m r s c) :
    run (when sp.powers (powerTarget c.tgt.kind)) (sp.taken m r s) = sp.powered c s := by rw [CmdSpec.powered, h.mb, h.req]

theorem Executes.not_late (h : Executes sp m r s c) : sp.late c (sp.powered c s) = none := by
  obtain ⟨-, -, -, -, -, -, -, late⟩ := h; exact late

/-- A command that completes at once takes effect, delivers its results and is answered 0x00 (R143, R163). -/
theorem Executes.run_done (h : Executes sp m r s c) (pends : sp.pends = none) (arms : sp.arms c (sp.powered c s) = none) :
    run (sp.issue m r) s = run (respond m sp.cls sp.code r 1 0 c.tgt.nid (deliver c (sp.results c (sp.powered c s))).2)
      (run (deliver c (sp.results c (sp.powered c s))).1 (run (sp.effect c) (sp.powered c s))) := by
  rw [h.run_issue, CmdSpec.execute]
  simp only [run_block_cons, run_block_nil, h.run_power, run_look', h.not_late, pends, arms, h.mb, h.cls, h.code, h.req]

/-- The entry that a command which stays armed leaves in the journal. -/
def CmdSpec.armedEntry (sp : CmdSpec) (c : Ctx) (x : Nat × Nat) (s : State) : Cmd := c.entry (.armed x.1 x.2) (sp.node c) s.now

/-- A command that stays armed takes effect, enters the journal, delivers its results and is answered 0x00 (R149). -/
theorem Executes.run_armed (h : Executes sp m r s c) (pends : sp.pends = none) {x : Nat × Nat} (arms : sp.arms c (sp.powered c s) = some x) :
    run (sp.issue m r) s = run (respond m sp.cls sp.code r 1 0 c.tgt.nid (deliver c (sp.results c (sp.powered c s))).2)
      (run (deliver c (sp.results c (sp.powered c s))).1
        (run (setJournal fun j => j ++ [sp.armedEntry c x (sp.powered c s)]) (run (sp.effect c) (sp.powered c s)))) := by
  rw [h.run_issue, CmdSpec.execute]
  simp only [run_block_cons, run_block_nil, h.run_power, run_look', h.not_late, pends, arms, h.mb, h.cls, h.code, h.req,
    CmdSpec.armedEntry]

/-- The entry that a command which completes later leaves in the journal. -/
def CmdSpec.pendingEntry (sp : CmdSpec) (c : Ctx) (b : Nat) (s : State) : Cmd := c.entry .pending (sp.node c) (s.now + 1000 * b + sp.extra c s)

/-- The state in which the effect of a command that completes later begins: it stands in the journal and is answered 0x01 (R143, R153). -/
def CmdSpec.answered (sp : CmdSpec) (c : Ctx) (b : Nat) (s : State) : State :=
  run (respond c.mb sp.cls sp.code c.req 1 1 c.tgt.nid (sp.early c (sp.powered c s)))
    (run (setJournal fun j => j ++ [sp.pendingEntry c b (sp.powered c s)]) (sp.powered c s))

theorem Executes.run_pending (h : Executes sp m r s c) {b : Nat} (pends : sp.pends = some b) :
    run (sp.issue m r) s = run (sp.effect c) (sp.answered c b s) := by
  rw [h.run_issue, CmdSpec.execute, CmdSpec.answered]
  simp only [run_block_cons, run_block_nil, h.run_power, run_look', h.not_late, pends, h.cls, h.code, CmdSpec.pendingEntry]

end

/-! The answer's bytes (R138, R143, R491). -/

theorem respBytes_length (cls code : Nat) (r : Req) (version st nid : Nat) (ts : List Tlv) :
    (respBytes cls code r version st nid ts).length = 16 + (tlvBytes ts).length := by
  simp [respBytes]; omega

/-- Everything but memory. -/
def offMemory : Foot where
  byte _ := False

theorem offMemory_tells : offMemory.Tells := ⟨fun _ _ => trivial, fun _ _ => trivial, trivial⟩

@[simp] theorem offMemory_reg (a : Nat) : offMemory.reg a := trivial

theorem bytes_congr {s t : State} (h : t.mem = s.mem) (a n : Nat) : t.bytes a n = s.bytes a n := by
  induction n generalizing a with
  | zero => rfl
  | succ n ih => rw [State.bytes, State.bytes, ih, State.byte, State.byte, h]

theorem Prog.Within.bytes {p : Prog} (h : p.Within offMemory) (s : State) (a n : Nat) : (run p s).bytes a n = s.bytes a n :=
  bytes_congr (h.mem (fun _ => id) s) a n

theorem putResponse_bytes_hosted {m : MbId} (h : m.hosted = true) (noMsi : Bool) (st : Nat) (bs : List Byte) (s : State) :
    (run (putResponse m noMsi st bs) s).bytes (m.base + 0x400) bs.length = bs := by
  have words : (block [set (Mbx.lastStatus m.base) st, setFlag (Mbx.respReady m.base), set (Mbx.state m.base) 3,
      when (!noMsi) (sendMsix m.fn (1 + (m.base / 0x1000) % 0x10 - 4))]).Within offMemory := by
    have told : (sendMsix m.fn (1 + (m.base / 0x1000) % 0x10 - 4)).Within offMemory := offMemory_tells.sendMsix (fn_lt m) (by omega)
    simp [told]
  have kept := words.bytes (run (setBytes (m.base + 0x400) bs) (run (clearMem (m.base + 0x400) 0x400) s)) (m.base + 0x400) bs.length
  rw [bytes_setBytes] at kept
  rw [putResponse_hosted h, setMbState_hosted h, run_block_cons, run_block_cons]
  exact kept

theorem putResponse_bytes_twoWire (noMsi : Bool) (st : Nat) (bs : List Byte) (s : State) :
    (run (putResponse .twoWire noMsi st bs) s).response .twoWire bs.length = bs := by
  have alert (s : State) : (run (raiseAlert 1) s).dev.tw.resp = s.dev.tw.resp := by
    rw [raiseAlert, run_look]
    split <;> rfl
  simp only [State.response, putResponse, run_block_cons, run_block_nil, alert]
  exact (congrArg (List.take bs.length) (by simp [setMbState, setTw, twFlag])).trans (List.take_length ..)

/-- A response is that of its request, with its status and parameters. -/
theorem respond_replied {sp : CmdSpec} {m : MbId} (h : m.hosted = true ∨ m = .twoWire) (r : Req) {st : Nat} (hst : st < 256) (nid : Nat)
    (ts : List Tlv) (s : State) : Replied sp m r nid st ts (run (respond m sp.cls sp.code r 1 st nid ts) s) := by
  refine ⟨respond_done h _ _ _ _ hst _ _ s, ?_⟩
  rw [← respBytes_length sp.cls sp.code r 1 st nid ts]
  obtain h | rfl := h
  · obtain ⟨k, rfl⟩ | ⟨k, rfl⟩ := hosted_cases h
    · exact putResponse_bytes_hosted h _ _ _ s
    · exact putResponse_bytes_hosted h _ _ _ s
  · exact putResponse_bytes_twoWire _ _ _ s

end Sys2Proof.Machine
end


section
/-! What a command's checked keys say of its parameters (R143, R144), and what taking and answering a command leave alone. -/

namespace Sys2Proof.Machine
open Reg

/-! Keys. -/

/-- The keys 0x8000 to 0xEFFF, which a command that does not know them ignores. -/
abbrev Ignored (k : Nat) : Prop := 0x8000 ≤ k ∧ k < 0xF000

/-- The step of the scan of a command's keys. -/
theorem scan_cons {ks : List KeySpec} {x : Tlv} {xs : List Tlv} {seen : List Nat} (h : badKey.scan ks seen (x :: xs) = none) :
    badKey.scan ks (x.key :: seen) xs = none ∧ ((ks.find? fun k => k.key = x.key) = none → Ignored x.key)
      ∧ ∀ k, (ks.find? fun k => k.key = x.key) = some k → k.fits x = true := by
  rw [badKey.scan] at h
  cases found : ks.find? fun k => k.key = x.key with
  | none =>
    simp only [found] at h
    by_cases ignored : Ignored x.key
    · rw [if_pos ignored] at h
      exact ⟨h, fun _ => ignored, by simp⟩
    · rw [if_neg ignored] at h; cases h
  | some k =>
    simp only [found] at h
    by_cases again : x.key ∈ seen ∧ (!k.list) = true
    · rw [if_pos again] at h; cases h
    by_cases fit : k.fits x = true
    · rw [if_neg again, fit] at h
      exact ⟨h, by simp, fun k' e => by cases e; exact fit⟩
    · rw [if_neg again, if_pos (by simpa using fit)] at h; cases h

theorem scan_none {ks : List KeySpec} {ts : List Tlv} {seen : List Nat} (h : badKey.scan ks seen ts = none) {t : Tlv} (ht : t ∈ ts) :
    ((ks.find? fun k => k.key = t.key) = none → Ignored t.key) ∧ ∀ k, (ks.find? fun k => k.key = t.key) = some k → k.fits t = true := by
  induction ts generalizing seen with
  | nil => cases ht
  | cons x xs ih =>
    obtain ⟨rest, own⟩ := scan_cons h
    obtain rfl | ht := List.mem_cons.mp ht
    · exact own
    · exact ih rest ht

theorem badKey_none {ks : List KeySpec} {ts : List Tlv} (h : badKey ks ts = none) :
    badKey.scan ks [] ts = none ∧ ∀ k ∈ ks, k.required = true → ∃ t ∈ ts, t.key = k.key := by
  unfold badKey at h
  split at h
  · cases h
  next fits =>
  refine ⟨fits, fun k hk required => ?_⟩
  have := List.find?_eq_none.mp (Option.map_eq_none_iff.mp h) k hk
  simpa [required] using this

section Keys
variable {c : Ctx} {ks : List KeySpec} (checked : badKey ks c.tlvs = none)
include checked

/-- A key that a command requires is there. -/
theorem Ctx.has_required {k : KeySpec} (mem : k ∈ ks) (required : k.required = true) : c.has k.key = true := by
  obtain ⟨t, ht, hk⟩ := (badKey_none checked).2 k mem required
  exact List.find?_isSome.mpr ⟨t, ht, by simpa using hk⟩

/-- A key that a command does not know is not there. -/
theorem Ctx.lacks_unknown {k : Nat} (unknown : (ks.find? fun x => x.key = k) = none) (taken : ¬ Ignored k) : c.has k = false := by
  by_contra h
  obtain ⟨t, ht⟩ := Option.isSome_iff_exists.mp ((Bool.not_eq_false _).mp h : (c.find k).isSome = true)
  have key : t.key = k := by simpa using List.find?_some ht
  have := (scan_none (badKey_none checked).1 (List.mem_of_find?_eq_some ht)).1
  rw [key] at this
  exact taken (this unknown)

/-- A key that is there fits its specification. -/
theorem Ctx.fits {x : KeySpec} {k : Nat} (known : (ks.find? fun x => x.key = k) = some x) (has : c.has k = true) :
    x.fits ⟨k, c.bytes k⟩ = true := by
  obtain ⟨t, ht⟩ := Option.isSome_iff_exists.mp has
  have key : t.key = k := by simpa using List.find?_some ht
  have := (scan_none (badKey_none checked).1 (List.mem_of_find?_eq_some ht)).2 x (by rw [key]; exact known)
  simpa [Ctx.bytes, ht, KeySpec.fits] using this

/-- A key of at most eight bytes lies in its range. -/
theorem Ctx.val_range {x : KeySpec} {k : Nat} (known : (ks.find? fun x => x.key = k) = some x) (short : x.maxLen ≤ 8) (has : c.has k = true) :
    x.lo ≤ c.val k ∧ c.val k ≤ x.hi := by
  have := Ctx.fits checked known has
  simp only [KeySpec.fits, Bool.and_eq_true, decide_eq_true_eq, Bool.or_eq_true] at this
  obtain ⟨⟨⟨-, long⟩, -⟩, range⟩ := this
  exact range.resolve_left (by omega)

/-- The bytes of a key are as many as its specification says. -/
theorem Ctx.length_range {x : KeySpec} {k : Nat} (known : (ks.find? fun x => x.key = k) = some x) (has : c.has k = true) :
    x.minLen ≤ (c.bytes k).length ∧ (c.bytes k).length ≤ x.maxLen := by
  have := Ctx.fits checked known has
  simp only [KeySpec.fits, Bool.and_eq_true, decide_eq_true_eq] at this
  exact this.1.1

/-- The value of a key that must be there lies in its range. -/
theorem Ctx.required_range {x : KeySpec} {k : Nat} (known : (ks.find? fun x => x.key = k) = some x) (required : x.required = true)
    (short : x.maxLen ≤ 8) : x.lo ≤ c.val k ∧ c.val k ≤ x.hi := by
  have key : x.key = k := by simpa using List.find?_some known
  exact Ctx.val_range checked known short (key ▸ Ctx.has_required checked (List.mem_of_find?_eq_some known) required)

end Keys

/-! Taking and answering a command. -/

/-- A field that neither taking a request, nor answering it, nor telling anyone writes. -/
structure Fld.OffMailbox (f : Fld) : Prop where
  narrow : f.width ≤ 32
  low : 0x804 < f.addr
  high : f.addr < 0x10000003000
  untold : ¬ Told f.addr
  offBus : ¬ BusWord f.addr

/-- A part of the device that neither taking a request, nor answering it, nor telling anyone changes. -/
structure OffMailbox {β : Type} (g : Dev → β) : Prop where
  quiet : Quiet g
  tw : ∀ d w, g { d with tw := w } = g d
  bells : ∀ d l n, g { d with doorbells := l, takes := n } = g d

/-- A footprint that takes in what taking a request from a mailbox and answering it there touch. -/
structure Foot.Serves (F : Foot) (m : MbId) : Prop extends F.Tells where
  byte : ∀ a, F.byte a
  word : m.hosted = true → ∀ a, m.base + 0x800 ≤ a → a < m.base + 0x1000 → F.reg a
  bus : ∀ a, BusWord a → F.reg a
  tw : ∀ f : TwMail → TwMail, F.dev fun d => { d with tw := f d.tw }

theorem sparing_serves {f : Fld} (h : f.OffMailbox) (m : MbId) : (sparing f).Serves m where
  toTells := sparing_tells h.untold (.inl h.narrow)
  byte _ := trivial
  word hosted a lo _ := by
    obtain ⟨fn, k, -, -, e⟩ := base_hosted hosted
    have := h.high; have := h.narrow
    exact ⟨by omega, by omega⟩
  bus a bus := ⟨fun e => h.offBus (e ▸ bus), fun wide => absurd h.narrow (by omega)⟩
  tw _ := trivial

theorem sparingDev_serves {β : Type} {g : Dev → β} (h : OffMailbox g) (m : MbId) : (sparingDev g).Serves m where
  toTells := sparingDev_tells h.quiet
  byte _ := trivial
  word _ _ _ _ := trivial
  bus _ _ := trivial
  tw _ d := h.tw d _

section Serves
variable {F : Foot} {m : MbId}

theorem within_clearMem (bytes : ∀ a, F.byte a) (lo len : Nat) : (clearMem lo len).Within F := by simp [clearMem, bytes]

theorem Foot.Serves.setTw (h : F.Serves m) (f : TwMail → TwMail) : (setTw f).Within F := within_dev.mpr (h.tw f)

theorem Foot.Serves.setMbState (h : F.Serves m) (served : m.hosted = true ∨ m = .twoWire) (v : Nat) : (setMbState m v).Within F := by
  obtain hosted | rfl := served
  · simpa [setMbState_hosted hosted, Mbx.state] using h.word hosted _ (by omega) (by omega)
  · exact h.setTw fun t => { t with state := if v = 0 then 0 else v + 1 }

theorem Foot.Serves.respond (h : F.Serves m) (served : m.hosted = true ∨ m = .twoWire) (cls code : Nat) (r : Req) (v st nid : Nat)
    (ts : List Tlv) : (respond m cls code r v st nid ts).Within F := by
  have state := h.setMbState served 3
  obtain hosted | rfl := served
  · have word (d : Nat) (lo : 0x800 ≤ d) (hi : d < 0x1000) : F.reg (m.base + d) := h.word hosted _ (by omega) (by omega)
    have message : (sendMsix m.fn (1 + (m.base / 0x1000) % 0x10 - 4)).Within F := h.toTells.sendMsix (fn_lt m) (by omega)
    simp [Machine.respond, putResponse_hosted hosted, within_clearMem h.byte, within_setBytes h.byte, word, Mbx.lastStatus,
      Mbx.respReady, state, message]
  · simp [Machine.respond, putResponse, raiseAlert, state, twFlag, h.setTw, TwT.outptr, TwT.flagCount, h.bus, BusWord, -within_setTw]

theorem Foot.Serves.deliver (h : F.Serves m) (c : Ctx) (ts : List Tlv) : (deliver c ts).1.Within F := by
  unfold Machine.deliver
  split
  · exact within_setBytes h.byte _ _
  · trivial

end Serves

/-! What a command sees as it executes: the device as it was, beside its mailbox. -/

section Seen
variable {m : MbId} {s : State}

/-- No register of the bridge below the interrupt vectors is a mailbox's. -/
theorem ne_mbxWord_of_low (m : MbId) {a : Nat} (h : 0x804 < a) (h' : a < 0x10000003000) : a ≠ m.base + 0x804 := by
  cases m <;> simp only [MbId.base, hostKey] <;> omega

theorem CmdSpec.taken_get (sp : CmdSpec) (r : Req) (h : Ready m s) {f : Fld} (off : f.OffMailbox) : (sp.taken m r s).get f = s.get f := by
  rw [get_narrow _ f off.narrow, get_narrow _ f off.narrow, sp.taken_reg r h (ne_mbxWord_of_low m off.low off.high)]

theorem CmdSpec.taken_dev (sp : CmdSpec) (r : Req) (h : Ready m s) {β : Type} {g : Dev → β} (off : OffMailbox g) :
    g (sp.taken m r s).dev = g s.dev :=
  sp.taken_keeps (g := fun s => g s.dev) r h (keepsDev_putRequest (fun _ _ => off.tw _ _) m _ _ r)
    (fun v => keepsDev_setMbState (fun _ _ => off.tw _ _) m v) fun s _ _ => off.bells s.dev _ _

variable {sp : CmdSpec} {r : Req} {c : Ctx}

/-- A command that powers nothing executes in the state in which it was taken. -/
theorem Executes.powered_taken (h : Executes sp m r s c) (p : sp.powers = false) : sp.powered c s = sp.taken m r s := by
  rw [← h.run_power, p]; rfl

/-- A command for the device powers nothing. -/
theorem Executes.powered_device (h : Executes sp m r s c) (k : c.tgt.kind = .device) : sp.powered c s = sp.taken m r s := by
  rw [← h.run_power, k]; cases sp.powers <;> rfl

end Seen

/-! The answer to a command that completes at once. -/

section Answer
variable {i : Instr} {sp : CmdSpec} {m : MbId} {r : Req} {c : Ctx} {s : State}

/-- The state in which the effect of a command that completes at once is in place, and its entry in the journal where it stays armed. -/
def CmdSpec.effected (sp : CmdSpec) (c : Ctx) (s : State) : State :=
  match sp.arms c (sp.powered c s) with
  | none => run (sp.effect c) (sp.powered c s)
  | some x => run (setJournal fun j => j ++ [sp.armedEntry c x (sp.powered c s)]) (run (sp.effect c) (sp.powered c s))

/-- What is left of a command that completes at once, once it is effected. -/
def CmdSpec.answer (sp : CmdSpec) (m : MbId) (r : Req) (c : Ctx) (s : State) : Prog := block [
  (deliver c (sp.results c (sp.powered c s))).1,
  respond m sp.cls sp.code r 1 0 c.tgt.nid (deliver c (sp.results c (sp.powered c s))).2]

theorem Executes.run_answer (h : Executes sp m r s c) (pends : sp.pends = none) :
    run (sp.issue m r) s = run (sp.answer m r c s) (sp.effected c s) := by
  cases arms : sp.arms c (sp.powered c s) with
  | none => rw [h.run_done pends arms]; simp only [CmdSpec.answer, CmdSpec.effected, arms, run_block_cons, run_block_nil]
  | some x => rw [h.run_armed pends arms]; simp only [CmdSpec.answer, CmdSpec.effected, arms, run_block_cons, run_block_nil]

theorem Executes.within_answer (h : Executes sp m r s c) {F : Foot} (serves : F.Serves m) : (sp.answer m r c s).Within F :=
  within_cons.mpr ⟨serves.deliver c _, within_cons.mpr ⟨serves.respond h.served _ _ _ _ _ _ _, within_nil⟩⟩

theorem Executes.done (h : Executes sp m r s c) (pends : sp.pends = none) : Done m 0 (run (sp.issue m r) s) := by
  rw [h.run_answer pends, CmdSpec.answer, run_block_cons, run_block_cons, run_block_nil]
  exact respond_done h.served _ _ _ _ (by decide) _ _ _

/-- A command that names no result region is answered with its results. -/
theorem Executes.replied (h : Executes sp m r s c) (pends : sp.pends = none) (region : c.has 0xF004 = false) :
    Replied sp m r c.tgt.nid 0 (sp.results c (sp.powered c s)) (run (sp.issue m r) s) := by
  have plain (ts : List Tlv) : deliver c ts = (.skip, ts) := by simp [deliver, region]
  rw [h.run_answer pends, CmdSpec.answer, plain, run_block_cons, run_block_cons, run_block_nil]
  exact respond_replied h.served _ (by decide) _ _ _

/-- A field beside the mailbox reads after the answer as its effect left it. -/
theorem Executes.get (h : Executes sp m r s c) (pends : sp.pends = none) {f : Fld} (off : f.OffMailbox) :
    (run (sp.issue m r) s).get f = (run (sp.effect c) (sp.powered c s)).get f := by
  rw [h.run_answer pends, (h.within_answer (sparing_serves off m)).spared]
  unfold CmdSpec.effected
  split <;> rfl

/-- A part of the device beside the mailbox and the journal is after the answer as its effect left it. -/
theorem Executes.dev (h : Executes sp m r s c) (pends : sp.pends = none) {β : Type} {g : Dev → β} (off : OffMailbox g)
    (journal : ∀ d l, g { d with journal := l } = g d) :
    g (run (sp.issue m r) s).dev = g (run (sp.effect c) (sp.powered c s)).dev := by
  rw [h.run_answer pends, (h.within_answer (sparingDev_serves off m)).sparedDev]
  unfold CmdSpec.effected
  split
  · rfl
  · exact journal _ _

end Answer

end Sys2Proof.Machine
end


section
/-! Every mailbox command that passes its checks is carried out (R136, R143, R147). -/

namespace Sys2Proof.Machine
open Reg

/-- Powering a target writes registers only. -/
theorem within_powerTarget {F : Foot} (regs : ∀ a, F.reg a) (k : NodeKind) : (powerTarget k).Within F := by
  have cluster (c : Nat) : (powerCluster c).Within F := fun s => by
    dsimp only
    split <;> simp [setDomain, setState, regs]
  have pipe (p : Nat) : (powerPipe p).Within F := by
    simp [powerPipe, cluster, setDomain, setState, regs]
  cases k <;> simp [powerTarget, cluster, pipe]

section
variable {sp : CmdSpec} {m : MbId} {r : Req} {s : State} {c : Ctx}

theorem Executes.powered_dev (h : Executes sp m r s c) {β : Type} {g : Dev → β} (off : OffMailbox g) : g (sp.powered c s).dev = g s.dev := by
  have power : (when sp.powers (powerTarget c.tgt.kind)).Within (sparingDev g) :=
    within_when.mpr fun _ => within_powerTarget (fun _ => trivial) _
  rw [← h.run_power, power.sparedDev, sp.taken_dev r h.1 off]

theorem offMailbox_journal : OffMailbox Dev.journal := ⟨fun _ _ _ _ _ _ => rfl, fun _ _ => rfl, fun _ _ _ => rfl⟩

/-- The journal holds the entry of a command that completes later when its effect begins. -/
theorem Executes.answered_journal (h : Executes sp m r s c) (b : Nat) :
    (sp.answered c b s).dev.journal = s.dev.journal ++ [sp.pendingEntry c b (sp.powered c s)] := by
  have answer := (sparingDev_serves offMailbox_journal m).respond h.served sp.cls sp.code c.req 1 1 c.tgt.nid (sp.early c (sp.powered c s))
  rw [CmdSpec.answered, h.mb, answer.sparedDev]
  exact congrArg (· ++ [sp.pendingEntry c b (sp.powered c s)]) (h.powered_dev offMailbox_journal)

theorem Executes.answered_replied (h : Executes sp m r s c) (b : Nat) :
    Replied sp m r c.tgt.nid 1 (sp.early c (sp.powered c s)) (sp.answered c b s) := by
  rw [CmdSpec.answered, h.mb, h.req]
  exact respond_replied h.served _ (by decide) _ _ _

/-- The registers that a mailbox's answer may write. -/
def answerFoot (m : MbId) : Foot where
  reg a := Told a ∨ (m.base + 0x800 ≤ a ∧ a < m.base + 0x1000) ∨ BusWord a

theorem answerFoot_serves (m : MbId) : (answerFoot m).Serves m where
  reg _ := .inl
  dev _ _ := trivial
  out := trivial
  byte _ := trivial
  word _ _ lo hi := .inr (.inl ⟨lo, hi⟩)
  bus _ bus := .inr (.inr bus)
  tw _ := trivial

theorem Executes.answered_reg (h : Executes sp m r s c) (b : Nat) {a : Nat} (untold : ¬ Told a)
    (apart : a < m.base + 0x800 ∨ m.base + 0x1000 ≤ a) (offBus : ¬ BusWord a) : (sp.answered c b s).reg a = (sp.powered c s).reg a := by
  have answer := (answerFoot_serves m).respond h.served sp.cls sp.code c.req 1 1 c.tgt.nid (sp.early c (sp.powered c s))
  have untouched : ¬ (answerFoot m).reg a := fun x => x.elim untold fun y => y.elim (by omega) offBus
  rw [CmdSpec.answered, h.mb, answer.reg untouched]
  rfl

end

/-- Settles O8: a command's row runs its description in the state in which it is taken, and the answer leaves its effect alone. -/
theorem commandsExecute : Obligations.CommandsExecute := by
  unfold Obligations.CommandsExecute
  constructor
  · intro i sp m r s c cmd h pends _
    refine answers_next (exec_command cmd s) ⟨?_, _, rfl, fun arms => ?_⟩
    · rw [h.run_answer pends, CmdSpec.answer, run_block_cons, run_block_cons, run_block_nil]
      exact respond_replied h.served _ (by decide) _ _ _
    · rw [h.run_done pends arms, run_block_cons, run_block_cons, run_block_nil]
  · intro i sp m r s c b cmd h pends _
    have journal := h.answered_journal b
    refine ⟨sp.answered c b s, h.answered_replied b, ⟨sp.pendingEntry c b (sp.powered c s), by simp [journal], h.take, rfl, h.req, h.mb⟩,
      by simp [journal], fun a untold apart offBus => h.answered_reg b untold apart offBus,
      answers_next (exec_command cmd s) (h.run_pending pends)⟩

end Sys2Proof.Machine
end


section
/-! The acquisition commands (class 0x05): what each leaves in the registers, the time base and the PTP state (R243 to R268). -/

namespace Sys2Proof.Machine
open Reg

/-! Register words that a command returns. -/

/-- A word whose reading is its register's alone. -/
structure PlainWord (a : Nat) : Prop where
  header : a < 0x01100000 ∨ 0x01140000 ≤ a
  status : a ≠ 0x01600004
  queues : a ≠ 0x01300048 ∧ a ≠ 0x01310048
  register : isMemory a = false
  low : a < 0x10000000000

theorem word_plain {a : Nat} (h : PlainWord a) (s : State) : s.word a = (s.reg a).toNat := by
  obtain ⟨header, status, ⟨q0, q1⟩, register, low⟩ := h
  have whole : s.damaged a = false := by simp only [State.damaged, ← Bool.not_eq_true, Bool.and_eq_true, decide_eq_true_eq]; omega
  simp only [State.word, whole, register, status, q0, q1, Bool.false_eq_true, if_false, false_or]
  rw [if_neg (by omega), if_neg (by omega), if_neg (by omega), if_neg (by omega)]

theorem words_congr {s t : State} {a n : Nat} (aligned : a % 4 = 0) (h : ∀ k < n, t.word (a + 4 * k) = s.word (a + 4 * k)) :
    t.words a n = s.words a n := by
  have from_ : a / 4 * 4 = a := by omega
  have count : (a + 4 * n - a + 3) / 4 = n := by omega
  simp only [State.words, State.peek, from_, count]
  refine congrArg (slice · (a - a) (4 * n)) (List.flatMap_congr fun k hk => ?_)
  rw [h k (List.mem_range.mp hk)]

/-- Register words read as before when a request is taken. -/
theorem CmdSpec.taken_words (sp : CmdSpec) {m : MbId} (r : Req) {s : State} (h : Ready m s) {a n : Nat} (aligned : a % 4 = 0)
    (low : 0x804 < a) (plain : ∀ k < n, PlainWord (a + 4 * k)) : (sp.taken m r s).words a n = s.words a n := by
  refine words_congr aligned fun k hk => ?_
  have := (plain k hk).low
  rw [word_plain (plain k hk), word_plain (plain k hk), sp.taken_reg r h (ne_mbxWord m (by omega) (by omega))]

/-- The words of the blocks between the node headers and the S-world registers, apart from the streams' and the two-wire target's. -/
theorem plainWord_block {a : Nat} (lo : 0x01140000 ≤ a) (hi : a < 0x02400000) (streams : a < 0x01300000 ∨ 0x01320000 ≤ a)
    (bus : a < 0x01600000 ∨ 0x01608000 ≤ a) : PlainWord a where
  header := by omega
  status := by omega
  queues := by omega
  register := by simp only [isMemory, ← Bool.not_eq_true, Bool.or_eq_true, Bool.and_eq_true, decide_eq_true_eq]; omega
  low := by omega

/-! Fields beside the mailboxes. -/

/-- The registers of acquisition timing lie beside the mailboxes. -/
theorem offMailbox_timing {f : Fld} (w : f.width ≤ 32) (lo : 0x01500000 ≤ f.addr) (hi : f.addr < 0x01600000) : f.OffMailbox :=
  ⟨w, by omega, by omega, by simp only [Told]; omega, by simp only [BusWord]; omega⟩

theorem keeps_set_apart {f g : Fld} {v : Nat} (hf : f.width ≤ 32) (hg : g.Whole)
    (h : g.addr ≠ f.addr ∨ g.lo + g.width ≤ f.lo ∨ f.lo + f.width ≤ g.lo) : Keeps (fun s => s.get g) (set f v) :=
  fun _ => get_set_apart hf hg h

/-- A field that is set, and then left alone, reads as it was set. -/
theorem get_set_then {f : Fld} {v : Nat} {p : Prog} (w : f.Whole) (h : Keeps (fun s => s.get f) p) (s : State) :
    (run p (run (set f v) s)).get f = v % 2 ^ f.width := (h _).trans (get_set_same f v s w)

theorem Prog.Within.keepsGet {f : Fld} {p : Prog} (h : p.Within (sparing f)) : Keeps (fun s => s.get f) p := h.spared

theorem leVal_lt (bs : List Byte) : leVal bs < 256 ^ bs.length := by
  induction bs with
  | nil => simp [leVal]
  | cons b bs ih =>
    have := b.isLt
    simp only [leVal, List.length_cons, pow_succ]
    omega

theorem leAt_lt (bs : List Byte) (o n : Nat) : leAt bs o n < 256 ^ n := by
  have := leVal_lt (slice bs o n)
  have length : (slice bs o n).length = n := by simp [slice]; omega
  rwa [length] at this

/-- A command that powers nothing and names no result region is answered with its results, as they stand when it is taken. -/
theorem Executes.replied_with {sp : CmdSpec} {m : MbId} {r : Req} {c : Ctx} {s : State} (h : Executes sp m r s c) (pends : sp.pends = none)
    (powers : sp.powers = false) (region : c.has 0xF004 = false) {ts : List Tlv} (results : sp.results c (sp.taken m r s) = ts) :
    Replied sp m r c.tgt.nid 0 ts (run (sp.issue m r) s) := by
  rw [← results, ← h.powered_taken powers]
  exact h.replied pends region

/-! Encoders. -/

theorem enc_whole (e : Fin 4) : (Enc.interpMax e).Whole ∧ (Enc.winLoL e).Whole ∧ (Enc.winHiL e).Whole ∧ (Enc.posLo e).Whole ∧ (Enc.posHi e).Whole := by
  revert e; decide

/-- Whether a meaning may write a word when it spares a field of at most 32 bits. -/
theorem sparing_narrow {f : Fld} (w : f.width ≤ 32) (a : Nat) : (sparing f).reg a ↔ a ≠ f.addr :=
  ⟨And.left, fun h => ⟨h, fun wide => absurd w (by omega)⟩⟩

/-- The wake of a window check writes the mode's word only. -/
theorem sparing_wake {f : Fld} (w : f.width ≤ 32) (h : f.addr ≠ 0x01000100) (i : Nat) : (wake i).Within (sparing f) := by
  have : 0x01000100 ≠ f.addr := Ne.symm h
  refine within_look.mpr fun s => ?_
  split
  · trivial
  split
  · simp [ModeReg.target, ModeReg.pending, ModeReg.wakeSrc, sparing_narrow w, this, -sparing_reg]
  split
  · simp [setPwr]
  · trivial

/-- A window check writes its flag and its flag's counter, and leaves the encoder's other registers alone. -/
theorem windowCheck_keeps {e d : Nat} (he : e < 4) {f : Fld} (w : f.width ≤ 32) (at_ : f.addr = 0x01501000 + 0x100 * e + d) (hd : d < 0x40)
    (was : Bool) : Keeps (fun s => s.get f) (windowCheck e was) := by
  have tells : (sparing f).Tells := sparing_tells (by simp only [Told]; omega) (.inl w)
  refine Prog.Within.keepsGet ?_
  simp [windowCheck, Enc.windowExit, sparing_narrow w, -sparing_reg, tells.raise, sparing_wake w (by omega : f.addr ≠ 0x01000100), at_]
  omega

section
variable {m : MbId} {r : Req} {c : Ctx} {s : State}

/-- The registers that ENC_CONFIG with both bounds of the window and a limit of interpolation sets. -/
def encSets (c : Ctx) : Prog := block [
  when (c.has 2) (setReg (0x01501000 + 0x100 * c.val 1) (BitVec.ofNat 32 (c.val 2))), set (Enc.interpMax (c.val 1)) (c.val 3),
  set (Enc.winLoL (c.val 1)) (c.val 4), set (Enc.winLoH (c.val 1)) (c.val 4 / 0x100000000),
  set (Enc.winHiL (c.val 1)) (c.val 5), set (Enc.winHiH (c.val 1)) (c.val 5 / 0x100000000)]

theorem encConfig_sets (h : Executes specEncConfig m r s c) (h3 : c.has 3 = true) (h4 : c.has 4 = true) (h5 : c.has 5 = true) :
    Answers (.encConfig m r) s fun t => Done m 0 t ∧ t.get (Enc.interpMax (c.val 1)) = c.val 3
      ∧ t.get (Enc.winLoL (c.val 1)) = c.val 4 % 0x100000000 ∧ t.get (Enc.winHiL (c.val 1)) = c.val 5 % 0x100000000
      ∧ t.position (c.val 1) = s.position (c.val 1) := by
  have keys := h.checked.2.1
  have he : c.val 1 < 4 := Nat.lt_succ_of_le (Ctx.required_range keys (k := 1) rfl rfl (by decide)).2
  have h3' : c.val 3 < 2 ^ 24 := Nat.lt_succ_of_le (Ctx.val_range keys (k := 3) rfl (by decide) h3).2
  obtain ⟨wi, wl, wh, wp, wq⟩ := enc_whole ⟨c.val 1, he⟩
  have keys_set (u : State) : run (specEncConfig.effect c) u = run (windowCheck (c.val 1) (u.inWindow (c.val 1) (u.position (c.val 1))))
      (run (encSets c) u) := by
    simp only [specEncConfig, encSets, setKey, h3, h4, h5, run_look', run_block_cons, run_block_nil, run_when_true]
  have read {f : Fld} {d : Nat} (w : f.width ≤ 32) (at_ : f.addr = 0x01501000 + 0x100 * c.val 1 + d) (hd : d < 0x40) :
      (run (specEncConfig.issue m r) s).get f = (run (encSets c) (specEncConfig.powered c s)).get f := by
    rw [h.get rfl (offMailbox_timing w (by omega) (by omega)), keys_set, (windowCheck_keeps he w at_ hd _).get]
  have config {f : Fld} {d : Nat} (w : f.width ≤ 32) (at_ : f.addr = 0x01501000 + 0x100 * c.val 1 + d) (hd : 0 < d) (u : State) :
      (run (when (c.has 2) (setReg (0x01501000 + 0x100 * c.val 1) (BitVec.ofNat 32 (c.val 2)))) u).get f = u.get f :=
    Prog.Within.spared (by simp [sparing_narrow w, -sparing_reg]; omega) u
  have sets : (run (encSets c) (specEncConfig.powered c s)).get (Enc.interpMax (c.val 1)) = c.val 3 % 2 ^ 24
      ∧ (run (encSets c) (specEncConfig.powered c s)).get (Enc.winLoL (c.val 1)) = c.val 4 % 2 ^ 32
      ∧ (run (encSets c) (specEncConfig.powered c s)).get (Enc.winHiL (c.val 1)) = c.val 5 % 2 ^ 32
      ∧ (run (encSets c) (specEncConfig.powered c s)).get (Enc.posLo (c.val 1)) = s.get (Enc.posLo (c.val 1))
      ∧ (run (encSets c) (specEncConfig.powered c s)).get (Enc.posHi (c.val 1)) = s.get (Enc.posHi (c.val 1)) := by
    simp only [encSets, run_block_cons, run_block_nil]
    simp (disch := first | assumption | (refine id ?_; dsimp only [Enc.interpMax, Enc.winLoL, Enc.winLoH, Enc.winHiL, Enc.winHiH, Enc.posLo, Enc.posHi]; omega) | fail)
      only [get_set_apart, get_set_same]
    have was {f : Fld} (off : f.OffMailbox) : (specEncConfig.powered c s).get f = s.get f := by
      rw [h.powered_taken rfl, specEncConfig.taken_get r h.1 off]
    refine ⟨rfl, rfl, rfl, (config (Nat.le_refl 32) rfl (by decide) _).trans (was ?_),
      (config (by simp [Enc.posHi]) rfl (by decide) _).trans (was ?_)⟩
    · exact offMailbox_timing (Nat.le_refl 32) (by simp only [Enc.posLo]; omega) (by simp only [Enc.posLo]; omega)
    · exact offMailbox_timing (by simp [Enc.posHi]) (by simp only [Enc.posHi]; omega) (by simp only [Enc.posHi]; omega)
  obtain ⟨interp, lo, hi, posLo, posHi⟩ := sets
  refine answers_next rfl ⟨h.done rfl, ?_⟩
  refine ⟨(read (by simp [Enc.interpMax]) rfl (by decide)).trans (interp.trans (Nat.mod_eq_of_lt h3')),
    (read (Nat.le_refl 32) rfl (by decide)).trans lo, (read (Nat.le_refl 32) rfl (by decide)).trans hi, ?_⟩
  rw [State.position, State.position, read (Nat.le_refl 32) rfl (by decide), posLo, read (by simp [Enc.posHi]) rfl (by decide), posHi]

theorem encRead_replies (h : Executes specEncRead m r s c) :
    Answers (.encRead m r) s fun t => Replied specEncRead m r c.tgt.nid 0 [⟨6, s.words (0x01501008 + 0x100 * c.val 1) 16⟩] t := by
  have keys := h.checked.2.1
  have he := (Ctx.required_range keys (k := 1) rfl rfl (by decide)).2
  simp only [needAny] at he
  refine answers_next rfl (h.replied_with rfl rfl (Ctx.lacks_unknown keys rfl (by decide)) ?_)
  have results (s : State) : specEncRead.results c s = [⟨6, s.words (0x01501008 + 0x100 * c.val 1) 16⟩] := by
    rw [show 0x01501008 + 0x100 * c.val 1 = 0x01501000 + 0x100 * c.val 1 + 8 by omega]; rfl
  rw [results, specEncRead.taken_words r h.1 (by omega) (by omega) fun k hk => plainWord_block (by omega) (by omega) (by omega) (by omega)]

/-- A 48-bit number is its low word and the 16 bits above. -/
theorem signed48_halves (z : Int) (n : Nat) (h : z = signed 48 n) :
    signed 48 (unsigned 48 z % 2 ^ 32 + 0x100000000 * (unsigned 48 z / 0x100000000 % 2 ^ 16)) = signed 48 n := by
  have same : unsigned 48 z = n % 2 ^ 48 := by
    rw [h]
    simp only [signed, unsigned]
    split <;> omega
  rw [same]
  simp only [signed]
  congr 2 <;> omega

theorem encSet_sets (h : Executes specEncSet m r s c) :
    Answers (.encSet m r) s fun t => Done m 0 t ∧ t.position (c.val 1) = signed 48 (c.val 7) := by
  have keys := h.checked.2.1
  have he : c.val 1 < 4 := Nat.lt_succ_of_le (Ctx.required_range keys (k := 1) rfl rfl (by decide)).2
  obtain ⟨-, -, -, wp, wq⟩ := enc_whole ⟨c.val 1, he⟩
  refine answers_next rfl ⟨h.done rfl, ?_⟩
  have read {f : Fld} {d : Nat} (w : f.width ≤ 32) (at_ : f.addr = 0x01501000 + 0x100 * c.val 1 + d) (hd : d < 0x40) :
      (run (specEncSet.issue m r) s).get f = (run (putPosition (c.val 1) (signed 48 (c.val 7))) (specEncSet.powered c s)).get f := by
    rw [h.get rfl (offMailbox_timing w (by omega) (by omega)), specEncSet]
    simp only [run_look', run_block_cons, run_block_nil]
    exact (windowCheck_keeps he w at_ hd _).get _
  rw [State.position, read (Nat.le_refl 32) rfl (by decide), read (by simp [Enc.posHi]) rfl (by decide), putPosition,
    run_block_cons, run_block_cons, run_block_nil, get_set_same _ _ _ wq,
    get_set_apart (by simp [Enc.posHi]) wp (.inl (by simp [Enc.posLo, Enc.posHi])), get_set_same _ _ _ wp]
  exact signed48_halves _ _ rfl

end

end Sys2Proof.Machine
end


section
/-! The acquisition commands of triggers and of the time base (R238 to R249, R254, R255). -/

namespace Sys2Proof.Machine
open Reg

section
variable {m : MbId} {r : Req} {c : Ctx} {s : State}

/-! Trigger generators. -/

theorem trig_whole (i : Fin 16) : (Trig.source i).Whole ∧ (Trig.dir i).Whole ∧ (Trig.pitchFrac i).Whole ∧ (Trig.pitchInt i).Whole
    ∧ (Trig.trigDelay i).Whole ∧ (Trig.minPeriod i).Whole := by
  revert i; decide

/-- What TRIGGER_SET does with a phase and a list of heads. -/
def trigTail (c : Ctx) : Prog := block [
  when (c.has 0x16) (block [
    resetRegs (0x01512000 + 0x4000 * c.val 0x10) 0x2000,
    forEach (numbered (c.elems 0x16 32)) fun e => putWords (0x01512000 + 0x4000 * c.val 0x10 + 0x20 * e.2) (e.1.take 24),
    set (Trig.offsetBase (c.val 0x10)) (offsetBase (c.elems 0x16 32))])]

/-- The list of heads lies above a generator's own registers. -/
theorem trigTail_keeps {f : Fld} {d : Nat} (w : f.width ≤ 32) (at_ : f.addr = 0x01510000 + 0x4000 * c.val 0x10 + d) (hd : d < 0x30) :
    Keeps (fun s => s.get f) (trigTail c) := by
  refine Prog.Within.keepsGet ?_
  have above {a : Nat} (h : 0x01512000 + 0x4000 * c.val 0x10 ≤ a) : (sparing f).reg a := (sparing_narrow w a).mpr (by omega)
  have reset : (resetRegs (0x01512000 + 0x4000 * c.val 0x10) 0x2000).Within (sparing f) := fun s => within_forEach.mpr fun a ha => by
    obtain ⟨x, hx, rfl⟩ := List.mem_map.mp ha
    have := (List.mem_filter.mp hx).2
    simp only [Bool.and_eq_true, decide_eq_true_eq] at this
    exact within_setReg.mpr (above this.1)
  have heads : (forEach (numbered (c.elems 0x16 32)) fun e => putWords (0x01512000 + 0x4000 * c.val 0x10 + 0x20 * e.2) (e.1.take 24)).Within
      (sparing f) := within_forEach.mpr fun e _ => within_forEach.mpr fun k _ => within_setReg.mpr (above (by omega))
  have base : (sparing f).reg (Trig.offsetBase (c.val 0x10)).addr := (sparing_narrow w _).mpr (by simp only [Trig.offsetBase]; omega)
  simp only [trigTail, within_cons, within_when, within_nil, within_set, reset, heads, base, and_true, true_and]
  exact fun _ wide => absurd wide (by simp [Trig.offsetBase])

/-- What TRIGGER_SET does with the keys that set a generator's own registers. -/
def trigBody (c : Ctx) : Prog := block [
  when (c.has 0x11) (block [set (Trig.source (c.val 0x10)) (c.val 0x11 / 2), set (Trig.dir (c.val 0x10)) (c.val 0x11 / 16),
    set (Trig.pin (c.val 0x10)) (c.val 0x11 / 32)]),
  when (c.has 0x12) (block [set (Trig.pitchFrac (c.val 0x10)) (c.val 0x12), set (Trig.pitchInt (c.val 0x10)) (c.val 0x12 / 0x100000000)]),
  when (c.has 0x13) (block [set (Trig.phaseFrac (c.val 0x10)) (c.val 0x13), set (Trig.phaseInt (c.val 0x10)) (c.val 0x13 / 0x100000000)]),
  setKey c 0x14 (Trig.trigDelay (c.val 0x10)), setKey c 0x15 (Trig.minPeriod (c.val 0x10))]

theorem triggerSet_sets (h : Executes specTriggerSet m r s c) (h11 : c.has 0x11 = true) (h12 : c.has 0x12 = true) (h14 : c.has 0x14 = true)
    (h15 : c.has 0x15 = true) :
    Answers (.triggerSet m r) s fun t => Done m 0 t
      ∧ t.get (Trig.source (c.val 0x10)) = c.val 0x11 / 2 % 8 ∧ t.get (Trig.dir (c.val 0x10)) = c.val 0x11 / 16 % 2
      ∧ t.get (Trig.pitchFrac (c.val 0x10)) = c.val 0x12 % 0x100000000 ∧ t.get (Trig.pitchInt (c.val 0x10)) = c.val 0x12 / 0x100000000 % 0x100000000
      ∧ t.get (Trig.trigDelay (c.val 0x10)) = c.val 0x14 ∧ t.get (Trig.minPeriod (c.val 0x10)) = c.val 0x15 := by
  have keys := h.checked.2.1
  have hi : c.val 0x10 < 16 := Nat.lt_succ_of_le (Ctx.required_range keys (k := 0x10) rfl rfl (by decide)).2
  have delay : c.val 0x14 < 2 ^ 16 := Nat.lt_succ_of_le (Ctx.val_range keys (k := 0x14) rfl (by decide) h14).2
  have period : c.val 0x15 < 2 ^ 24 := Nat.lt_succ_of_le (Ctx.val_range keys (k := 0x15) rfl (by decide) h15).2
  obtain ⟨ws, wd, wf, wi, wt, wm⟩ := trig_whole ⟨c.val 0x10, hi⟩
  refine answers_next rfl ⟨h.done rfl, ?_⟩
  have read {f : Fld} {d : Nat} (w : f.width ≤ 32) (at_ : f.addr = 0x01510000 + 0x4000 * c.val 0x10 + d) (hd : d < 0x30) :
      (run (specTriggerSet.issue m r) s).get f = (run (trigBody c) (specTriggerSet.powered c s)).get f := by
    have split (u : State) : run (specTriggerSet.effect c) u = run (trigTail c) (run (trigBody c) u) := by
      simp only [specTriggerSet, trigTail, trigBody, run_block_cons, run_block_nil]
    rw [h.get rfl (offMailbox_timing w (by omega) (by omega)), split, (trigTail_keeps w at_ hd).get]
  rw [read (d := 0) (by simp [Trig.source]) rfl (by decide), read (d := 0) (by simp [Trig.dir]) rfl (by decide), read (by simp [Trig.pitchFrac]) rfl (by decide),
    read (by simp [Trig.pitchInt]) rfl (by decide), read (by simp [Trig.trigDelay]) rfl (by decide), read (by simp [Trig.minPeriod]) rfl (by decide)]
  cases h13 : c.has 0x13
  all_goals
    simp only [trigBody, setKey, h11, h12, h13, h14, h15, run_block_cons, run_block_nil, run_when_true, run_when_false]
    simp (disch := first | assumption | (refine id ?_; dsimp only [Trig.source, Trig.dir, Trig.pin, Trig.pitchFrac, Trig.pitchInt,
      Trig.phaseFrac, Trig.phaseInt, Trig.trigDelay, Trig.minPeriod]; omega) | fail) only [get_set_apart, get_set_same]
    exact ⟨rfl, rfl, rfl, rfl, Nat.mod_eq_of_lt delay, Nat.mod_eq_of_lt period⟩

/-- Which heads of a generator are valid is as before when a request is taken. -/
theorem CmdSpec.taken_heads (sp : CmdSpec) (ready : Ready m s) {i : Nat} (hi : i < 16) : (sp.taken m r s).heads i = s.heads i := by
  refine List.filter_congr fun h hh => ?_
  have := List.mem_range.mp hh
  rw [State.on, State.on, sp.taken_get r ready (offMailbox_timing (by simp [Head.valid]) (by simp only [Head.valid]; omega)
    (by simp only [Head.valid]; omega))]

theorem triggerStatus_replies (h : Executes specTriggerStatus m r s c) (region : c.has 0xF004 = false) :
    Answers (.triggerStatus m r) s fun t => Replied specTriggerStatus m r c.tgt.nid 0 [⟨0x17, s.words (0x01510000 + 0x4000 * c.val 0x10) 17⟩,
      ⟨0x18, (s.heads (c.val 0x10)).flatMap fun h => s.words (0x01512018 + 0x4000 * c.val 0x10 + 0x20 * h) 2⟩] t := by
  have hi : c.val 0x10 < 16 := Nat.lt_succ_of_le (Ctx.required_range h.checked.2.1 (k := 0x10) rfl rfl (by decide)).2
  refine answers_next rfl (h.replied_with rfl rfl region ?_)
  have results (s : State) : specTriggerStatus.results c s = [⟨0x17, s.words (0x01510000 + 0x4000 * c.val 0x10) 17⟩,
      ⟨0x18, (s.heads (c.val 0x10)).flatMap fun h => s.words (0x01512018 + 0x4000 * c.val 0x10 + 0x20 * h) 2⟩] := by
    have offset (h : Nat) : 0x01512018 + 0x4000 * c.val 0x10 + 0x20 * h = 0x01512000 + 0x4000 * c.val 0x10 + 0x20 * h + 0x18 := by omega
    simp only [offset]; rfl
  have own := specTriggerStatus.taken_words r h.1 (a := 0x01510000 + 0x4000 * c.val 0x10) (n := 17) (by omega) (by omega)
    fun k hk => plainWord_block (by omega) (by omega) (by omega) (by omega)
  have heads (x : Nat) (hx : x ∈ s.heads (c.val 0x10)) : (specTriggerStatus.taken m r s).words (0x01512018 + 0x4000 * c.val 0x10 + 0x20 * x) 2
      = s.words (0x01512018 + 0x4000 * c.val 0x10 + 0x20 * x) 2 := by
    have := List.mem_range.mp (List.mem_filter.mp hx).1
    exact specTriggerStatus.taken_words r h.1 (by omega) (by omega) fun k hk => plainWord_block (by omega) (by omega) (by omega) (by omega)
  rw [results, own, specTriggerStatus.taken_heads h.1 hi, List.flatMap_congr heads]

/-! A command that completes later. -/

/-- What the answer to a command that completes later leaves in its mailbox and in the journal. -/
abbrev Accepting (m : MbId) (r : Req) (take : Nat) (t : State) : Prop :=
  Done m 1 t ∧ ∃ e ∈ t.dev.journal, e.seq = take ∧ e.phase = .pending ∧ e.req = r

theorem Executes.accepting {sp : CmdSpec} (h : Executes sp m r s c) (b : Nat) : Accepting m r c.take (sp.answered c b s) :=
  ⟨(h.answered_replied b).1, sp.pendingEntry c b (sp.powered c s), by simp [h.answered_journal b], rfl, rfl, h.req⟩

theorem linkLatency_accepted (h : Executes specLinkLatency m r s c) :
    Answers (.linkLatency m r) s fun t => (Done m 1 t ∧ ∃ e ∈ t.dev.journal, e.seq = c.take ∧ e.phase = .pending ∧ e.req = r)
      ∧ .latencyEcho (c.val 1) ∈ t.out := by
  refine answers_next rfl ?_
  rw [h.run_pending rfl]
  have accepting := h.accepting 10000
  generalize specLinkLatency.answered c 10000 s = u at *
  refine ⟨?_, List.mem_cons_self ..⟩
  cases m <;> exact accepting

/-! The time base. -/

theorem time_offMailbox : TimeReg.secLo.OffMailbox ∧ TimeReg.secHi.OffMailbox ∧ TimeReg.ns.OffMailbox ∧ TimeReg.frac.OffMailbox :=
  ⟨offMailbox_timing (by decide) (by decide) (by decide), offMailbox_timing (by decide) (by decide) (by decide),
    offMailbox_timing (by decide) (by decide) (by decide), offMailbox_timing (by decide) (by decide) (by decide)⟩

theorem CmdSpec.taken_now (sp : CmdSpec) (ready : Ready m s) : (sp.taken m r s).now = s.now := by
  obtain ⟨lo, hi, ns, -⟩ := time_offMailbox
  rw [State.now, State.now, sp.taken_get r ready lo, sp.taken_get r ready hi, sp.taken_get r ready ns]

theorem timeRead_replies (h : Executes specTimeRead m r s c) :
    Answers (.timeRead m r) s fun t => Replied specTimeRead m r c.tgt.nid 0 [⟨0x30, s.time12⟩, ⟨0x31, s.words 0x01500018 1⟩] t := by
  refine answers_next rfl (h.replied_with rfl rfl (Ctx.lacks_unknown h.checked.2.1 rfl (by decide)) ?_)
  have results (s : State) : specTimeRead.results c s = [⟨0x30, s.time12⟩, ⟨0x31, s.words 0x01500018 1⟩] := rfl
  rw [results, State.time12, specTimeRead.taken_now h.1, specTimeRead.taken_get r h.1 time_offMailbox.2.2.2, State.time12,
    specTimeRead.taken_words r h.1 (by decide) (by decide) fun k hk => plainWord_block (by omega) (by omega) (by omega) (by omega)]

/-- What a time step does once the new time stands: it says so, and brings the alarm and the pulse units after it. -/
def stepAfter (old ns : Nat) : Prog := block [
  setTime fun t => { t with low := 0 }, setFlag TimeReg.stepped,
  raise 5 0x0C 1 (zeros 8 ++ leBytes 8 (unsigned 64 (sat ((ns : Int) - old) (-(2 ^ 63)) (2 ^ 63 - 1)))),
  passAlarm old ns, resumePulses]

theorem stepAfter_keeps {f : Fld} (w : f.width ≤ 32) (lo : 0x01500000 ≤ f.addr) (hi : f.addr < 0x01500010) (old ns : Nat) :
    Keeps (fun s => s.get f) (stepAfter old ns) := by
  have tells : (sparing f).Tells := sparing_tells (by simp only [Told]; omega) (.inl w)
  have apart {a : Nat} (h : a < 0x01500000 ∨ 0x01500010 ≤ a) : (sparing f).reg a := (sparing_narrow w a).mpr (by omega)
  have stepped : (setFlag TimeReg.stepped).Within (sparing f) := by
    simp [TimeReg.stepped, apart, -sparing_reg]
  have alarm : fireAlarm.Within (sparing f) := by
    simp [fireAlarm, TimeReg.alarmHit, apart, tells.raise, sparing_wake w (by omega : f.addr ≠ 0x01000100), -sparing_reg]
  have pulses : resumePulses.Within (sparing f) := by
    refine within_forEach.mpr fun u _ => within_look.mpr fun s => ?_
    split
    · trivial
    split
    · simp [setPulseNo]
    · have := apart (a := 0x01551000 + 0x40 * u) (.inr (by omega))
      simp [pulseDone, tells.raise, Pulse.enable, this, -sparing_reg]
  refine Prog.Within.keepsGet ?_
  simp [stepAfter, stepped, tells.raise, passAlarm, alarm, pulses]

/-- After a time step the time base holds the new time (R255). -/
theorem now_stepTime {sec ns : Nat} (hs : sec < 2 ^ 48) (hn : ns < 1000000000) (frac : Nat) (s : State) :
    (run (stepTime (sec * 1000000000 + ns) frac) s).now = sec * 1000000000 + ns := by
  have shape (t : Nat) : run (stepTime t frac) s = run (stepAfter s.now t) (run (putTime t frac) (run endSlew s)) := by
    simp only [stepTime, stepAfter, run_look', run_block_cons, run_block_nil]
  have keeps {f : Fld} (w : f.width ≤ 32) (lo : 0x01500000 ≤ f.addr) (hi : f.addr < 0x01500010) (u : State) :=
    (stepAfter_keeps w lo hi s.now (sec * 1000000000 + ns)).get u
  rw [shape, State.now, keeps (by decide) (by decide) (by decide), keeps (by decide) (by decide) (by decide),
    keeps (by decide) (by decide) (by decide), putTime]
  simp only [run_block_cons, run_block_nil]
  simp (disch := decide) only [get_set_apart, get_set_same]
  simp only [TimeReg.secLo, TimeReg.secHi, TimeReg.ns]
  omega

theorem timeSet_steps (h : Executes specTimeSet m r s c) (h30 : c.has 0x30 = true) (h35 : c.has 0x35 = false) :
    Answers (.timeSet m r) s fun t => Done m 0 t ∧ t.now = c.at 0x30 0 6 * 1000000000 + c.at 0x30 6 4 := by
  have valid : ¬ 1000000000 ≤ c.at 0x30 6 4 := fun bad => by
    have := h.checked.2.2.1
    simp [specTimeSet, h30, bad] at this
  obtain ⟨lo, hi, ns, -⟩ := time_offMailbox
  have effect (u : State) : run (specTimeSet.effect c) u = run (stepTime (c.at 0x30 0 6 * 1000000000 + c.at 0x30 6 4) (c.at 0x30 10 2)) u := by
    simp only [specTimeSet, h30, h35, run_block_cons, run_block_nil, run_when_true, run_when_false]
  refine answers_next rfl ⟨h.done rfl, ?_⟩
  rw [State.now, h.get rfl lo, h.get rfl hi, h.get rfl ns, effect]
  exact now_stepTime (leAt_lt _ 0 6) (by omega) _ _

theorem timeAdjust_ends (h : Executes specTimeAdjust m r s c) (h32 : c.has 0x32 = true) :
    Answers (.timeAdjust m r) s fun t => Done m 0 t ∧ t.dev.time.slew = none := by
  have h33 : c.has 0x33 = false := by
    have := h.checked.2.2.1
    by_contra both
    simp [specTimeAdjust, h32, both] at this
  have effect (u : State) : (run (specTimeAdjust.effect c) u).dev.time.slew = none := by
    simp only [specTimeAdjust, h32, h33, run_block_cons, run_block_nil, run_when_true, run_when_false, putAddend, set_dev]
    rfl
  refine answers_next rfl ⟨h.done rfl, ?_⟩
  rw [h.dev rfl (g := fun d => d.time.slew) ⟨fun _ _ _ _ _ _ => rfl, fun _ _ => rfl, fun _ _ _ => rfl⟩ fun _ _ => rfl, effect]

end

end Sys2Proof.Machine
end


section
/-! Power domains: switching one of them on or off leaves the others as they were (R68, R69). -/

namespace Sys2Proof.Machine
open Reg

/-- The bit of a power domain in the words that show which are on, or which are retained. -/
def domBit (base d : Nat) : Fld := ⟨base + 4 * (d / 32), d % 32, 1, 0⟩

theorem domBit_whole (d : Fin 93) : (domBit 0x1000200 d).Whole ∧ (domBit 0x1000220 d).Whole := by revert d; decide

theorem domainOn_iff (s : State) (d : Nat) : s.domainOn d = s.on (domBit 0x1000200 d) := by
  simp [State.domainOn, bit, State.on, get_narrow, Dom.domainOn, domBit, bits, Nat.mod_eq_of_lt (s.reg _).isLt]

theorem domainRet_iff (s : State) (d : Nat) : s.domainRet d = s.on (domBit 0x1000220 d) := by
  simp [State.domainRet, bit, State.on, get_narrow, Dom.domainRet, domBit, bits, Nat.mod_eq_of_lt (s.reg _).isLt]

/-- A field of a word that is written whole reads its bits of what was written. -/
theorem get_setWord {f : Fld} (whole : f.Whole) {a : Nat} (h : f.addr = a) (v : Nat) (s : State) :
    (run (set ⟨a, 0, 32, 0⟩ v) s).get f = bits v f.lo f.width := by
  have same (n : Nat) : putBits n 0 32 v % 2 ^ 32 = v % 2 ^ 32 := by simp only [putBits]; omega
  rw [run_set _ v s (Nat.le_refl 32), get_narrow _ f (by have := whole.1; omega), ← h, reg_setReg_same, bits_fit _ _ _ _ whole.2,
    BitVec.toNat_ofNat, same, bits_mod _ _ _ _ whole.1]

theorem get_setDomain {base d e : Nat} (he : (domBit base e).Whole) (on : Bool) (s : State) :
    (run (set ⟨base + 4 * (d / 32), 0, 32, 0⟩ (putBits (s.get ⟨base + 4 * (d / 32), 0, 32, 0⟩) (d % 32) 1 (boolNat on))) s).on (domBit base e)
      = if e = d then on else s.on (domBit base e) := by
  have old : s.get ⟨base + 4 * (d / 32), 0, 32, 0⟩ = (s.reg (base + 4 * (d / 32))).toNat := by
    simp [get_narrow, bits, Nat.mod_eq_of_lt (s.reg _).isLt]
  by_cases word : e / 32 = d / 32
  · rw [State.on, get_setWord he (by simp [domBit, word]), old]
    simp only [domBit]
    by_cases same : e = d
    · subst same
      rw [bits_putBits_same, if_pos rfl]
      cases on <;> rfl
    · have := Nat.mod_lt e (show 0 < 32 by decide)
      have := Nat.mod_lt d (show 0 < 32 by decide)
      rw [bits_putBits_other _ _ _ _ _ _ (by omega), if_neg same, State.on, get_narrow _ _ (by simp)]
      simp only [word]
  · rw [State.on, get_set_apart (Nat.le_refl 32) he (.inl (by simp only [domBit]; omega)), if_neg (by omega), State.on]

theorem domainOn_setDomain {d e : Nat} (he : e < 93) (on ret : Bool) (s : State) :
    (run (setDomain d on ret) s).domainOn e = if e = d then on else s.domainOn e := by
  have whole : (domBit 0x1000200 e).Whole := (domBit_whole ⟨e, he⟩).1
  simp only [setDomain, run_look, run_block_cons, run_block_nil]
  rw [domainOn_iff, domainOn_iff, ← get_setDomain whole on s, State.on,
    get_set_apart (Nat.le_refl 32) whole (.inl (by simp only [domBit, Dom.domainRet]; omega))]
  rfl

theorem domainRet_setDomain {d e : Nat} (he : e < 93) (hd : d < 93) (on ret : Bool) (s : State) :
    (run (setDomain d on ret) s).domainRet e = if e = d then ret else s.domainRet e := by
  have whole : (domBit 0x1000220 e).Whole := (domBit_whole ⟨e, he⟩).2
  have word (v : Nat) : (run (set (Dom.domainOn (d / 32)) v) s).get (Dom.domainRet (d / 32)) = s.get (Dom.domainRet (d / 32)) :=
    get_set_other _ _ _ _ (Nat.le_refl 32) (by simp only [Dom.domainOn, Dom.domainRet]; omega) (.inl (Nat.le_refl 32))
  have bit (v : Nat) : (run (set (Dom.domainOn (d / 32)) v) s).on (domBit 0x1000220 e) = s.on (domBit 0x1000220 e) := by
    simp only [State.on, get_set_apart (f := Dom.domainOn (d / 32)) (Nat.le_refl 32) whole (.inl (by simp only [domBit, Dom.domainOn]; omega))]
  simp only [setDomain, run_look, run_block_cons, run_block_nil]
  rw [domainRet_iff, domainRet_iff, ← word, ← bit]
  exact get_setDomain whole ret _

end Sys2Proof.Machine
end


section
/-! The acquisition commands of the time port, the timing pins, the pulse units and the alarm (R259 to R267), and class 0x05 as a whole. -/

namespace Sys2Proof.Machine
open Reg

section
variable {m : MbId} {r : Req} {c : Ctx} {s : State}

/-! The time port. -/

theorem offMailbox_ptp : OffMailbox Dev.ptp := ⟨fun _ _ _ _ _ _ => rfl, fun _ _ => rfl, fun _ _ _ => rfl⟩

/-- The settings of PTP_CONFIG, each that of its key or as it was. -/
def PtpSt.configured (c : Ctx) (p : PtpSt) : PtpSt :=
  { p with
    role := c.valD 0x40 p.role, rate := c.valD 0x41 p.rate, transport := c.valD 0x42 p.transport, peer := c.valD 0x43 (boolNat p.peer) == 1
    domain := c.valD 0x44 p.domain, intervals := c.valD 0x45 p.intervals, clock := c.valD 0x46 p.clock
    asym := if c.has 0x47 then signed 32 (c.val 0x47) else p.asym, oneStep := c.valD 0x48 (boolNat p.oneStep) == 1
    ipv4 := c.valD 0x49 p.ipv4, mac := if c.has 0x4A then c.bytes 0x4A else p.mac, vlan := c.valD 0x4B p.vlan
    threshold := c.valD 0x4C p.threshold }

/-- What PTP_CONFIG does when it gives a role. -/
def takeRole (role : Nat) : Prog := look fun s => block [
  setDomain 11 (role ≠ 0) false, set TimeReg.source role,
  setPtp fun p => { p with best := [], t1 := none, t2 := none, t3 := none, twoStepSeq := none },
  when (role ≠ 1 ∧ role ≠ 3) (setHoldover false),
  when (role = 0) (block [set TPort.pcsLock 0, set TPort.lineRate 0]),
  setPortState (if role = 0 then 3 else if !s.on TPort.pcsLock then 1 else if role = 1 then 4 else 6)]

theorem ptpConfig_effect (s : State) :
    run (specPtpConfig.effect c) s = run (when (c.has 0x40) (takeRole (c.val 0x40))) (run (setPtp (PtpSt.configured c)) s) := by
  simp only [specPtpConfig, run_block_cons, run_block_nil]; rfl

theorem ptpConfig_keeps_role (h : Executes specPtpConfig m r s c) (h41 : c.has 0x41 = true) (h44 : c.has 0x44 = true) (h4A : c.has 0x4A = true)
    (h4B : c.has 0x4B = true) (h40 : c.has 0x40 = false) :
    Answers (.ptpConfig m r) s fun t => Done m 0 t ∧ t.dev.ptp.rate = c.val 0x41 ∧ t.dev.ptp.domain = c.val 0x44 ∧ t.dev.ptp.mac = c.bytes 0x4A
      ∧ t.dev.ptp.vlan = c.val 0x4B ∧ t.dev.ptp.role = s.dev.ptp.role := by
  refine answers_next rfl ⟨h.done rfl, ?_⟩
  have ptp : (run (specPtpConfig.issue m r) s).dev.ptp = PtpSt.configured c s.dev.ptp := by
    rw [h.dev rfl offMailbox_ptp fun _ _ => rfl, ptpConfig_effect, h40, run_when_false, ← h.powered_dev offMailbox_ptp]
    rfl
  rw [ptp]
  simp [PtpSt.configured, Ctx.valD, h41, h44, h4A, h4B, h40]

theorem offMailbox_ptpRole : OffMailbox fun d => d.ptp.role := ⟨fun _ _ _ _ _ _ => rfl, fun _ _ => rfl, fun _ _ _ => rfl⟩

theorem takeRole_role (role : Nat) (s : State) : (run (takeRole role) s).dev.ptp.role = s.dev.ptp.role := by
  have tells : (sparingDev fun d => d.ptp.role).Tells := sparingDev_tells offMailbox_ptpRole.quiet
  have holdover (on : Bool) : (setHoldover on).Within (sparingDev fun d => d.ptp.role) := by simp [setHoldover, tells.raise]
  have port (v : Nat) : (setPortState v).Within (sparingDev fun d => d.ptp.role) := by simp [setPortState, tells.raise]
  exact Prog.Within.sparedDev (g := fun d => d.ptp.role) (by simp [takeRole, setDomain, holdover, port]) s

/-- What follows the role in the time base leaves a field alone that is neither a port's, nor of the time base's other bits. -/
theorem takeRole_rest {f : Fld} (whole : f.Whole) (told : ¬ Told f.addr) (port : f.addr ≠ 0x01560000)
    (time : f.addr ≠ 0x01500018 ∨ f.lo + f.width ≤ 3) (role v : Nat) :
    Keeps (fun s => s.get f) (block [setPtp fun p => { p with best := [], t1 := none, t2 := none, t3 := none, twoStepSeq := none },
      when (role ≠ 1 ∧ role ≠ 3) (setHoldover false), when (role = 0) (block [set TPort.pcsLock 0, set TPort.lineRate 0]), setPortState v]) := by
  have w : f.width ≤ 32 := by have := whole.1; omega
  have apart {g : Fld} (narrow : g.width ≤ 32) (h : f.addr ≠ g.addr ∨ f.lo + f.width ≤ g.lo ∨ g.lo + g.width ≤ f.lo) (v : Nat) :
      Keeps (fun s => s.get f) (set g v) := keeps_set_apart narrow whole h
  have said (c k n : Nat) (d : List Byte) : Keeps (fun s => s.get f) (raise c k n d) := untold_raise (untold_get told (.inl w)) c k n d
  have holdover : Keeps (fun s => s.get f) (setHoldover false) := keeps_look fun s => keeps_when
    (keeps_cons (apart (by decide) (time.imp_right .inl) _) (keeps_cons keeps_skip (keeps_cons (said _ _ _ _) keeps_nil)))
  exact keeps_cons (fun _ => rfl) (keeps_cons (keeps_when holdover) (keeps_cons
    (keeps_when (keeps_cons (apart (by decide) (.inl port) _) (keeps_cons (apart (by decide) (.inl port) _) keeps_nil)))
    (keeps_cons (fun s => setPortState_get v s whole (.inl port) told w) keeps_nil)))

theorem ptpConfig_takes_role (h : Executes specPtpConfig m r s c) (h40 : c.has 0x40 = true) :
    Answers (.ptpConfig m r) s fun t => Done m 0 t ∧ t.dev.ptp.role = c.val 0x40 ∧ t.get TimeReg.source = c.val 0x40 % 4
      ∧ t.domainOn 11 = decide (c.val 0x40 ≠ 0) := by
  have range : c.val 0x40 ≤ 3 := (Ctx.val_range h.checked.2.1 (k := 0x40) rfl (by decide) h40).2
  have effect : run (specPtpConfig.effect c) (specPtpConfig.powered c s)
      = run (takeRole (c.val 0x40)) (run (setPtp (PtpSt.configured c)) (specPtpConfig.powered c s)) := by
    rw [ptpConfig_effect, h40, run_when_true]
  refine answers_next rfl ⟨h.done rfl, ?_, ?_, ?_⟩
  · rw [h.dev rfl offMailbox_ptpRole fun _ _ => rfl, effect, takeRole_role, setPtp, run_dev]
    simp [PtpSt.configured, Ctx.valD, h40]
  · rw [h.get rfl (offMailbox_timing (by decide) (by decide) (by decide)), effect, takeRole, run_look', run_block_cons, run_block_cons,
      (takeRole_rest (by decide) (by decide) (by decide) (.inr (by decide)) _ _).get, get_set_same _ _ _ (by decide)]
    simp only [TimeReg.source]
    omega
  · have off : (domBit 0x1000200 11).OffMailbox := ⟨by decide, by decide, by decide, by decide, by decide⟩
    rw [domainOn_iff, State.on, h.get rfl off, effect, takeRole, run_look', run_block_cons, run_block_cons,
      (takeRole_rest (by decide) (by decide) (by decide) (.inl (by decide)) _ _).get, get_set_apart (by decide) (by decide) (by decide)]
    exact (domainOn_iff _ 11).symm.trans ((domainOn_setDomain (by decide) _ _ _).trans (if_pos rfl))

theorem ptpStatus_replies (h : Executes specPtpStatus m r s c) :
    Answers (.ptpStatus m r) s fun t => Replied specPtpStatus m r c.tgt.nid 0
      [⟨0x50, s.words 0x01560000 9⟩, ⟨0x51, slice s.dev.ptp.parent 0 10⟩, ⟨0x52, slice s.dev.ptp.grandmaster 0 8⟩] t := by
  refine answers_next rfl (h.replied_with rfl rfl (Ctx.lacks_unknown h.checked.2.1 rfl (by decide)) ?_)
  have results (s : State) : specPtpStatus.results c s
      = [⟨0x50, s.words 0x01560000 9⟩, ⟨0x51, slice s.dev.ptp.parent 0 10⟩, ⟨0x52, slice s.dev.ptp.grandmaster 0 8⟩] := rfl
  rw [results, specPtpStatus.taken_dev r h.1 offMailbox_ptp,
    specPtpStatus.taken_words r h.1 (by decide) (by decide) fun k hk => plainWord_block (by omega) (by omega) (by omega) (by omega)]

/-! Timing pins and pulse units. -/

theorem pin_whole (i : Fin 32) : (Pin.func i).Whole ∧ Pin.ppsWidth.Whole := by revert i; decide

theorem get_setReg_same {f : Fld} (whole : f.Whole) (v : Word) (s : State) :
    ((Act.setReg f.addr v).apply s).get f = bits v.toNat f.lo f.width := by
  rw [get_narrow _ f (by have := whole.1; omega), reg_setReg_same, bits_fit _ _ _ _ whole.2]

theorem pinConfig_sets (h : Executes specPinConfig m r s c) (h60 : c.has 0x60 = true) (h61 : c.has 0x61 = true) (h62 : c.has 0x62 = true) :
    Answers (.pinConfig m r) s fun t => Done m 0 t ∧ t.get (Pin.func (c.val 0x60)) = c.val 0x61 % 8 ∧ t.get Pin.ppsWidth = c.val 0x62 := by
  have keys := h.checked.2.1
  have hn : c.val 0x60 < 32 := Nat.lt_succ_of_le (Ctx.val_range keys (k := 0x60) rfl (by decide) h60).2
  have width : c.val 0x62 < 2 ^ 30 := Nat.lt_succ_of_le (Ctx.val_range keys (k := 0x62) rfl (by decide) h62).2
  obtain ⟨wf, wp⟩ := pin_whole ⟨c.val 0x60, hn⟩
  have effect (u : State) : run (specPinConfig.effect c) u
      = run (set Pin.ppsWidth (c.val 0x62)) (run (setReg (Pin.func (c.val 0x60)).addr (BitVec.ofNat 32 (c.val 0x61))) u) := by
    simp only [specPinConfig, setKey, h61, h62, run_block_cons, run_block_nil, run_when_true]; rfl
  refine answers_next rfl ⟨h.done rfl, ?_, ?_⟩
  · rw [h.get rfl (offMailbox_timing (by simp [Pin.func]) (by simp only [Pin.func]; omega) (by simp only [Pin.func]; omega)), effect,
      get_set_apart (by decide) wf (.inl (by simp only [Pin.func, Pin.ppsWidth]; omega)), run_setReg, get_setReg_same wf]
    simp only [bits, Pin.func, BitVec.toNat_ofNat]
    omega
  · rw [h.get rfl (offMailbox_timing (by decide) (by decide) (by decide)), effect, get_set_same _ _ _ wp]
    exact Nat.mod_eq_of_lt width

theorem run_forEach_append {α : Type} (xs ys : List α) (f : α → Prog) (s : State) :
    run (forEach (xs ++ ys) f) s = run (forEach ys f) (run (forEach xs f) s) := by
  induction xs generalizing s with
  | nil => rfl
  | cons x xs ih => rw [List.cons_append, run_forEach_cons, run_forEach_cons, ih]

/-- Words written one after another from an address. -/
theorem reg_putWords_same {a : Nat} {bs : List Byte} {k : Nat} (hk : k < bs.length / 4) (s : State) :
    (run (putWords a bs) s).reg (a + 4 * k) = Reg.fit (a + 4 * k) (BitVec.ofNat 32 (leAt bs (4 * k) 4)) := by
  have each (n : Nat) (hn : k < n) : (run (forEach (List.range n) fun i => setReg (a + 4 * i) (BitVec.ofNat 32 (leAt bs (4 * i) 4))) s).reg
      (a + 4 * k) = Reg.fit (a + 4 * k) (BitVec.ofNat 32 (leAt bs (4 * k) 4)) := by
    induction n with
    | zero => omega
    | succ n ih =>
      rw [List.range_succ, run_forEach_append, run_forEach_cons, run_forEach_nil, run_setReg]
      by_cases last : k = n
      · rw [last, reg_setReg_same]
      · rw [reg_setReg_other _ _ (by omega), ih (by omega)]
  exact each _ hk

/-- The lowest bit of a word is that of its first byte. -/
theorem leAt_mod_two (bs : List Byte) : leAt bs 0 4 % 2 = leAt bs 0 1 % 2 := by
  cases bs with
  | nil => rfl
  | cons b bs => simp [leAt, slice, leVal]; omega

theorem pulse_whole (u : Fin 16) : (Pulse.enable u).Whole := by revert u; decide

theorem pulseSet_writes (h : Executes specPulseSet m r s c) (disabled : leAt (c.bytes 0x64) 0 1 % 2 = 0) :
    Answers (.pulseSet m r) s fun t => Done m 0 t ∧ ∀ j : Fin 7, t.reg (0x01551000 + 0x40 * c.val 0x63 + 4 * j.val)
      = Reg.fit (0x01551000 + 0x40 * c.val 0x63 + 4 * j.val) (BitVec.ofNat 32 (leAt (c.bytes 0x64) (4 * j.val) 4)) := by
  have keys := h.checked.2.1
  have hu : c.val 0x63 < 16 := Nat.lt_succ_of_le (Ctx.required_range keys (k := 0x63) rfl rfl (by decide)).2
  have long : 32 ≤ (c.bytes 0x64).length :=
    (Ctx.length_range keys (k := 0x64) rfl (Ctx.has_required keys (k := raw 0x64 32 32 1 true) (by decide) rfl)).1
  have words {k : Nat} (hk : k < 8) (u : State) := reg_putWords_same (a := 0x01551000 + 0x40 * c.val 0x63) (bs := c.bytes 0x64) (k := k)
    (by omega) u
  have off (u : State) : (run (putWords (0x01551000 + 0x40 * c.val 0x63) (c.bytes 0x64)) u).on (Pulse.enable (c.val 0x63)) = false := by
    have whole := pulse_whole ⟨c.val 0x63, hu⟩
    have word : (run (putWords (0x01551000 + 0x40 * c.val 0x63) (c.bytes 0x64)) u).reg (Pulse.enable (c.val 0x63)).addr
        = Reg.fit (Pulse.enable (c.val 0x63)).addr (BitVec.ofNat 32 (leAt (c.bytes 0x64) 0 4)) :=
      words (k := 0) (by decide) u
    rw [State.on, get_narrow _ _ (by simp [Pulse.enable]), word,
      bits_fit _ _ (Pulse.enable (c.val 0x63)).lo _ whole.2]
    have bit := leAt_mod_two (c.bytes 0x64)
    have : bits (leAt (c.bytes 0x64) 0 4 % 2 ^ 32) 0 1 = 0 := by simp only [bits]; omega
    simp [Pulse.enable] at this ⊢
    omega
  have effect (u : State) : run (specPulseSet.effect c) u
      = run (setPulseNo (c.val 0x63) 0) (run (putWords (0x01551000 + 0x40 * c.val 0x63) (c.bytes 0x64)) u) := by
    have still : (run (setPulseNo (c.val 0x63) 0) (run (putWords (0x01551000 + 0x40 * c.val 0x63) (c.bytes 0x64)) u)).on
        (Pulse.enable (c.val 0x63)) = false := off u
    simp only [specPulseSet, run_block_cons, run_block_nil, run_look', still]
    rfl
  refine answers_next rfl ⟨h.done rfl, fun j => ?_⟩
  have untouched : ¬ (answerFoot m).reg (0x01551000 + 0x40 * c.val 0x63 + 4 * j.val) := by
    have := j.isLt
    have apart : 0x01551000 + 0x40 * c.val 0x63 + 4 * j.val < m.base + 0x800 ∨ m.base + 0x1000 ≤ 0x01551000 + 0x40 * c.val 0x63 + 4 * j.val := by
      cases m <;> simp only [MbId.base, hostKey] <;> omega
    simp only [answerFoot, Told, BusWord]
    omega
  have effected (u : State) : ((run (setPulseNo (c.val 0x63) 0) u).reg (0x01551000 + 0x40 * c.val 0x63 + 4 * j.val)) = u.reg _ := rfl
  rw [h.run_answer rfl, (h.within_answer (answerFoot_serves m)).reg untouched, CmdSpec.effected]
  exact (congrArg (fun u => State.reg u _) (effect _)).trans (words (by omega) _)

theorem capture_whole (n : Fin 33) : (Pin.capLevel n).Whole := by revert n; decide

theorem captureRead_consumes (h : Executes specCaptureRead m r s c) :
    Answers (.captureRead m r) s fun t =>
      Replied specCaptureRead m r c.tgt.nid 0 [⟨0x65, (Tbl.get [] s.dev.time.captures (c.val 0x60)).flatten⟩] t
        ∧ Tbl.get [] t.dev.time.captures (c.val 0x60) = [] ∧ t.get (Pin.capLevel (c.val 0x60)) = 0 := by
  have keys := h.checked.2.1
  have hn : c.val 0x60 < 33 := Nat.lt_succ_of_le (Ctx.required_range keys (k := 0x60) rfl rfl (by decide)).2
  have off : OffMailbox fun d => Tbl.get [] d.time.captures (c.val 0x60) := ⟨fun _ _ _ _ _ _ => rfl, fun _ _ => rfl, fun _ _ _ => rfl⟩
  have results : specCaptureRead.results c (specCaptureRead.taken m r s) = [⟨0x65, (Tbl.get [] s.dev.time.captures (c.val 0x60)).flatten⟩] := by
    rw [← specCaptureRead.taken_dev r h.1 off]; rfl
  refine answers_next rfl ⟨h.replied_with rfl rfl (Ctx.lacks_unknown keys rfl (by decide)) results, ?_, ?_⟩
  · rw [h.dev rfl off fun _ _ => rfl, specCaptureRead, run_block_cons, run_block_cons, run_block_nil, set_dev]
    exact Tbl.get_erase_same _ _ _
  · rw [h.get rfl (offMailbox_timing (by simp [Pin.capLevel]) (by simp only [Pin.capLevel]; omega) (by simp only [Pin.capLevel]; omega)),
      specCaptureRead, run_block_cons, run_block_cons, run_block_nil, get_set_same _ _ _ (capture_whole ⟨c.val 0x60, hn⟩)]
    rfl

theorem alarmSet_arms (h : Executes specAlarmSet m r s c) :
    Answers (.alarmSet m r) s fun t => Done m 0 t ∧ t.dev.time.alarmArmed = true ∧ t.get TimeReg.alarmSecLo = c.at 0x34 0 4
      ∧ t.get TimeReg.alarmSecHi = c.at 0x34 4 2 ∧ t.get TimeReg.alarmNs = c.at 0x34 6 4 := by
  have valid : ¬ 1000000000 ≤ c.at 0x34 6 4 := fun bad => by
    have := h.checked.2.2.1
    simp [specAlarmSet, bad] at this
  have lo : c.at 0x34 0 4 < 2 ^ 32 := leAt_lt _ 0 4
  have hi : c.at 0x34 4 2 < 2 ^ 16 := leAt_lt _ 4 2
  have effect (u : State) (f : Fld) : (run (specAlarmSet.effect c) u).get f = (run (set TimeReg.alarmNs (c.at 0x34 6 4))
      (run (set TimeReg.alarmSecHi (c.at 0x34 4 2)) (run (set TimeReg.alarmSecLo (c.at 0x34 0 4)) u))).get f := by
    simp only [specAlarmSet, run_block_cons, run_block_nil, setTime, run_dev, get_dev]
  refine answers_next rfl ⟨h.done rfl, ?_, ?_, ?_, ?_⟩
  · rw [h.dev rfl (g := fun d => d.time.alarmArmed) ⟨fun _ _ _ _ _ _ => rfl, fun _ _ => rfl, fun _ _ _ => rfl⟩ fun _ _ => rfl, specAlarmSet]
    simp only [run_block_cons, run_block_nil]
    rfl
  all_goals
    rw [h.get rfl (offMailbox_timing (by decide) (by decide) (by decide)), effect]
    simp (disch := decide) only [get_set_apart, get_set_same]
  · exact Nat.mod_eq_of_lt lo
  · exact Nat.mod_eq_of_lt hi
  · exact Nat.mod_eq_of_lt (show c.at 0x34 6 4 < 2 ^ 30 by omega)

end

/-- Settles O41. -/
theorem acquisitionCommandsAct : Obligations.AcquisitionCommandsAct := by
  unfold Obligations.AcquisitionCommandsAct
  exact ⟨fun _ _ _ _ h => encConfig_sets h, fun _ _ _ _ h => encRead_replies h, fun _ _ _ _ h => encSet_sets h,
    fun _ _ _ _ h => triggerSet_sets h, fun _ _ _ _ h => triggerStatus_replies h, fun _ _ _ _ h => linkLatency_accepted h,
    fun _ _ _ _ h => timeRead_replies h, fun _ _ _ _ h => timeSet_steps h, fun _ _ _ _ h => timeAdjust_ends h,
    fun _ _ _ _ h => ptpConfig_keeps_role h, fun _ _ _ _ h => ptpConfig_takes_role h, fun _ _ _ _ h => ptpStatus_replies h,
    fun _ _ _ _ h => pinConfig_sets h, fun _ _ _ _ h => pulseSet_writes h, fun _ _ _ _ h _ => captureRead_consumes h,
    fun _ _ _ _ h => alarmSet_arms h⟩

end Sys2Proof.Machine
end


section
/-! The commands of row assembly and coding (classes 0x09 and 0x0A): what each sets, arms or answers (R343 to R399). -/

namespace Sys2Proof.Machine
open Reg

/-! What a command sees of streams and their geometry. -/

/-- Two states that differ at most in what taking a request and answering it touch. -/
structure Alike (s t : State) : Prop where
  get : ∀ {f : Fld}, f.OffMailbox → t.get f = s.get f
  dev : ∀ {β : Type} {g : Dev → β}, OffMailbox g → g t.dev = g s.dev

theorem CmdSpec.taken_alike (sp : CmdSpec) {m : MbId} (r : Req) {s : State} (h : Ready m s) : Alike s (sp.taken m r s) :=
  ⟨sp.taken_get r h, sp.taken_dev r h⟩

/-- The registers of assembly, coding and delivery streams lie beside the mailboxes. -/
theorem offMailbox_stream {f : Fld} (w : f.width ≤ 32) (lo : 0x01140000 ≤ f.addr) (hi : f.addr < 0x01300000) : f.OffMailbox :=
  ⟨w, by omega, by omega, by simp only [Told]; omega, by simp only [BusWord]; omega⟩

theorem offMailbox_streams : OffMailbox Dev.streams := ⟨fun _ _ _ _ _ _ => rfl, fun _ _ => rfl, fun _ _ _ => rfl⟩
theorem offMailbox_asms : OffMailbox Dev.asms := ⟨fun _ _ _ _ _ _ => rfl, fun _ _ => rfl, fun _ _ _ => rfl⟩
theorem offMailbox_ownIndex : OffMailbox Dev.ownIndex := ⟨fun _ _ _ _ _ _ => rfl, fun _ _ => rfl, fun _ _ _ => rfl⟩

namespace Alike
variable {s t : State} (a : Alike s t) {i : Nat} (hi : i < 16)
include a

theorem asm (k : Nat) : t.asm k = s.asm k := by rw [State.asm, State.asm, a.dev offMailbox_asms]
theorem stream (k : Nat) : t.stream k = s.stream k := by rw [State.stream, State.stream, a.dev offMailbox_streams]

include hi

/-- A word of a stream's head entries, or of its generator. -/
theorem timing {f : Fld} {d : Nat} (w : f.width ≤ 32) (at_ : f.addr = 0x01510000 + 0x4000 * i + d) (hd : d < 0x4000) : t.get f = s.get f :=
  a.get (offMailbox_timing w (by omega) (by omega))

/-- A word of a stream's assembly, coding or delivery registers, or of its geometry. -/
theorem assembly {f : Fld} {d : Nat} (w : f.width ≤ 32) (at_ : f.addr = 0x01200000 + 0x8000 * i + d) (hd : d < 0x8000) : t.get f = s.get f :=
  a.get (offMailbox_stream w (by omega) (by omega))

theorem sState : t.sState i = s.sState i := a.assembly hi (d := 0x200) (by simp [Del.state]) (by simp only [Del.state]; omega) (by decide)

theorem next : t.next i = s.next i := by
  rw [State.next, State.next, a.timing hi (d := 0x28) (by simp [Trig.nextLo]) rfl (by decide),
    a.timing hi (d := 0x2c) (by simp [Trig.nextHi]) rfl (by decide)]

theorem streamAt (given : Nat) : t.streamAt i given = s.streamAt i given := by
  rw [State.streamAt, State.streamAt, a.sState hi, State.earliestN, State.earliestN, a.next hi,
    a.timing hi (d := 0x1c) (by simp [Trig.minPeriod]) rfl (by decide)]

theorem heads : t.heads i = s.heads i := List.filter_congr fun h hh => by
  have := List.mem_range.mp hh
  rw [State.on, State.on, a.timing hi (d := 0x2000 + 0x20 * h) (by simp [Head.valid]) (by simp only [Head.valid]; omega) (by omega)]

section Head
variable {h : Nat} (hh : h < 256)
include hh

theorem geo (n : Nat) : t.geo i h n = s.geo i h n := by
  have word {f : Fld} {d : Nat} (w : f.width ≤ 32) (at_ : f.addr = 0x01204000 + 0x8000 * i + 0x40 * h + d) (hd : d < 0x40) :
      t.get f = s.get f := a.assembly hi (d := 0x4000 + 0x40 * h + d) w (by omega) (by omega)
  simp only [State.geo, State.matchOf, State.on, State.sget, a.asm, word (f := Geo.col0 i h) (d := 0) (by simp [Geo.col0]) rfl (by decide),
    word (f := Geo.cropStart i h) (by simp [Geo.cropStart]) rfl (by decide), word (f := Geo.cropWidth i h) (by simp [Geo.cropWidth]) rfl (by decide),
    word (f := Geo.outWidth i h) (by simp [Geo.outWidth]) rfl (by decide), word (f := Geo.resample i h) (by simp [Geo.resample]) rfl (by decide),
    word (f := Geo.seam i h) (by simp [Geo.seam]) rfl (by decide), word (f := Geo.cut i h) (by simp [Geo.cut]) rfl (by decide),
    word (f := Geo.a0 i h) (by simp [Geo.a0]) rfl (by decide), word (f := Geo.a1 i h) (by simp [Geo.a1]) rfl (by decide),
    word (f := Geo.a2 i h) (by simp [Geo.a2]) rfl (by decide), word (f := Geo.a3 i h) (by simp [Geo.a3]) rfl (by decide),
    word (f := Geo.mg0 i h) (by simp [Geo.mg0]) rfl (by decide), word (f := Geo.mg1 i h) (by simp [Geo.mg1]) rfl (by decide),
    word (f := Geo.mg2 i h) (by simp [Geo.mg2]) rfl (by decide)]

theorem headCluster : t.headCluster i h = s.headCluster i h := by
  have word {f : Fld} (w : f.width ≤ 32) (at_ : f.addr = 0x01512000 + 0x4000 * i + 0x20 * h) : t.get f = s.get f :=
    a.timing hi (d := 0x2000 + 0x20 * h) w (by omega) (by omega)
  rw [State.headCluster, State.headCluster, State.headLocal, State.headLocal, word (by simp [Head.device]) rfl,
    word (by simp [Head.port]) rfl, a.dev offMailbox_ownIndex]

end Head

theorem segMap : t.segMap i = s.segMap i := by
  have geos : (s.heads i).map (fun h => t.geo i h 0) = (s.heads i).map fun h => s.geo i h 0 :=
    List.map_congr_left fun h hh => a.geo hi (List.mem_range.mp (List.mem_filter.mp hh).1) 0
  have clusters (k : Nat) : t.headCluster i ((s.heads i).getD k 0) = s.headCluster i ((s.heads i).getD k 0) := by
    refine a.headCluster hi ?_
    by_cases hk : k < (s.heads i).length
    · rw [List.getD_eq_getElem _ _ hk]
      exact List.mem_range.mp (List.mem_filter.mp (List.getElem_mem hk)).1
    · rw [List.getD_eq_default _ _ (by omega)]; decide
  have ratio : t.get (Cod.ratio i) = s.get (Cod.ratio i) :=
    a.assembly hi (d := 0x100) (by simp [Cod.ratio]) (by simp only [Cod.ratio]; omega) (by decide)
  simp only [State.segMap, State.spans, State.depth, a.heads hi, geos, clusters, a.stream, ratio]

end Alike

end Sys2Proof.Machine
end


section
/-! Classes 0x09 and 0x0A, command by command. -/

namespace Sys2Proof.Machine
open Reg

section
variable {m : MbId} {r : Req} {c : Ctx} {s : State}

/-- A stream's registers after a command that completes at once are as its effect left them. -/
theorem Executes.get_stream {sp : CmdSpec} (h : Executes sp m r s c) (pends : sp.pends = none) {i d : Nat} (hi : i < 16) {f : Fld}
    (w : f.width ≤ 32) (at_ : f.addr = 0x01200000 + 0x8000 * i + d) (hd : d < 0x8000) :
    (run (sp.issue m r) s).get f = (run (sp.effect c) (sp.powered c s)).get f :=
  h.get pends (offMailbox_stream w (by omega) (by omega))

/-- The journal entry of a command that stays armed (R149). -/
theorem Executes.armed {sp : CmdSpec} (h : Executes sp m r s c) (pends : sp.pends = none) {x : Nat × Nat}
    (arms : sp.arms c (sp.powered c s) = some x) :
    ((run (sp.issue m r) s).dev.journal.any fun e => e.seq = c.take && (match e.phase with | .armed _ _ => true | _ => false)) = true := by
  have journal : (run (sp.issue m r) s).dev.journal
      = (run (sp.effect c) (sp.powered c s)).dev.journal ++ [sp.armedEntry c x (sp.powered c s)] := by
    rw [h.run_answer pends, (h.within_answer (sparingDev_serves offMailbox_journal m)).sparedDev, CmdSpec.effected, arms]
    rfl
  rw [journal, List.any_append]
  simp [CmdSpec.armedEntry, Ctx.entry]

theorem asm_whole (i : Fin 16) : (Asm.area i).Whole ∧ (Asm.bandRows i).Whole ∧ (Asm.deadline i).Whole ∧ (Asm.areaLineNs i).Whole
    ∧ (Asm.matchPending i).Whole := by
  revert i; decide

theorem cod_whole (i : Fin 16) : (Cod.ratio i).Whole ∧ (Cod.effort i).Whole ∧ (Cod.independent i).Whole ∧ (Cod.effortPending i).Whole := by
  revert i; decide

theorem assemblySet_sets (h : Executes specAssemblySet m r s c) (h2 : c.has 2 = true) (h3 : c.has 3 = true) (h4 : c.has 4 = true)
    (h5 : c.has 5 = true) :
    Answers (.assemblySet m r) s fun t => Done m 0 t ∧ t.get (Asm.area (c.val 1)) = c.val 2 ∧ t.get (Asm.bandRows (c.val 1)) = c.val 3
      ∧ t.get (Asm.deadline (c.val 1)) = c.val 4 ∧ t.get (Asm.areaLineNs (c.val 1)) = c.val 5 := by
  have keys := h.checked.2.1
  have hi : c.val 1 < 16 := Nat.lt_succ_of_le (Ctx.required_range keys (k := 1) rfl rfl (by decide)).2
  have area : c.val 2 < 2 ^ 1 := Nat.lt_succ_of_le (Ctx.val_range keys (k := 2) rfl (by decide) h2).2
  have rows : c.val 3 < 2 ^ 16 := Nat.lt_succ_of_le (Ctx.val_range keys (k := 3) rfl (by decide) h3).2
  have deadline : c.val 4 < 2 ^ 32 := (Nat.lt_succ_of_le (Ctx.val_range keys (k := 4) rfl (by decide) h4).2).trans (by decide)
  have line : c.val 5 < 2 ^ 24 := Nat.lt_succ_of_le (Ctx.val_range keys (k := 5) rfl (by decide) h5).2
  obtain ⟨wa, wb, wd, wl, -⟩ := asm_whole ⟨c.val 1, hi⟩
  refine answers_next rfl ⟨h.done rfl, ?_⟩
  rw [h.get_stream rfl hi (d := 0) (by simp [Asm.area]) rfl (by decide), h.get_stream rfl hi (d := 0) (by simp [Asm.bandRows]) rfl (by decide),
    h.get_stream rfl hi (d := 4) (by simp [Asm.deadline]) rfl (by decide), h.get_stream rfl hi (d := 8) (by simp [Asm.areaLineNs]) rfl (by decide)]
  simp only [specAssemblySet, setKey, h2, h3, h4, h5, run_block_cons, run_block_nil, run_when_true]
  simp (disch := first | assumption | (refine id ?_; dsimp only [Asm.area, Asm.bandRows, Asm.deadline, Asm.areaLineNs]; omega) | fail) only
    [get_set_apart, get_set_same]
  exact ⟨Nat.mod_eq_of_lt area, Nat.mod_eq_of_lt rows, Nat.mod_eq_of_lt deadline, Nat.mod_eq_of_lt line⟩

/-- The staged region that a command keeps for later does not change its mailbox or its entry's place in the journal. -/
theorem Accepting.keepParts {take : Nat} {t : State} (h : Accepting m r take t) (c : Ctx) (ps : List (List Byte)) :
    Accepting m r take (run (keepParts c ps) t) := by
  obtain ⟨done, e, he, seq, phase, req⟩ := h
  refine ⟨?_, if e.seq = c.take then { e with parts := ps } else e, List.mem_map_of_mem he, ?_⟩
  · cases m <;> exact done
  · split <;> exact ⟨seq, phase, req⟩

theorem geometrySet_accepted (h : Executes specGeometrySet m r s c) :
    Answers (.geometrySet m r) s fun t => Done m 1 t ∧ ∃ e ∈ t.dev.journal, e.seq = c.take ∧ e.phase = .pending ∧ e.req = r := by
  refine answers_next rfl ?_
  rw [h.run_pending rfl]
  exact (h.accepting 5000).keepParts c _

theorem matchSet_arms (h : Executes specMatchSet m r s c) :
    Answers (.matchSet m r) s fun t => Done m 0 t ∧ (t.asm (c.val 1)).armedMatch = some (s.streamAt (c.val 1) (c.val 0x21), c.gains)
      ∧ t.get (Asm.matchPending (c.val 1)) = 1
      ∧ (t.dev.journal.any fun e => e.seq = c.take && (match e.phase with | .armed _ _ => true | _ => false)) = true := by
  have hi : c.val 1 < 16 := Nat.lt_succ_of_le (Ctx.required_range h.checked.2.1 (k := 1) rfl rfl (by decide)).2
  obtain ⟨-, -, -, -, wp⟩ := asm_whole ⟨c.val 1, hi⟩
  have seen := (specMatchSet.taken_alike r h.1).streamAt hi (c.val 0x21)
  rw [← h.powered_taken rfl] at seen
  refine answers_next rfl ⟨h.done rfl, ?_, ?_, h.armed rfl rfl⟩
  · rw [State.asm, h.dev rfl offMailbox_asms fun _ _ => rfl, ← seen, specMatchSet]
    simp only [run_look', run_block_cons, run_block_nil, showMatch, set_dev, setAsm, run_dev]
    exact congrArg AsmSt.armedMatch (Tbl.get_set_same ..)
  · rw [h.get_stream rfl hi (d := 0x24) (by simp [Asm.matchPending]) rfl (by decide), specMatchSet]
    simp only [run_look', run_block_cons, run_block_nil, showMatch]
    simp (disch := first | assumption | (refine id ?_; dsimp only [Asm.matchPending, Asm.matchIndexLo, Asm.matchIndexHi]; omega) | fail) only
      [get_set_apart, get_set_same]
    rfl

theorem effortSet_arms (h : Executes specEffortSet m r s c) :
    Answers (.effortSet m r) s fun t => Done m 0 t ∧ (t.asm (c.val 1)).effortNext = c.val 3
      ∧ (t.asm (c.val 1)).effortAt = s.streamAt (c.val 1) (c.val 5) ∧ t.get (Cod.effortPending (c.val 1)) = 1
      ∧ (t.dev.journal.any fun e => e.seq = c.take && (match e.phase with | .armed _ _ => true | _ => false)) = true := by
  have hi : c.val 1 < 16 := Nat.lt_succ_of_le (Ctx.required_range h.checked.2.1 (k := 1) rfl rfl (by decide)).2
  obtain ⟨-, -, -, wp⟩ := cod_whole ⟨c.val 1, hi⟩
  have seen := (specEffortSet.taken_alike r h.1).streamAt hi (c.val 5)
  rw [← h.powered_taken rfl] at seen
  have asm : (run (specEffortSet.issue m r) s).asm (c.val 1)
      = { (specEffortSet.powered c s).asm (c.val 1) with effortNext := c.val 3, effortAt := s.streamAt (c.val 1) (c.val 5) } := by
    rw [State.asm, h.dev rfl offMailbox_asms fun _ _ => rfl, ← seen, specEffortSet]
    simp only [run_look', run_block_cons, run_block_nil, showEffort, set_dev, setAsm, run_dev]
    exact Tbl.get_set_same ..
  refine answers_next rfl ⟨h.done rfl, congrArg AsmSt.effortNext asm, congrArg AsmSt.effortAt asm, ?_, h.armed rfl rfl⟩
  rw [h.get_stream rfl hi (d := 0x100) (by simp [Cod.effortPending]) (by simp only [Cod.effortPending]; omega) (by decide), specEffortSet]
  simp only [run_look', run_block_cons, run_block_nil, showEffort]
  simp (disch := first | assumption | (refine id ?_; dsimp only [Cod.effortPending, Cod.effortIndexLo, Cod.effortIndexHi]; omega) | fail) only
    [get_set_apart, get_set_same]
  rfl

theorem assemblyStatus_replies (h : Executes specAssemblyStatus m r s c) (region : c.has 0xF004 = false) :
    Answers (.assemblyStatus m r) s fun t => Replied specAssemblyStatus m r c.tgt.nid 0 [⟨0x30, s.words (0x01200000 + 0x8000 * c.val 1) 12⟩,
      ⟨0x31, s.words (0x01200040 + 0x8000 * c.val 1) 14⟩,
      ⟨0x32, (s.segMap (c.val 1)).flatMap fun g => leBytes 4 g.1 ++ leBytes 4 g.2.1 ++ leBytes 4 g.2.2.1 ++ leBytes 2 g.2.2.2 ++ [0, 0]⟩] t := by
  have hi : c.val 1 < 16 := Nat.lt_succ_of_le (Ctx.required_range h.checked.2.1 (k := 1) rfl rfl (by decide)).2
  refine answers_next rfl (h.replied_with rfl rfl region ?_)
  have results (s : State) : specAssemblyStatus.results c s = [⟨0x30, s.words (0x01200000 + 0x8000 * c.val 1) 12⟩,
      ⟨0x31, s.words (0x01200040 + 0x8000 * c.val 1) 14⟩,
      ⟨0x32, (s.segMap (c.val 1)).flatMap fun g => leBytes 4 g.1 ++ leBytes 4 g.2.1 ++ leBytes 4 g.2.2.1 ++ leBytes 2 g.2.2.2 ++ [0, 0]⟩] := by
    rw [show 0x01200040 + 0x8000 * c.val 1 = 0x01200000 + 0x8000 * c.val 1 + 0x40 by omega]; rfl
  rw [results, (specAssemblyStatus.taken_alike r h.1).segMap hi,
    specAssemblyStatus.taken_words r h.1 (n := 12) (by omega) (by omega) fun k hk => plainWord_block (by omega) (by omega) (by omega) (by omega),
    specAssemblyStatus.taken_words r h.1 (n := 14) (by omega) (by omega) fun k hk => plainWord_block (by omega) (by omega) (by omega) (by omega)]

theorem codingSet_sets (h : Executes specCodingSet m r s c) (h2 : c.has 2 = true) (h3 : c.has 3 = true) (h4 : c.has 4 = true) :
    Answers (.codingSet m r) s fun t => Done m 0 t ∧ t.get (Cod.ratio (c.val 1)) = c.val 2 ∧ t.get (Cod.effort (c.val 1)) = c.val 3
      ∧ t.get (Cod.independent (c.val 1)) = c.val 4 := by
  have keys := h.checked.2.1
  have hi : c.val 1 < 16 := Nat.lt_succ_of_le (Ctx.required_range keys (k := 1) rfl rfl (by decide)).2
  have ratio : c.val 2 ≤ 4 := (Ctx.val_range keys (k := 2) rfl (by decide) h2).2
  have effort : c.val 3 < 2 ^ 2 := Nat.lt_succ_of_le (Ctx.val_range keys (k := 3) rfl (by decide) h3).2
  have independent : c.val 4 < 2 ^ 1 := Nat.lt_succ_of_le (Ctx.val_range keys (k := 4) rfl (by decide) h4).2
  obtain ⟨wr, we, wi, -⟩ := cod_whole ⟨c.val 1, hi⟩
  have shape {f : Fld} (w : f.Whole) (at_ : f.addr = 0x01200100 + 0x8000 * c.val 1) (s : State) :
      (run (noteShape (c.val 1)) s).get f = s.get f := by
    simp only [noteShape, run_look', run_block_cons, run_block_nil]
    simp (disch := first | assumption | (refine id ?_; dsimp only [Asm.width, Asm.segments, Cod.budget, Asm.recordBytes]; omega) | fail) only
      [get_set_apart]
  refine answers_next rfl ⟨h.done rfl, ?_⟩
  rw [h.get_stream rfl hi (d := 0x100) (by simp [Cod.ratio]) (by simp only [Cod.ratio]; omega) (by decide),
    h.get_stream rfl hi (d := 0x100) (by simp [Cod.effort]) (by simp only [Cod.effort]; omega) (by decide),
    h.get_stream rfl hi (d := 0x100) (by simp [Cod.independent]) (by simp only [Cod.independent]; omega) (by decide)]
  simp only [specCodingSet, setKey, h2, h3, h4, run_block_cons, run_block_nil, run_when_true]
  rw [shape wr rfl, shape we rfl, shape wi rfl]
  simp (disch := first | assumption | (refine id ?_; dsimp only [Cod.ratio, Cod.effort, Cod.independent]; omega) | fail) only
    [get_set_apart, get_set_same]
  exact ⟨Nat.mod_eq_of_lt (by simp only [Cod.ratio]; omega), Nat.mod_eq_of_lt effort, Nat.mod_eq_of_lt independent⟩

theorem codingStatus_device_replies (h : Executes specCodingStatus m r s c) (device : c.tgt.kind = .device) :
    Answers (.codingStatus m r) s fun t => Replied specCodingStatus m r c.tgt.nid 0
      [⟨0x10, s.words (0x01200100 + 0x8000 * c.val 1) 5 ++ s.words (0x01200140 + 0x8000 * c.val 1) 10⟩] t := by
  have keys := h.checked.2.1
  have given : c.has 1 = true := by
    have := h.checked.2.2.1
    by_contra absent
    simp [specCodingStatus, device, absent, NodeKind.level] at this
  have hi : c.val 1 < 16 := Nat.lt_succ_of_le (Ctx.val_range keys (k := 1) rfl (by decide) given).2
  have results (s : State) : specCodingStatus.results c s
      = [⟨0x10, s.words (0x01200100 + 0x8000 * c.val 1) 5 ++ s.words (0x01200140 + 0x8000 * c.val 1) 10⟩] := by
    simp only [specCodingStatus, device]
  have replied := h.replied rfl (Ctx.lacks_unknown keys rfl (by decide))
  rw [h.powered_device device, results,
    specCodingStatus.taken_words r h.1 (n := 5) (by omega) (by omega) fun k hk => plainWord_block (by omega) (by omega) (by omega) (by omega),
    specCodingStatus.taken_words r h.1 (n := 10) (by omega) (by omega) fun k hk => plainWord_block (by omega) (by omega) (by omega) (by omega)]
    at replied
  exact answers_next rfl replied

theorem codingStatus_cluster_replies (h : Executes specCodingStatus m r s c) (cluster : c.tgt.kind = .cluster c.cluster) :
    Answers (.codingStatus m r) s fun t => Replied specCodingStatus m r c.tgt.nid 0
      [⟨0x11, (specCodingStatus.powered c s).words (0x10300000 + 0x01000000 * c.cluster) 2
        ++ (specCodingStatus.powered c s).words (0x10300040 + 0x01000000 * c.cluster) 4⟩] t := by
  have replied := h.replied rfl (Ctx.lacks_unknown h.checked.2.1 rfl (by decide))
  generalize specCodingStatus.powered c s = u at *
  generalize c.cluster = k at *
  have results : specCodingStatus.results c u
      = [⟨0x11, u.words (0x10300000 + 0x01000000 * k) 2 ++ u.words (0x10300040 + 0x01000000 * k) 4⟩] := by
    simp only [specCodingStatus, cluster]
  rw [results] at replied
  exact answers_next rfl replied

/-! Jobs. -/

theorem offMailbox_jobs : OffMailbox Dev.jobs := ⟨fun _ _ _ _ _ _ => rfl, fun _ _ => rfl, fun _ _ _ => rfl⟩

theorem job_setJob (j : Nat) (f : JobSt → JobSt) (s : State) : (run (setJob j f) s).job j = (s.job j).map f := by
  have found (l : List (Nat × JobSt)) : ((l.map fun x => if x.1 = j then (j, f x.2) else x).find? fun x => x.1 = j).map Prod.snd
      = ((l.find? fun x => x.1 = j).map Prod.snd).map f := by
    induction l with
    | nil => rfl
    | cons x l ih =>
      by_cases same : x.1 = j
      · simp [same]
      · simpa [same] using ih
  exact found _

theorem jobState_whole (j : Fin 4) : (RootCod.jobState j).Whole := by revert j; decide

theorem jobAbort_marks (h : Executes specJobAbort m r s c) (running : ∀ w ∈ s.job (c.val 0x20), w.ended = none) :
    Answers (.jobAbort m r) s fun t => Done m 0 t ∧ ∀ u ∈ t.job (c.val 0x20), u.abort = true ∧ t.get (RootCod.jobState (c.val 0x20)) = 3 := by
  have hj : c.val 0x20 < 4 := Nat.lt_succ_of_le (Ctx.required_range h.checked.2.1 (k := 0x20) rfl rfl (by decide)).2
  refine answers_next rfl ⟨h.done rfl, ?_⟩
  have jobs : (run (specJobAbort.issue m r) s).job (c.val 0x20)
      = (run (specJobAbort.effect c) (specJobAbort.powered c s)).job (c.val 0x20) := by
    rw [State.job, h.dev rfl offMailbox_jobs fun _ _ => rfl]; rfl
  have before : (specJobAbort.powered c s).job (c.val 0x20) = s.job (c.val 0x20) := by
    rw [State.job, h.powered_dev offMailbox_jobs]; rfl
  rw [jobs, h.get rfl (offMailbox_stream (by simp [RootCod.jobState]) (by simp only [RootCod.jobState]; omega)
    (by simp only [RootCod.jobState]; omega))]
  generalize specJobAbort.powered c s = v at *
  cases job : v.job (c.val 0x20) with
  | none =>
    simp only [specJobAbort, run_look', job]
    intro u hu
    rw [run_skip, job] at hu
    cases hu
  | some w =>
    have live : w.ended.isSome = false := by rw [running w (by rw [← before, job]; rfl)]; rfl
    have marked (v : State) : (run (set (RootCod.jobState (c.val 0x20)) 3) (run (setJob (c.val 0x20) fun t => { t with abort := true }) v)).job
        (c.val 0x20) = (v.job (c.val 0x20)).map fun t => { t with abort := true } := by
      rw [← job_setJob, State.job, set_dev]; rfl
    have shown (v : State) : (run (set (RootCod.jobState (c.val 0x20)) 3) v).get (RootCod.jobState (c.val 0x20)) = 3 :=
      get_set_same _ _ _ (jobState_whole ⟨c.val 0x20, hj⟩)
    simp only [specJobAbort, run_look', job, live, Bool.false_eq_true, if_false]
    intro u hu
    split at hu
    next queued =>
      rw [if_pos queued]
      simp only [run_block_cons, run_block_nil, jobEnds] at hu ⊢
      rw [job_setJob, marked, job] at hu
      cases hu
      exact ⟨rfl, shown _⟩
    next coding =>
      rw [if_neg coding]
      simp only [run_block_cons, run_block_nil] at hu ⊢
      rw [marked, job] at hu
      cases hu
      exact ⟨rfl, shown _⟩

theorem jobStatus_replies (h : Executes specJobStatus m r s c) :
    Answers (.jobStatus m r) s fun t => Replied specJobStatus m r c.tgt.nid 0
      [⟨0x21, s.words (0x01280100 + 16 * c.val 0x20) 3⟩, ⟨0x22, s.words 0x01280040 12⟩] t := by
  have hj : c.val 0x20 < 4 := Nat.lt_succ_of_le (Ctx.required_range h.checked.2.1 (k := 0x20) rfl rfl (by decide)).2
  refine answers_next rfl (h.replied_with rfl rfl (Ctx.lacks_unknown h.checked.2.1 rfl (by decide)) ?_)
  have results (s : State) : specJobStatus.results c s = [⟨0x21, s.words (0x01280100 + 16 * c.val 0x20) 3⟩, ⟨0x22, s.words 0x01280040 12⟩] := rfl
  rw [results,
    specJobStatus.taken_words r h.1 (n := 3) (by omega) (by omega) fun k hk => plainWord_block (by omega) (by omega) (by omega) (by omega),
    specJobStatus.taken_words r h.1 (n := 12) (by omega) (by omega) fun k hk => plainWord_block (by omega) (by omega) (by omega) (by omega)]

end

/-- Settles O44. -/
theorem rowCommandsAct : Obligations.RowCommandsAct := by
  unfold Obligations.RowCommandsAct
  exact ⟨fun _ _ _ _ h => assemblySet_sets h, fun _ _ _ _ h => geometrySet_accepted h, fun _ _ _ _ h => matchSet_arms h,
    fun _ _ _ _ h => assemblyStatus_replies h, fun _ _ _ _ h => codingSet_sets h, fun _ _ _ _ h => effortSet_arms h,
    fun _ _ _ _ h => codingStatus_device_replies h, fun _ _ _ _ h => codingStatus_cluster_replies h,
    fun _ _ _ _ h => jobAbort_marks h, fun _ _ _ _ h => jobStatus_replies h⟩

end Sys2Proof.Machine
end


section
/-! The security commands (class 0x0F): worlds, reset of the N world, attestation, tag keys and rollback (R178, R533 to R535, R548). -/

namespace Sys2Proof.Machine
open Reg

/-! What a command sees of the worlds and of the device's identity. -/

/-- A register word outside the blocks that mailboxes, buses and telling use. -/
theorem offMailbox_at {f : Fld} (w : f.width ≤ 32) (lo : 0x01608000 ≤ f.addr) (hi : f.addr < 0x10000003000) : f.OffMailbox :=
  ⟨w, by omega, by omega, by simp only [Told]; omega, by simp only [BusWord]; omega⟩

namespace Alike
variable {s t : State} (a : Alike s t)
include a

theorem on {f : Fld} (off : f.OffMailbox) : t.on f = s.on f := by rw [State.on, State.on, a.get off]

/-- A field of the world map. -/
theorem world {f : Fld} (w : f.width ≤ 32) (lo : 0x02020000 ≤ f.addr) (hi : f.addr < 0x02030000) : t.get f = s.get f :=
  a.get (offMailbox_at w (by omega) (by omega))

theorem nodeS (n : Nat) : t.nodeS n = s.nodeS n := by
  simp only [State.nodeS, a.world (f := Wld.clusterS) (by decide) (by decide) (by decide),
    a.world (f := Wld.pipeSLo) (by decide) (by decide) (by decide), a.world (f := Wld.pipeSHi) (by decide) (by decide) (by decide)]

theorem serviceS (k : Nat) : t.serviceS k = s.serviceS k := by
  simp only [State.serviceS, a.world (f := Wld.serviceS) (by decide) (by decide) (by decide)]

theorem granuleS {g : Nat} (hg : g < 0x300) : t.granuleS g = s.granuleS g := by
  simp only [State.granuleS, a.world (f := Wld.granuleS (g / 32)) (Nat.le_refl 32) (by simp only [Wld.granuleS]; omega)
    (by simp only [Wld.granuleS]; omega)]

theorem rangeS (g : Nat) : t.rangeS g = s.rangeS g := by
  have count : s.get Wld.ranges < 2 ^ 8 := get_lt (f := Wld.ranges) (by decide) s
  have ranges : t.get Wld.ranges = s.get Wld.ranges := a.world (by decide) (by decide) (by decide)
  rw [State.rangeS, State.rangeS, ranges, Bool.eq_iff_iff, List.any_eq_true, List.any_eq_true]
  refine exists_congr fun r => and_congr_right fun hr => ?_
  have := List.mem_range.mp hr
  rw [a.world (f := Wld.rangeBase r) (Nat.le_refl 32) (by simp only [Wld.rangeBase]; omega) (by simp only [Wld.rangeBase]; omega),
    a.world (f := Wld.rangeCount r) (Nat.le_refl 32) (by simp only [Wld.rangeCount]; omega) (by simp only [Wld.rangeCount]; omega)]

theorem ringWorld {x : Nat} (lo : 0x01320000 ≤ x) (hi : x < 0x01321000) :
    t.on (Ring.world ((x - 0x01320000) / 0x40)) = s.on (Ring.world ((x - 0x01320000) / 0x40)) :=
  a.on ⟨by simp [Ring.world], by simp only [Ring.world]; omega, by simp only [Ring.world]; omega,
    by simp only [Ring.world, Told]; omega, by simp only [Ring.world, BusWord]; omega⟩

theorem addrS (x : Nat) : t.addrS x = s.addrS x := by
  unfold State.addrS
  split_ifs with h1 h2 h3 h4 h5 h6 h7 h8 h9
  · rfl
  · rfl
  · exact a.serviceS 0
  · exact a.serviceS 1
  · exact a.serviceS 2
  · exact a.serviceS 3
  · exact a.ringWorld h7.1 h7.2
  · exact a.granuleS (by omega)
  · exact a.rangeS _
  · cases nodeOfAddr x with
    | none => rfl
    | some n => exact a.nodeS n

theorem identity {f : Fld} (w : f.width ≤ 32) (lo : 0x01000000 ≤ f.addr) (hi : f.addr < 0x01100000) : t.get f = s.get f :=
  a.get ⟨w, by omega, by omega, by simp only [Told]; omega, by simp only [BusWord]; omega⟩

/-- The report that firmware signs speaks of nothing that taking a request touches. -/
theorem report (words : t.words 0x02020080 12 = s.words 0x02020080 12) (nonce : List Byte) : t.report nonce = s.report nonce := by
  have fuses : t.dev.fuses = s.dev.fuses := a.dev ⟨fun _ _ _ _ _ _ => rfl, fun _ _ => rfl, fun _ _ _ => rfl⟩
  have boot : t.dev.boot = s.dev.boot := a.dev ⟨fun _ _ _ _ _ _ => rfl, fun _ _ => rfl, fun _ _ _ => rfl⟩
  have debug {f : Fld} (w : f.width ≤ 32) (h : f.addr = 0x01800000) : t.get f = s.get f := a.get (offMailbox_at w (by omega) (by omega))
  obtain ⟨lo, -, ns, -⟩ := time_offMailbox
  simp only [State.report, fuses, State.slotOf, boot, words, State.timeBytes, State.sec, State.ns, a.get lo, a.get ns,
    a.world (f := Wld.owned) (by decide) (by decide) (by decide), a.world (f := Wld.locked) (by decide) (by decide) (by decide),
    a.world (f := Wld.default) (by decide) (by decide) (by decide), debug (f := Dbg.state) (by decide) rfl,
    debug (f := Dbg.everOpened) (by decide) rfl, a.identity (f := Ident.formLevel) (by decide) (by decide) (by decide),
    a.identity (f := Live.runIfLevel) (by decide) (by decide) (by decide), a.identity (f := Live.runSvn) (by decide) (by decide) (by decide),
    a.identity (f := Live.runSlot) (by decide) (by decide) (by decide), a.identity (f := Live.runBuild) (by decide) (by decide) (by decide),
    a.get (f := BootReg.role) ⟨by decide, by decide, by decide, by decide, by decide⟩]

end Alike

section
variable {m : MbId} {r : Req} {c : Ctx} {s : State}

theorem worldStatus_replies (h : Executes specWorldStatus m r s c) :
    Answers (.worldStatus m r) s fun t => Replied specWorldStatus m r c.tgt.nid 0 [⟨1, s.words 0x02020000 44⟩] t := by
  refine answers_next rfl (h.replied_with rfl rfl (Ctx.lacks_unknown h.checked.2.1 rfl (by decide)) ?_)
  have results (s : State) : specWorldStatus.results c s = [⟨1, s.words 0x02020000 44⟩] := rfl
  rw [results, specWorldStatus.taken_words r h.1 (by decide) (by decide) fun k hk => plainWord_block (by omega) (by omega) (by omega) (by omega)]

/-- The NID of a local cluster or pipeline names it. -/
theorem local_of_target {v : Nat} {t : Target} (lo : 0x10 ≤ v) (hi : v < 0x140) (h : s.target v = some t) : t.local = v := by
  have small : v % 0x10000 = v ∧ v / 0x1000 = 0 ∧ v % 0x1000 = v ∧ bit v 20 = false := by
    refine ⟨by omega, by omega, by omega, ?_⟩
    simp only [bit, beq_eq_false_iff_ne]
    omega
  obtain ⟨low, dev, node, bit20⟩ := small
  unfold State.target at h
  simp only [low, dev, node, bit20] at h
  rw [if_neg (by omega), if_neg (by omega), if_neg (by simp), if_neg (by omega), if_neg (by omega)] at h
  by_cases cluster : v < 0x18
  · have kind : nidKind v = some (.cluster (v - 0x10)) := by rw [nidKind, if_neg (by omega), if_pos ⟨lo, cluster⟩]
    rw [kind] at h
    cases h
    simp only [Target.local]; omega
  by_cases pipeline : 0x100 ≤ v
  · have kind : nidKind v = some (.pipeline (v - 0x100)) := by
      rw [nidKind, if_neg (by omega), if_neg (by omega), if_pos ⟨pipeline, hi⟩]
    rw [kind] at h
    cases h
    simp only [Target.local]; omega
  · have kind : nidKind v = none := by rw [nidKind, if_neg (by omega), if_neg (by omega), if_neg (by omega)]
    rw [kind] at h
    cases h

theorem worldQuery_node_replies (h : Executes specWorldQuery m r s c) (h2 : c.has 2 = true) (h3 : c.has 3 = false) (lo : 0x10 ≤ c.val 2)
    (hi : c.val 2 < 0x140) :
    Answers (.worldQuery m r) s fun t => Replied specWorldQuery m r c.tgt.nid 0 [tlv 4 1 (boolNat (s.nodeS (c.val 2)))] t := by
  have named : (c.queried (specWorldQuery.taken m r s)).isNone = false := by
    have := h.checked.2.2.1
    generalize specWorldQuery.taken m r s = u at *
    by_contra unnamed
    simp only [Bool.not_eq_false] at unnamed
    simp [specWorldQuery, h2, h3] at this
    exact this (Option.isNone_iff_eq_none.mp unnamed)
  obtain ⟨t, queried⟩ := Option.isSome_iff_exists.mp (by simpa using named : (c.queried (specWorldQuery.taken m r s)).isSome = true)
  have local_ : t.local = c.val 2 := by
    obtain ⟨u, target, own⟩ := Option.bind_eq_some_iff.mp queried
    split at own
    · cases own; exact local_of_target lo hi target
    · cases own
  refine answers_next rfl (h.replied_with rfl rfl (Ctx.lacks_unknown h.checked.2.1 rfl (by decide)) ?_)
  rw [← (specWorldQuery.taken_alike r h.1).nodeS, ← local_]
  generalize specWorldQuery.taken m r s = u at *
  simp [specWorldQuery, queried, h2]

theorem worldQuery_address_replies (h : Executes specWorldQuery m r s c) (h2 : c.has 2 = false) :
    Answers (.worldQuery m r) s fun t => Replied specWorldQuery m r c.tgt.nid 0 [tlv 4 1 (boolNat (s.addrS (c.val 3)))] t := by
  refine answers_next rfl (h.replied_with rfl rfl (Ctx.lacks_unknown h.checked.2.1 rfl (by decide)) ?_)
  have results (s : State) : specWorldQuery.results c s = [tlv 4 1 (boolNat (s.addrS (c.val 3)))] := by
    simp only [specWorldQuery, h2, Bool.false_eq_true, if_false]
    cases c.queried s <;> rfl
  rw [results, (specWorldQuery.taken_alike r h.1).addrS]

theorem attestReport_replies (h : Executes specAttestReport m r s c) :
    Answers (.attestReport m r) s fun t => Replied specAttestReport m r c.tgt.nid 0
      [⟨6, s.report (c.bytes 5) ++ Config.identitySign s.dev.fuses.uid (s.report (c.bytes 5))⟩] t := by
  refine answers_next rfl (h.replied_with rfl rfl (Ctx.lacks_unknown h.checked.2.1 rfl (by decide)) ?_)
  have results (s : State) : specAttestReport.results c s
      = [⟨6, s.report (c.bytes 5) ++ Config.identitySign s.dev.fuses.uid (s.report (c.bytes 5))⟩] := rfl
  have words := specAttestReport.taken_words r h.1 (a := 0x02020080) (n := 12) (by decide) (by decide)
    fun k hk => plainWord_block (by omega) (by omega) (by omega) (by omega)
  have seen := specAttestReport.taken_alike r h.1
  have fuses : (specAttestReport.taken m r s).dev.fuses = s.dev.fuses := seen.dev ⟨fun _ _ _ _ _ _ => rfl, fun _ _ => rfl, fun _ _ _ => rfl⟩
  rw [results, seen.report words, fuses]

theorem attestCert_accepted (h : Executes specAttestCert m r s c) :
    Answers (.attestCert m r) s fun t => Done m 1 t ∧ ∃ e ∈ t.dev.journal, e.seq = c.take ∧ e.phase = .pending ∧ e.req = r := by
  refine answers_next rfl ?_
  rw [h.run_pending rfl]
  exact h.accepting 5000

theorem rollbackAdvance_accepted (h : Executes specRollbackAdvance m r s c) :
    Answers (.rollbackAdvance m r) s fun t => Done m 1 t ∧ ∃ e ∈ t.dev.journal, e.seq = c.take ∧ e.phase = .pending ∧ e.req = r := by
  refine answers_next rfl ?_
  rw [h.run_pending rfl]
  exact h.accepting 70000

/-! Tag keys. -/

theorem offMailbox_keys : OffMailbox fun d => d.sec.keys := ⟨fun _ _ _ _ _ _ => rfl, fun _ _ => rfl, fun _ _ _ => rfl⟩

/-- The event of a key leaves the keys alone. -/
theorem keyEvent_keys (k : Nat) (loaded : Bool) (s : State) : (run (keyEvent k loaded) s).dev.sec.keys = s.dev.sec.keys :=
  Prog.Within.sparedDev (g := fun d => d.sec.keys) ((sparingDev_tells offMailbox_keys.quiet).raiseIn _ _ _ _ _ _) s

theorem keyLoad_loads (h : Executes specKeyLoad m r s c) :
    Answers (.keyLoad m r) s fun t => Done m 0 t ∧ (t.dev.sec.keys.find? fun x => x.1 = c.val 7) = some (c.val 7, ⟨c.bytes 8, 0⟩) := by
  refine answers_next rfl ⟨h.done rfl, ?_⟩
  rw [h.dev rfl offMailbox_keys fun _ _ => rfl, specKeyLoad, run_block_cons, run_block_cons, run_block_nil, keyEvent_keys, setKeys, run_dev]
  exact List.find?_cons_of_pos (by simp)

theorem keyClear_clears (h : Executes specKeyClear m r s c) :
    Answers (.keyClear m r) s fun t => Done m 0 t ∧ ∀ x ∈ t.dev.sec.keys, x.1 ≠ c.val 7 := by
  refine answers_next rfl ⟨h.done rfl, ?_⟩
  rw [h.dev rfl offMailbox_keys fun _ _ => rfl, specKeyClear, run_block_cons, run_block_cons, run_block_nil, keyEvent_keys, setKeys, run_dev]
  exact fun x hx => by simpa using (List.mem_filter.mp hx).2

theorem streamTagSet_sets (h : Executes specStreamTagSet m r s c) (hA : c.has 0xA = true) (h7 : c.has 7 = true) :
    Answers (.streamTagSet m r) s fun t => Done m 0 t ∧ (t.asm (c.val 9)).tagEn = decide (c.val 0xA = 1) ∧ (t.asm (c.val 9)).keySlot = c.val 7 := by
  have asm : (run (specStreamTagSet.issue m r) s).asm (c.val 9)
      = { (specStreamTagSet.powered c s).asm (c.val 9) with tagEn := decide (c.val 0xA = 1), keySlot := c.val 7 } := by
    rw [State.asm, h.dev rfl offMailbox_asms fun _ _ => rfl, specStreamTagSet]
    simp only [Ctx.valD, hA, h7, if_true, setAsm, run_dev]
    exact Tbl.get_set_same ..
  exact answers_next rfl ⟨h.done rfl, congrArg AsmSt.tagEn asm, congrArg AsmSt.keySlot asm⟩

/-! Reset of the N world (R178). -/

theorem allMailboxes_hosted : ∀ x ∈ allMailboxes, x.hosted = true := by decide

theorem base_of_hosted {m : MbId} (h : m.hosted = true) : ∃ k < 4, m.base = hostKey m.fn (0x4000 + 0x1000 * k) := by
  obtain ⟨k, rfl⟩ | ⟨k, rfl⟩ := hosted_cases h
  · exact ⟨k, k.isLt, rfl⟩
  · exact ⟨k, by omega, rfl⟩

theorem within_resetRegs {F : Foot} {lo len : Nat} (h : ∀ a, lo ≤ a → a < lo + len → F.reg a) : (resetRegs lo len).Within F := fun s =>
  within_forEach.mpr fun a ha => by
    obtain ⟨x, hx, rfl⟩ := List.mem_map.mp ha
    have := (List.mem_filter.mp hx).2
    simp only [Bool.and_eq_true, decide_eq_true_eq] at this
    exact within_setReg.mpr (h _ this.1 this.2)

theorem page_end (fn : Nat) : hostKey fn 0x3000 + 0x6000 = hostKey fn 0x9000 := by
  unfold hostKey
  generalize 0x10000000000 + 0x10000 * fn = x
  omega

/-- The registers that a function's reset writes: its bridge block, its vectors and mailboxes, and what is told. -/
abbrev ResetWord (fn a : Nat) : Prop :=
  (0x01300000 + 0x10000 * fn ≤ a ∧ a < 0x01300100 + 0x10000 * fn) ∨ (hostKey fn 0x3000 ≤ a ∧ a < hostKey fn 0x9000) ∨ Told a

/-- What the reset of a function takes from the queues of the device. -/
def resetQueues (fn : Nat) (d : Dev) : Dev :=
  { d with
    doorbells := d.doorbells.filter fun m => m = .twoWire || m.fn ≠ fn
    journal := d.journal.map fun e => if (allMailboxes.filter fun m => m.fn = fn).contains e.mb then { e with answered := true } else e
    remoteReads := d.remoteReads.filter fun r => r.fn ≠ fn }

/-- What a function's reset does before it takes from the queues, and after it. -/
def resetBefore (fn : Nat) (s : State) : Prog :=
  let n := (s.dev.host.waiting.filter fun w => w.fn = fn).length
  block [
    when (n ≠ 0) (block [bumpBy (Bridge.outDiscards fn) n, setFlag (Bridge.bmeDiscard fn), bumpBy (Node.counter 1 none 3) n]),
    setHost fun h => { h with waiting := h.waiting.filter fun w => w.fn ≠ fn }]

def resetAfter (fn : Nat) (s : State) : Prog :=
  let shared := (Bridge.replays fn :: [Bridge.mod0Rate fn, Bridge.mod1Rate fn, Bridge.flitLo fn, Bridge.mod0Repairs fn, Bridge.mod1Repairs fn,
    Bridge.rateCap fn]).map fun f => (f, s.get f)
  block [
    setHost fun h => if fn = 0 then { h with pf0 := PciFn.reset, flr0 := true } else { h with pf1 := PciFn.reset, flr1 := true },
    resetRegs (hostKey fn 0x3000) 0x6000, clearMem (hostKey fn 0x3000) 0x6000, forEach [0, 1] fun k => clearMem (prefetchBase fn k) 0x1000,
    resetRegs (0x01300000 + 0x10000 * fn) 0x100, forEach shared fun x => set x.1 x.2,
    when s.fwReady (forEach (allMailboxes.filter fun m => m.fn = fn) fun m => set (Mbx.fwReady m.base) 1)]

theorem run_resetFunction (fn : Nat) (s : State) :
    run (resetFunction fn) s = run (resetAfter fn s) (run (dev (resetQueues fn)) (run (resetBefore fn s) s)) := by
  simp only [resetFunction, resetBefore, resetAfter, run_look', run_block_cons, run_block_nil]
  rfl

section
variable {F : Foot} {fn : Nat} (reg : ∀ a, ResetWord fn a → F.reg a)
  (host : ∀ f : HostIf → HostIf, F.dev fun d => { d with host := f d.host })
include reg host

theorem within_resetBefore (s : State) : (resetBefore fn s).Within F := by
  have bridge {d : Nat} (hd : d < 0x100) : F.reg (0x01300000 + 0x10000 * fn + d) := reg _ (.inl ⟨by omega, by omega⟩)
  have counter (n : Nat) : (bumpBy (Node.counter 1 none 3) n).Within F :=
    within_bumpBy.mpr ⟨reg _ (.inr (.inr (told_counter (by decide) (by decide)).1)), fun _ => reg _ (.inr (.inr (told_counter (by decide) (by decide)).2))⟩
  have hosted (f : HostIf → HostIf) : (setHost f).Within F := within_dev.mpr (host f)
  simp [resetBefore, Bridge.outDiscards, Bridge.bmeDiscard, bridge, counter, hosted]

omit host in
theorem within_resetPage : (resetRegs (hostKey fn 0x3000) 0x6000).Within F := within_resetRegs fun a lo hi => by
  have past : a < hostKey fn 0x9000 := page_end fn ▸ hi
  exact reg a (.inr (.inl ⟨lo, past⟩))

omit host in
theorem within_resetBridge : (resetRegs (0x01300000 + 0x10000 * fn) 0x100).Within F := within_resetRegs fun a lo hi =>
  reg a (.inl ⟨lo, by omega⟩)

omit host in
theorem within_showReady : (forEach (allMailboxes.filter fun m => m.fn = fn) fun m => set (Mbx.fwReady m.base) 1).Within F := by
  refine within_forEach.mpr fun x hx => within_set.mpr ⟨reg _ (.inr (.inl ?_)), fun wide => absurd wide (by simp [Mbx.fwReady])⟩
  obtain ⟨listed, own⟩ := List.mem_filter.mp hx
  obtain ⟨k, hk, base⟩ := base_of_hosted (allMailboxes_hosted x listed)
  rw [of_decide_eq_true own] at base
  simp only [Mbx.fwReady, base, hostKey]
  omega

omit host in
theorem within_putShared (s : State) : (forEach ((Bridge.replays fn :: [Bridge.mod0Rate fn, Bridge.mod1Rate fn, Bridge.flitLo fn,
    Bridge.mod0Repairs fn, Bridge.mod1Repairs fn, Bridge.rateCap fn]).map fun f => (f, s.get f)) fun x => set x.1 x.2).Within F := by
  have bridge {a : Nat} (lo : 0x01300000 + 0x10000 * fn ≤ a) (hi : a < 0x01300100 + 0x10000 * fn) : F.reg a := reg _ (.inl ⟨lo, hi⟩)
  refine within_forEach.mpr fun x hx => ?_
  obtain ⟨f, hf, rfl⟩ := List.mem_map.mp hx
  have at_ : f.width ≤ 32 ∧ 0x01300000 + 0x10000 * fn ≤ f.addr ∧ f.addr < 0x01300100 + 0x10000 * fn := by
    simp only [List.mem_cons, List.not_mem_nil, or_false] at hf
    obtain rfl | rfl | rfl | rfl | rfl | rfl | rfl := hf
    all_goals simp only [Bridge.replays, Bridge.mod0Rate, Bridge.mod1Rate, Bridge.flitLo, Bridge.mod0Repairs, Bridge.mod1Repairs,
      Bridge.rateCap]; omega
  exact within_set.mpr ⟨bridge at_.2.1 at_.2.2, fun wide => absurd at_.1 (Nat.not_le.mpr wide)⟩

theorem within_resetAfter (byte : ∀ a, F.byte a) (s : State) : (resetAfter fn s).Within F := by
  have hosted (f : HostIf → HostIf) : (setHost f).Within F := within_dev.mpr (host f)
  have memory : (forEach [0, 1] fun k => clearMem (prefetchBase fn k) 0x1000).Within F := within_forEach.mpr fun _ _ => within_clearMem byte _ _
  simp only [resetAfter, within_cons, within_nil, within_when, hosted, within_resetPage reg, within_resetBridge reg, within_showReady reg,
    within_clearMem byte, memory, within_putShared reg, implies_true, and_self]

end

/-- The reset of a function answers the commands of its mailboxes in the journal (R177). -/
theorem resetFunction_journal (fn : Nat) (s : State) : (run (resetFunction fn) s).dev.journal
    = s.dev.journal.map fun e => if (allMailboxes.filter fun m => m.fn = fn).contains e.mb then { e with answered := true } else e := by
  have before := within_resetBefore (F := sparingDev Dev.journal) (fn := fn) (fun _ _ => trivial) (fun _ _ => rfl) s
  have after := within_resetAfter (F := sparingDev Dev.journal) (fn := fn) (fun _ _ => trivial) (fun _ _ => rfl) (fun _ => trivial) s
  rw [run_resetFunction, after.sparedDev, run_dev]
  exact congrArg (List.map _) (before.sparedDev s)

/-- The reset of a function leaves alone a field that none of its registers holds. -/
theorem resetFunction_get {fn : Nat} {f : Fld} (w : f.width ≤ 32) (apart : ¬ ResetWord fn f.addr) (s : State) :
    (run (resetFunction fn) s).get f = s.get f := by
  have reg (a : Nat) (h : ResetWord fn a) : (sparing f).reg a := (sparing_narrow w a).mpr fun e => apart (e ▸ h)
  have before := within_resetBefore reg (fun _ => trivial) s
  have after := within_resetAfter reg (fun _ => trivial) (fun _ => trivial) s
  rw [run_resetFunction, after.spared, run_dev, get_dev, before.spared]

theorem resetFunction_tw (fn : Nat) (s : State) : (run (resetFunction fn) s).dev.tw = s.dev.tw := by
  have before := within_resetBefore (F := sparingDev Dev.tw) (fn := fn) (fun _ _ => trivial) (fun _ _ => rfl) s
  have after := within_resetAfter (F := sparingDev Dev.tw) (fn := fn) (fun _ _ => trivial) (fun _ _ => rfl) (fun _ => trivial) s
  rw [run_resetFunction, after.sparedDev, run_dev]
  exact before.sparedDev s

/-- A command for the S world that passes its checks came from a mailbox of the S world. -/
theorem CmdSpec.fromS {sp : CmdSpec} (only : sp.sOnly = true) (passed : sp.verdict c s = (0, [])) : s.mbS c.mb = true := by
  by_contra n
  rw [CmdSpec.verdict] at passed
  rw [if_pos (by simp [only, n])] at passed
  cases passed

/-- The reset of the N world leaves a mailbox of the S world as it was. -/
theorem nworldReset_done {u : State} (own : m = .twoWire ∨ ∃ k, m = .pf1 k) (h : Done m 1 u) :
    Done m 1 (run (set BootReg.resetCause 6) (run (resetFunction 0) u)) := by
  obtain rfl | ⟨k, rfl⟩ := own
  · have tw : (run (set BootReg.resetCause 6) (run (resetFunction 0) u)).dev.tw = u.dev.tw := by rw [set_dev, resetFunction_tw]
    obtain ⟨state, status⟩ := h
    simp only [State.mbState, State.lastStatus] at state status
    exact ⟨by rw [State.mbState, tw]; exact state, by rw [State.lastStatus, tw]; exact status⟩
  · have kept {f : Fld} (w : f.width ≤ 32) (at_ : f.addr = MbId.base (.pf1 k) + 0x804) :
        (run (set BootReg.resetCause 6) (run (resetFunction 0) u)).get f = u.get f := by
      have page : 0x10000014000 ≤ f.addr ∧ f.addr < 0x10000020000 ∧ f.addr % 0x1000 = 0x804 := by
        simp only [at_, MbId.base, hostKey]; omega
      rw [get_set_other _ _ _ _ w (by simp only [BootReg.resetCause]; omega) (.inl (by decide)),
        resetFunction_get w (by simp only [ResetWord, Told, hostKey]; omega)]
    exact ⟨(kept (by simp [Mbx.state]) rfl).trans h.1, (kept (by simp [Mbx.lastStatus]) rfl).trans h.2⟩

theorem nworldReset_accepted (h : Executes specNworldReset m r s c) :
    Answers (.nworldReset m r) s fun t => (Done m 1 t ∧ ∃ e ∈ t.dev.journal, e.seq = c.take ∧ e.phase = .pending ∧ e.req = r)
      ∧ t.get BootReg.resetCause = 6 := by
  have own : m = .twoWire ∨ ∃ k, m = .pf1 k := by
    have world := CmdSpec.fromS rfl h.2.2.1
    rw [h.mb, specNworldReset.taken_mbS r h.1] at world
    cases m with
    | pf0 k => cases world
    | pf1 k => exact .inr ⟨k, rfl⟩
    | twoWire => exact .inl rfl
    | cascade a t => cases h.1.1
  refine answers_next rfl ?_
  rw [h.run_pending rfl]
  obtain ⟨done, e, he, seq, phase, req⟩ := h.accepting 20000
  generalize specNworldReset.answered c 20000 s = u at *
  have effect : run (specNworldReset.effect c) u = run (set BootReg.resetCause 6) (run (resetFunction 0) u) := by
    simp only [specNworldReset, run_block_cons, run_block_nil]
  rw [effect]
  refine ⟨⟨nworldReset_done own done, if (allMailboxes.filter fun m => m.fn = 0).contains e.mb then { e with answered := true } else e, ?_, ?_⟩,
    get_set_same _ _ _ (by decide)⟩
  · rw [set_dev, resetFunction_journal]
    exact List.mem_map_of_mem he
  · split <;> exact ⟨seq, phase, req⟩

end

/-- Settles O47. -/
theorem securityCommandsAct : Obligations.SecurityCommandsAct := by
  unfold Obligations.SecurityCommandsAct
  exact ⟨fun _ _ _ _ h => worldStatus_replies h, fun _ _ _ _ h => worldQuery_node_replies h, fun _ _ _ _ h => worldQuery_address_replies h,
    fun _ _ _ _ h => nworldReset_accepted h, fun _ _ _ _ h => attestCert_accepted h, fun _ _ _ _ h => attestReport_replies h,
    fun _ _ _ _ h => keyLoad_loads h, fun _ _ _ _ h => keyClear_clears h, fun _ _ _ _ h => streamTagSet_sets h,
    fun _ _ _ _ h => rollbackAdvance_accepted h⟩

end Sys2Proof.Machine
end


section
/-! The live-service commands (class 0x10): firmware slots, spare pipelines and parked heads (R551 to R563). -/

namespace Sys2Proof.Machine
open Reg

/-! Powering a cluster or a pipeline. -/

/-- The registers of power domains and node headers, which powering a target writes. -/
abbrev PowerWord (a : Nat) : Prop := (0x1000200 ≤ a ∧ a < 0x1000240) ∨ (0x01100000 ≤ a ∧ a < 0x01120000)

section
variable {F : Foot} (reg : ∀ a, PowerWord a → F.reg a)
include reg

theorem within_setDomain {d : Nat} (hd : d < 93) (on ret : Bool) : (setDomain d on ret).Within F := by
  have word {k : Nat} (hk : k < 0x40) : F.reg (0x1000200 + k) := reg _ (.inl ⟨by omega, by omega⟩)
  have on_ : F.reg (Dom.domainOn (d / 32)).addr := reg _ (.inl ⟨by simp only [Dom.domainOn]; omega, by simp only [Dom.domainOn]; omega⟩)
  have ret_ : F.reg (Dom.domainRet (d / 32)).addr := reg _ (.inl ⟨by simp only [Dom.domainRet]; omega, by simp only [Dom.domainRet]; omega⟩)
  intro s
  simp only [within_cons, within_nil, within_set, on_, ret_, and_true, true_and]
  exact ⟨fun wide => absurd wide (by simp [Dom.domainOn]), fun wide => absurd wide (by simp [Dom.domainRet])⟩

theorem within_setState {nid : Nat} (h : nid < 0x140) (st : Nat) : (setState nid st).Within F := by
  have word {d : Nat} (hd : d < 0x40) : F.reg (0x01100000 + 0x40 * nid + d) := reg _ (.inr ⟨by omega, by omega⟩)
  intro s
  dsimp only
  split
  · trivial
  · simp [Node.state, Node.timeSec, Node.timeNs, word]

theorem within_powerCluster {k : Nat} (hk : k < 8) : (powerCluster k).Within F := fun s => by
  dsimp only
  split
  · trivial
  · simp [within_setDomain reg (show 13 + k < 93 by omega), within_setDomain reg (show 21 + k < 93 by omega),
      within_setState reg (show nidCluster k < 0x140 by simp only [nidCluster]; omega)]

theorem within_powerPipe {p : Nat} (hp : p < 64) : (powerPipe p).Within F := by
  have pipe (s : State) : (if s.get (Node.state (nidPipe p)) = stOff then block [setDomain (29 + p) true false, setState (nidPipe p) stGated]
      else .skip).Within F := by
    split
    · simp [within_setDomain reg (show 29 + p < 93 by omega), within_setState reg (show nidPipe p < 0x140 by simp only [nidPipe]; omega)]
    · trivial
  simp [powerPipe, within_powerCluster reg (show p / 8 < 8 by omega), pipe, -within_ite]

end

/-- A target that is a cluster or a pipeline is named by its NID. -/
theorem nidKind_of_target {s : State} {addr : Nat} {t : Target} (h : s.target addr = some t) (node : t.kind.level = .cluster ∨ t.kind.level = .pipeline) :
    ∃ n, nidKind n = some t.kind := by
  unfold State.target at h
  dsimp only at h
  split at h
  · cases h
  split at h
  · cases h
  split at h
  · cases h
  split at h
  · cases h
  next x found =>
  have named : x = t.kind := by
    split at h
    · split at h
      · cases h; simp [NodeKind.level] at node
      · cases h
    · cases h; rfl
  rw [named] at found
  have other {k : NodeKind} (e : some k = some t.kind) (h : k = .group ∨ k = .device) : False := by
    rw [← Option.some.inj e] at node
    obtain rfl | rfl := h <;> simp [NodeKind.level] at node
  split at found
  · split at found
    · exact (other found (.inl rfl)).elim
    · exact (other found (.inr rfl)).elim
  split at found
  · split at found
    · cases found
    · exact (other found (.inl rfl)).elim
  · exact ⟨_, found⟩

/-- What a NID can name. -/
theorem nidKind_range {n : Nat} {k : NodeKind} (h : nidKind n = some k) : k = .device ∨ (∃ c < 8, k = .cluster c) ∨ ∃ p < 64, k = .pipeline p := by
  unfold nidKind at h
  split at h
  · cases h; exact .inl rfl
  split at h
  · cases h; exact .inr (.inl ⟨_, by omega, rfl⟩)
  split at h
  · cases h; exact .inr (.inr ⟨_, by omega, rfl⟩)
  · cases h

/-- The cluster that a target names is one of the eight. -/
theorem target_cluster_lt {s : State} {addr k : Nat} {t : Target} (h : s.target addr = some t) (kind : t.kind = .cluster k) : k < 8 := by
  obtain ⟨n, named⟩ := nidKind_of_target h (.inl (by rw [kind]; rfl))
  obtain device | ⟨c, hc, e⟩ | ⟨p, hp, e⟩ := nidKind_range named
  · rw [kind] at device; cases device
  · rw [kind] at e; cases e; exact hc
  · rw [kind] at e; cases e

/-- The pipeline that a target names is one of the 64. -/
theorem target_pipeline_lt {s : State} {addr p : Nat} {t : Target} (h : s.target addr = some t) (kind : t.kind = .pipeline p) : p < 64 := by
  obtain ⟨n, named⟩ := nidKind_of_target h (.inr (by rw [kind]; rfl))
  obtain device | ⟨c, hc, e⟩ | ⟨q, hq, e⟩ := nidKind_range named
  · rw [kind] at device; cases device
  · rw [kind] at e; cases e
  · rw [kind] at e; cases e; exact hq

end Sys2Proof.Machine
end


section
/-! Class 0x10, command by command. -/

namespace Sys2Proof.Machine
open Reg

section
variable {sp : CmdSpec} {m : MbId} {r : Req} {c : Ctx} {s : State}

/-- A context's target is the one that its request names, at a level that the command accepts. -/
theorem CmdSpec.context_target (h : sp.context m r s = .inr c) :
    s.target r.node.toNat = some c.tgt ∧ sp.levels.contains c.tgt.kind.level = true := by
  unfold CmdSpec.context at h
  split at h
  · cases h
  split at h
  · cases h
  split at h
  · cases h
  split at h
  · cases h
  split at h
  · cases h
  next t named =>
  split at h
  · cases h
  next level =>
  have allowed : sp.levels.contains t.kind.level = true := by simpa using level
  split at h
  · split at h
    · cases h
    · cases h; exact ⟨named, allowed⟩
  · cases h; exact ⟨named, allowed⟩

/-- A command for clusters alone names one of the eight. -/
theorem Executes.cluster (h : Executes sp m r s c) (only : sp.levels = [.cluster]) : c.tgt.kind = .cluster c.cluster ∧ c.cluster < 8 := by
  obtain ⟨named, level⟩ := CmdSpec.context_target h.2.1
  rw [only] at level
  have kind : c.tgt.kind = .cluster c.cluster := by
    unfold Ctx.cluster
    cases kind : c.tgt.kind with
    | cluster k => rfl
    | _ => rw [kind] at level; simp [NodeKind.level] at level
  exact ⟨kind, target_cluster_lt named kind⟩

theorem fwSwap_accepted (h : Executes specFwSwap m r s c) :
    Answers (.fwSwap m r) s fun t => Done m 1 t ∧ ∃ e ∈ t.dev.journal, e.seq = c.take ∧ e.phase = .pending ∧ e.req = r := by
  refine answers_next rfl ?_
  rw [h.run_pending rfl]
  exact (h.accepting 100000).keepParts c _

theorem fwStatus_replies (h : Executes specFwStatus m r s c) :
    Answers (.fwStatus m r) s fun t => Replied specFwStatus m r c.tgt.nid 0 [⟨4, (s.slotOf 0).bytes ++ (s.slotOf 1).bytes⟩] t := by
  have boot : (specFwStatus.taken m r s).dev.boot = s.dev.boot :=
    specFwStatus.taken_dev r h.1 ⟨fun _ _ _ _ _ _ => rfl, fun _ _ => rfl, fun _ _ _ => rfl⟩
  refine answers_next rfl (h.replied_with rfl rfl (Ctx.lacks_unknown h.checked.2.1 rfl (by decide)) ?_)
  have results (s : State) : specFwStatus.results c s = [⟨4, (s.slotOf 0).bytes ++ (s.slotOf 1).bytes⟩] := rfl
  simp only [results, State.slotOf, boot]

theorem liveStatus_replies (h : Executes specLiveStatus m r s c) (device : c.tgt.kind = .device) :
    Answers (.liveStatus m r) s fun t => Replied specLiveStatus m r c.tgt.nid 0 [⟨0x20, s.words 0x01000300 37⟩] t := by
  have results (s : State) : specLiveStatus.results c s = [⟨0x20, s.words 0x01000300 37⟩] := by simp only [specLiveStatus, device]
  have replied := h.replied rfl (Ctx.lacks_unknown h.checked.2.1 rfl (by decide))
  have plain (k : Nat) (hk : k < 37) : PlainWord (0x01000300 + 4 * k) :=
    ⟨by omega, by omega, by omega, by simp only [isMemory, ← Bool.not_eq_true, Bool.or_eq_true, Bool.and_eq_true, decide_eq_true_eq]; omega, by omega⟩
  rw [h.powered_device device, results, specLiveStatus.taken_words r h.1 (by decide) (by decide) plain] at replied
  exact answers_next rfl replied

/-! Parked heads. -/

theorem asm_setParked (i : Nat) (f : List Parked → List Parked) (s : State) :
    (run (setParked i f) s).asm i = { s.asm i with parked := f (s.asm i).parked } := Tbl.get_set_same ..

theorem headPark_parks (h : Executes specHeadPark m r s c) :
    Answers (.headPark m r) s fun t => Done m 0 t
      ∧ (t.asm (c.val 0x10)).parked = (s.asm (c.val 0x10)).parked ++ [⟨c.val 0x11, headN c s false, none, none⟩] := by
  have hi : c.val 0x10 < 16 := Nat.lt_succ_of_le (Ctx.required_range h.checked.2.1 (k := 0x10) rfl rfl (by decide)).2
  have seen := specHeadPark.taken_alike r h.1
  rw [← h.powered_taken rfl] at seen
  have least : headN c (specHeadPark.powered c s) false = headN c s false := by
    simp only [headN, headLeast, Bool.false_eq_true, if_false, State.earliestN, seen.next hi,
      seen.timing hi (f := Trig.minPeriod (c.val 0x10)) (d := 0x1c) (by simp [Trig.minPeriod]) rfl (by decide)]
  refine answers_next rfl ⟨h.done rfl, ?_⟩
  rw [State.asm, h.dev rfl offMailbox_asms fun _ _ => rfl, ← least, ← seen.asm, specHeadPark]
  simp only [run_look']
  exact congrArg AsmSt.parked (asm_setParked ..)

/-- A parked head as HEAD_RESUME leaves it: back from an index on, where it is the head named. -/
def resumed (c : Ctx) (n : Nat) (k : Parked) : Parked :=
  if k.head = c.val 0x11 && k.until_.isNone then
    { k with until_ := some n, offset := if c.has 0x12 then some (c.val 0x12) else none }
  else k

theorem headResume_resumes (h : Executes specHeadResume m r s c) (given : c.val 2 ≠ 0) :
    Answers (.headResume m r) s fun t => Done m 0 t ∧ ∃ x ∈ (t.asm (c.val 0x10)).parked, x.head = c.val 0x11 ∧ x.until_ = some (c.val 2) := by
  have refused := h.checked.2.2.2
  rw [← h.powered_taken rfl] at refused
  refine answers_next rfl ⟨h.done rfl, ?_⟩
  rw [State.asm, h.dev rfl offMailbox_asms fun _ _ => rfl]
  generalize specHeadResume.powered c s = u at *
  obtain ⟨k, parked, live⟩ : ∃ k, u.parkedAt (c.val 0x10) (c.val 0x11) (u.next (c.val 0x10)) = some k ∧ k.until_ = none := by
    cases found : u.parkedAt (c.val 0x10) (c.val 0x11) (u.next (c.val 0x10)) with
    | none => simp [specHeadResume, found] at refused
    | some k =>
      simp only [specHeadResume, found] at refused
      simp only [Bool.or_eq_false_iff] at refused
      exact ⟨k, rfl, by simpa using refused.1.2⟩
  have k_in := List.mem_of_find?_eq_some parked
  have k_head : k.head = c.val 0x11 := by
    have := List.find?_some parked
    simp only [Bool.and_eq_true, decide_eq_true_eq] at this
    exact this.1
  have resume : headN c u true = c.val 2 := if_neg given
  have effect : (run (specHeadResume.effect c) u).asm (c.val 0x10)
      = { u.asm (c.val 0x10) with parked := (u.asm (c.val 0x10)).parked.map (resumed c (headN c u true)) } := by
    simp only [specHeadResume, run_look']
    exact asm_setParked ..
  refine ⟨{ k with until_ := some (c.val 2), offset := if c.has 0x12 then some (c.val 0x12) else none }, ?_, k_head, rfl⟩
  rw [State.asm] at effect
  rw [effect]
  exact List.mem_map.mpr ⟨k, k_in, by simp [resumed, k_head, live, resume]⟩

/-! Spare pipelines. -/

/-- Powering writes registers of domains and node headers, and nothing else. -/
def powerFoot : Foot where
  reg := PowerWord
  byte _ := False
  dev _ := False
  out := False

theorem powerFoot_dev {p : Prog} (h : p.Within powerFoot) (s : State) : (run p s).dev = s.dev :=
  h.dev (g := id) (fun _ _ no => no.elim) s

theorem powerFoot_get {p : Prog} (h : p.Within powerFoot) {f : Fld} (w : f.width ≤ 32) (apart : ¬ PowerWord f.addr) (s : State) :
    (run p s).get f = s.get f := h.get apart (.inl w) s

/-- Powering leaves a mailbox's answer and the journal as they were. -/
theorem Accepting.power {take : Nat} {t : State} (h : Accepting m r take t) {p : Prog} (w : p.Within powerFoot) :
    Accepting m r take (run p t) := by
  obtain ⟨⟨state, status⟩, entry⟩ := h
  have dev := powerFoot_dev w t
  have word {f : Fld} (narrow : f.width ≤ 32) (at_ : 0x10000000000 ≤ f.addr) : (run p t).get f = t.get f :=
    powerFoot_get w narrow (by simp only [PowerWord]; omega) t
  refine ⟨?_, by rw [dev]; exact entry⟩
  cases m with
  | twoWire => exact ⟨by rw [State.mbState, dev]; exact state, by rw [State.lastStatus, dev]; exact status⟩
  | cascade a k => cases state
  | pf0 k => exact ⟨(word (by simp [Mbx.state]) (by simp only [Mbx.state, MbId.base, hostKey]; omega)).trans state,
      (word (by simp [Mbx.lastStatus]) (by simp only [Mbx.lastStatus, MbId.base, hostKey]; omega)).trans status⟩
  | pf1 k => exact ⟨(word (by simp [Mbx.state]) (by simp only [Mbx.state, MbId.base, hostKey]; omega)).trans state,
      (word (by simp [Mbx.lastStatus]) (by simp only [Mbx.lastStatus, MbId.base, hostKey]; omega)).trans status⟩

/-- The pipeline that a key numbers in a cluster is one of the 64. -/
theorem Executes.pipeK (h : Executes sp m r s c) (only : sp.levels = [.cluster]) (known : (sp.keys.find? fun x => x.key = 1) = some (needAny 1 0 7)) :
    c.pipeK < 64 := by
  have k := (h.cluster only).2
  have j : c.val 1 ≤ 7 := (Ctx.required_range h.checked.2.1 known rfl (by decide)).2
  simp only [Ctx.pipeK]; omega

theorem spareOf_lt {k : Nat} (hk : k < 8) (s : State) : s.spareOf k < 64 := by
  have : s.get (Role.spareK k) < 2 ^ 3 := get_lt (f := Role.spareK k) (by simp [Role.spareK]) s
  simp only [State.spareOf]; omega

theorem spareCopy_accepted (h : Executes specSpareCopy m r s c) :
    Answers (.spareCopy m r) s fun t => Done m 1 t ∧ ∃ e ∈ t.dev.journal, e.seq = c.take ∧ e.phase = .pending ∧ e.req = r := by
  have power : (specSpareCopy.effect c).Within powerFoot := by
    refine within_look.mpr fun u => ?_
    simp [within_powerPipe (F := powerFoot) (fun _ => id) (h.pipeK rfl rfl), within_powerPipe (F := powerFoot) (fun _ => id)
      (spareOf_lt (h.cluster rfl).2 u)]
  refine answers_next rfl ?_
  rw [h.run_pending rfl]
  exact (h.accepting 5000).power power

/-- Registers that powering leaves alone, beside the mailboxes, are those before the command. -/
theorem Executes.powered_reg (h : Executes sp m r s c) (only : sp.levels = [.cluster]) {a : Nat} (lo : 0x804 < a) (hi : a < 0x10000003000)
    (apart : ¬ PowerWord a) : (sp.powered c s).reg a = s.reg a := by
  obtain ⟨kind, k⟩ := h.cluster only
  have power : (when sp.powers (powerTarget c.tgt.kind)).Within powerFoot := by
    rw [kind]
    exact within_when.mpr fun _ => within_powerCluster (fun _ => id) k
  rw [← h.run_power, power.reg apart, sp.taken_reg r h.1 (ne_mbxWord_of_low m lo hi)]

/-- Which stream a pipeline serves is as it was before the command. -/
theorem Executes.powered_boundStream (h : Executes sp m r s c) (only : sp.levels = [.cluster]) (p : Nat) :
    (sp.powered c s).boundStream p = s.boundStream p := by
  have reg {a : Nat} (lo : 0x01140000 ≤ a) (hi : a < 0x10000003000) : (sp.powered c s).reg a = s.reg a :=
    h.powered_reg only (by omega) hi (by simp only [PowerWord]; omega)
  have seen {f : Fld} (w : f.width ≤ 32) (lo : 0x01140000 ≤ f.addr) (hi : f.addr < 0x10000003000) : (sp.powered c s).get f = s.get f := by
    rw [get_narrow _ f w, get_narrow _ f w, reg lo hi]
  have own : (sp.powered c s).dev.ownIndex = s.dev.ownIndex := h.powered_dev offMailbox_ownIndex
  have admitted {i : Nat} (hi : i ∈ allStreams) : (sp.powered c s).admitted i = s.admitted i := by
    have := List.mem_range.mp hi
    rw [State.admitted, State.admitted, State.sState, State.sState, seen (by simp [Del.state]) (by simp only [Del.state]; omega)
      (by simp only [Del.state]; omega)]
  have heads {i : Nat} (hi : i < 16) : (sp.powered c s).heads i = s.heads i := List.filter_congr fun x hx => by
    have := List.mem_range.mp hx
    rw [State.on, State.on, seen (by simp [Head.valid]) (by simp only [Head.valid]; omega) (by simp only [Head.valid]; omega)]
  have pipeOfVc {n : Nat} (hn : n < 64) (vc : Nat) : (sp.powered c s).pipeOfVc n vc = s.pipeOfVc n vc := by
    have base : 0x10100000 ≤ portBase n ∧ portBase n < 0x20000000 := by unfold portBase; split <;> omega
    have steers : (sp.powered c s).steers n = s.steers n := by
      refine congrArg (List.filter _) (List.map_congr_left fun e he => ?_)
      have := List.mem_range.mp he
      rw [State.steer, State.steer, reg (by simp only [steerWord]; omega) (by simp only [steerWord]; omega),
        reg (by simp only [steerWord]; omega) (by simp only [steerWord]; omega)]
    rw [State.pipeOfVc, State.pipeOfVc, steers]
  have pipeOf {i x : Nat} (hi : i < 16) (hx : x < 256) : (sp.powered c s).pipeOf i x = s.pipeOf i x := by
    have word {f : Fld} (w : f.width ≤ 32) (at_ : f.addr = 0x01512000 + 0x4000 * i + 0x20 * x) : (sp.powered c s).get f = s.get f :=
      seen w (by omega) (by omega)
    have port : s.get (Head.port i x) < 2 ^ 6 := get_lt (f := Head.port i x) (by simp [Head.port]) s
    rw [State.pipeOf, State.pipeOf, State.headLocal, State.headLocal, own, word (by simp [Head.device]) rfl, word (by simp [Head.port]) rfl,
      word (by simp [Head.vc]) rfl, pipeOfVc port]
  have streams : (sp.powered c s).streamsOf p = s.streamsOf p := by
    rw [State.streamsOf, State.streamsOf, List.filter_congr fun i hi => admitted hi]
    refine List.filter_congr fun i hi => ?_
    have i16 : i < 16 := List.mem_range.mp (List.mem_filter.mp hi).1
    rw [heads i16, Bool.eq_iff_iff, List.any_eq_true, List.any_eq_true]
    refine exists_congr fun x => and_congr_right fun hx => ?_
    rw [pipeOf i16 (List.mem_range.mp (List.mem_filter.mp hx).1)]
  rw [State.boundStream, State.boundStream, streams]
  exact List.find?_congr fun i hi => admitted (List.mem_filter.mp (List.mem_filter.mp hi).1).1

/-- An armed swap stands last in the list of swaps. -/
theorem armSwap_swaps (k i n old spare : Nat) (auto : Bool) (guard : Nat) (s : State) :
    (run (armSwap k i n old spare auto guard) s).dev.swaps = s.dev.swaps ++ [(k, ⟨i, n, old, spare, auto, guard⟩)] := by
  have latency (dt : Nat) (u : State) : (run (writeLatency spare dt) u).dev.swaps = u.dev.swaps :=
    Prog.Within.sparedDev (g := Dev.swaps) (by simp [writeLatency]) u
  simp only [armSwap, run_look', run_block_cons, run_block_nil, set_dev, setSwaps, setPwr, run_dev]
  exact congrArg (· ++ [_]) (latency ..)

theorem spareSwap_arms (h : Executes specSpareSwap m r s c) {i : Nat} (bound : s.boundStream c.pipeK = some i) :
    Answers (.spareSwap m r) s fun t => Done m 0 t
      ∧ (t.dev.swaps.any fun x => x.1 = c.cluster && x.2.old = c.pipeK && x.2.stream = i) = true := by
  have seen := (h.powered_boundStream rfl c.pipeK).trans bound
  refine answers_next rfl ⟨h.done rfl, ?_⟩
  rw [h.dev rfl (g := Dev.swaps) ⟨fun _ _ _ _ _ _ => rfl, fun _ _ => rfl, fun _ _ _ => rfl⟩ fun _ _ => rfl]
  generalize specSpareSwap.powered c s = u at *
  simp only [specSpareSwap, run_look', seen, run_block_cons, run_block_nil]
  rw [armSwap_swaps]
  simp

/-! The automatic spare (R559). -/

/-- The registers of pipelines and clusters, and the latencies in node headers, which a spare that takes over has written. -/
abbrev SpareWord (a : Nat) : Prop := 0x10000000 ≤ a ∨ (0x01100000 ≤ a ∧ a % 0x40 = 16)

section
variable {F : Foot} (reg : ∀ a, SpareWord a → F.reg a) (byte : ∀ a, F.byte a) (dev : ∀ f, F.dev f)
include reg

theorem within_writeLatency (p dt : Nat) : (writeLatency p dt).Within F := by
  have own : F.reg (0x20000000 + 0x100000 * p + 0x7000) := reg _ (.inl (by omega))
  have stage (k : Nat) : F.reg (0x01110000 + 0x40 * (p * 16 + k) + 16) := reg _ (.inr (by omega))
  have node : F.reg (0x01100000 + 0x40 * nidPipe p + 16) := reg _ (.inr (by omega))
  simp [writeLatency, Col.comps3, Node.stageLatency, Node.latency, own, stage, node]

theorem within_copyWords (old new : Nat) : (copyWords old new).Within F := by
  have own {d : Nat} : F.reg (0x20000000 + 0x100000 * new + d) := reg _ (.inl (by omega))
  simp [copyWords, updateLatency, within_writeLatency reg, pipeBase, Corr.bypass2, Corr.staticEn, Corr.hotEn, Corr.coldEn, own]

include byte dev

theorem within_copyBank (old new : Nat) : (copyBank old new).Within F := by
  have own {d : Nat} : F.reg (0x20000000 + 0x100000 * new + d) := reg _ (.inl (by omega))
  have crc (b v : Nat) : (set (crcReg new b) v).Within F := by
    unfold crcReg
    split <;> simp [Corr.crcA, Corr.crcB, own]
  simp [copyBank, store, eccMend, setEcc, within_setBytes byte, crc, Corr.staticCount, own, dev]

end

theorem spareWord_live (a : Nat) (h : SpareWord a) : (sparing Live.autoSpare).reg a :=
  (sparing_narrow (by decide) a).mpr (by simp only [Live.autoSpare]; omega)

/-- The bit of a pending swap is another bit of the word of the automatic spares. -/
theorem swapPending_live (v : Nat) (s : State) : (run (set Live.swapPending v) s).get Live.autoSpare = s.get Live.autoSpare :=
  get_set_apart (by decide) (by decide) (.inr (.inl (by decide)))

theorem armSwap_live (k i n old spare : Nat) (auto : Bool) (guard : Nat) : Keeps (fun s => s.get Live.autoSpare) (armSwap k i n old spare auto guard) := by
  have own {o : Nat} : (sparing Live.autoSpare).reg (0x20000000 + 0x100000 * spare + o) := spareWord_live _ (.inl (by omega))
  have cluster {o : Nat} : (sparing Live.autoSpare).reg (0x10000000 + 0x01000000 * k + o) := spareWord_live _ (.inl (by omega))
  intro s
  have before : (block [
      set (Col.format spare) (s.get (Col.format old)), set (Reg.Col.fill spare) (s.get (Reg.Col.fill old)), set (Scr.quota spare) (s.get (Scr.quota old)),
      set (Scr.margin spare) (s.get (Scr.margin old)), set (Scr.cutout spare) (s.get (Scr.cutout old))]).Within (sparing Live.autoSpare) := by
    simp [Col.format, Reg.Col.fill, Scr.quota, Scr.margin, Scr.cutout, own, -sparing_reg]
  have after : (block [
      set (Swap.swapIndexLo k) n, set (Swap.swapIndexHi k) (n / 0x100000000), set (Swap.swapFrom k) (old % 8), set (Swap.swapTo k) (spare % 8),
      set (Swap.suspending k) (boolNat (guard = 1))]).Within (sparing Live.autoSpare) := by
    simp [Swap.swapIndexLo, Swap.swapIndexHi, Swap.swapFrom, Swap.swapTo, Swap.suspending, cluster, -sparing_reg]
  have settings := before.keepsGet s
  simp only [run_block_cons, run_block_nil] at settings
  have armed (u : State) := after.keepsGet u
  simp only [run_block_cons, run_block_nil] at armed
  have latency (u : State) : (run (writeLatency spare (s.dtOf old)) u).get Live.autoSpare = u.get Live.autoSpare := (within_writeLatency spareWord_live spare (s.dtOf old)).keepsGet u
  simp only [armSwap, run_look', run_block_cons, run_block_nil]
  rw [armed, swapPending_live, setSwaps, run_dev, get_dev, latency, setPwr, run_dev, get_dev, settings]

theorem putBits_lt {n lo w v k : Nat} (hn : n < 2 ^ k) (fits : lo + w ≤ k) : putBits n lo w v < 2 ^ k :=
  Nat.lt_pow_two_of_testBit _ fun i hi => by
    rw [testBit_putBits, if_neg (by omega)]
    exact Nat.testBit_lt_two_pow (Nat.lt_of_lt_of_le hn (Nat.pow_le_pow_right (by decide) hi))

theorem autoSpare_offMailbox : Live.autoSpare.OffMailbox where
  narrow := by decide
  low := by decide
  high := by decide
  untold := by simp only [Told, Live.autoSpare]; omega
  offBus := by simp only [BusWord, Live.autoSpare]; omega

theorem autoSpare_live {p : Nat} (hp : p < 64) : Keeps (fun s => s.get Live.autoSpare) (autoSpare p) := by
  have told := untold_get autoSpare_offMailbox.untold (.inl autoSpare_offMailbox.narrow)
  have power (a : Nat) (word : PowerWord a) : (sparing Live.autoSpare).reg a :=
    (sparing_narrow (by decide) a).mpr (by simp only [Live.autoSpare, PowerWord] at *; omega)
  refine keeps_look fun s => ?_
  dsimp only
  split
  · exact keeps_skip
  next i _ =>
    refine keeps_ite ?_ keeps_skip
    have powered := (within_powerPipe power (spareOf_lt (k := p / 8) (by omega) s)).keepsGet
    have words := fun spare => (within_copyWords spareWord_live p spare).keepsGet
    have bank := fun spare => (within_copyBank spareWord_live (fun _ => trivial) (fun _ => trivial) p spare).keepsGet
    refine keeps_cons powered (keeps_cons (words _) (keeps_cons (keeps_when (bank _)) ?_))
    exact keeps_cons (keeps_look fun _ => armSwap_live _ _ _ _ _ _ _) (keeps_cons (untold_raise told _ _ _ _) keeps_nil)

theorem autoSpares_live {k : Nat} (hk : k < 8) : Keeps (fun s => s.get Live.autoSpare) (autoSpares k) :=
  keeps_look fun s => keeps_forEach fun p hp => autoSpare_live (by
    obtain ⟨j, hj, rfl⟩ := List.mem_map.mp (List.mem_filter.mp hp).1
    have := List.mem_range.mp hj
    omega)

theorem autoSpareSet_sets (h : Executes specAutoSpareSet m r s c) :
    Answers (.autoSpareSet m r) s fun t => Done m 0 t ∧ t.get Live.autoSpare = putBits (s.get Live.autoSpare) c.cluster 1 (c.val 6) := by
  have k := (h.cluster rfl).2
  refine answers_next rfl ⟨h.done rfl, ?_⟩
  rw [h.get rfl autoSpare_offMailbox, h.powered_taken rfl, ← specAutoSpareSet.taken_get r h.1 autoSpare_offMailbox]
  generalize specAutoSpareSet.taken m r s = u
  have small : putBits (u.get Live.autoSpare) c.cluster 1 (c.val 6) < 2 ^ 8 :=
    putBits_lt (get_lt (f := Live.autoSpare) (by decide) u) (by omega)
  simp only [specAutoSpareSet, run_block_cons, run_block_nil, run_look']
  rw [get_set_then (by decide) (keeps_when (autoSpares_live k))]
  exact Nat.mod_eq_of_lt small

end

/-- Settles O48. -/
theorem liveServiceCommandsAct : Obligations.LiveServiceCommandsAct :=
  ⟨fun _ _ _ _ => fwSwap_accepted, fun _ _ _ _ => fwStatus_replies, fun _ _ _ _ => spareCopy_accepted,
    fun _ _ _ _ _ h bound _ => spareSwap_arms h bound, fun _ _ _ _ => autoSpareSet_sets, fun _ _ _ _ => headPark_parks,
    fun _ _ _ _ => headResume_resumes, fun _ _ _ _ => liveStatus_replies⟩

end Sys2Proof.Machine
end


section
/-! Host reads and writes through the BARs (R118, R120, R522, R591). -/

namespace Sys2Proof.Machine
open Reg

/-! Reads of BAR0. -/

/-- The addresses that BAR0 shows to a function below 2. -/
theorem bar0Addr_range {fn off a : Nat} (hfn : fn < 2) (h : bar0Addr fn off = some a) :
    (0x01000000 ≤ a ∧ a < 0x01001000) ∨ (0x01300000 ≤ a ∧ a < 0x01321000) ∨ 0x10000000000 ≤ a := by
  have key (k o : Nat) : 0x10000000000 ≤ hostKey k o := by simp only [hostKey]; omega
  revert h
  fun_cases bar0Addr <;> simp only [Option.some.injEq, reduceCtorEq, false_imp_iff] <;> rintro rfl
  case case1 => exact .inl ⟨by omega, by omega⟩
  case case3 => exact .inr (.inl ⟨by omega, by omega⟩)
  case case7 => exact .inr (.inl ⟨by omega, by omega⟩)
  all_goals exact .inr (.inr (key _ _))

/-- No register of BAR0 belongs to a node that can be off, or to the sample banks. -/
theorem bar0Addr_alwaysOn {fn off a : Nat} (hfn : fn < 2) (h : bar0Addr fn off = some a) (s : State) :
    s.offNode a = none ∧ s.bankOff a = false := by
  have range := bar0Addr_range hfn h
  have node : nodeOfAddr a = none := by
    unfold nodeOfAddr
    simp only [show ¬ (0x01100000 ≤ a ∧ a < 0x01110000) by omega, show ¬ (0x01110000 ≤ a ∧ a < 0x01120000) by omega,
      show ¬ (0x01120000 ≤ a ∧ a < 0x01130000) by omega, show ¬ (0x01130000 ≤ a ∧ a < 0x01140000) by omega,
      show ¬ (0x10000000 ≤ a ∧ a < 0x18000000) by omega, show ¬ (0x20000000 ≤ a ∧ a < 0x24000000) by omega, if_false]
  constructor
  · simp only [State.offNode, node, ite_self]
  · rw [State.bankOff, Bool.and_eq_false_imp]
    intro hb
    simp only [Bool.and_eq_true, decide_eq_true_eq] at hb
    omega

/-- A read of BAR0 is never refused because its node is off. -/
theorem check_bar0_read {fn off : Nat} (hfn : fn < 2) (s : State) : s.check fn .bar0 off false ≠ 4 := by
  unfold State.check
  cases h : s.barAddr fn .bar0 off with
  | none => dsimp only; split <;> decide
  | some a =>
    obtain ⟨on_, bank⟩ := bar0Addr_alwaysOn hfn h s
    simp only [on_, bank, Option.isSome_none, Bool.false_eq_true, or_self, if_false, false_and]
    split_ifs <;> decide

/-- A host read of BAR0 emits a completion and changes nothing else, while no fault is injected. -/
theorem readBar0_keeps {fn : Nat} (hfn : fn < 2) (off len : Nat) {s : State} (sound : s.dev.sec.injected = none) :
    (run (readBar0 fn off len) s).mem = s.mem ∧ (run (readBar0 fn off len) s).regs = s.regs := by
  simp only [readBar0, run_look', sound, reduceCtorEq, if_false]
  split
  next cause refused =>
    have four : cause ≠ 4 := fun e => by
      obtain ⟨p, -, hp⟩ := List.mem_map.mp (List.mem_of_find?_eq_some refused)
      exact check_bar0_read hfn s (hp.trans e)
    simp [four]
  · simp

/-- Settles O54: a read of BAR0 that is refused is refused for another cause than a node that is off, which alone is reported. -/
theorem hostReadsChangeNothing : Obligations.HostReadsChangeNothing := by
  intro fn off len s t _ sound h
  injection h with h
  rw [← h]
  split
  · simp
  · exact readBar0_keeps fn.isLt off len sound

/-! Posted writes of the N world (R118, R522). -/

/-- The words of the granule map, which says what of shared SRAM belongs to the S world. -/
abbrev WorldWord (a : Nat) : Prop := 0x02020020 ≤ a ∧ a < 0x02020080

/-- Everything but one byte of memory and the granule map. -/
def sparingByte (x : Nat) : Foot where
  reg a := ¬ WorldWord a
  byte a := a ≠ x

@[simp] theorem sparingByte_reg (x a : Nat) : (sparingByte x).reg a ↔ ¬ WorldWord a := Iff.rfl
@[simp] theorem sparingByte_byte (x a : Nat) : (sparingByte x).byte a ↔ a ≠ x := Iff.rfl
@[simp] theorem sparingByte_dev (x : Nat) (g : Dev → Dev) : (sparingByte x).dev g := trivial
@[simp] theorem sparingByte_out (x : Nat) : (sparingByte x).out := trivial

theorem sparingByte_tells (x : Nat) : (sparingByte x).Tells :=
  ⟨fun a told => by simp only [sparingByte_reg, Told] at *; omega, fun _ _ => trivial, trivial⟩

/-- The world of a byte of shared SRAM is that of its granule. -/
theorem addrS_shared {a : Nat} (h : isShared a = true) (s : State) : s.addrS a = s.granuleS ((a - 0x100000000) / 0x10000) := by
  simp only [isShared, Bool.and_eq_true, decide_eq_true_eq] at h
  unfold State.addrS
  simp only [show ¬ a < 0x00400000 by omega, show ¬ (0x02000000 ≤ a ∧ a < 0x03000000) by omega,
    show ¬ (0x01501000 ≤ a ∧ a < 0x01501400) by omega, show ¬ (0x01550000 ≤ a ∧ a < 0x01560000) by omega,
    show ¬ (0x01601000 ≤ a ∧ a < 0x01601400) by omega, show ¬ (0x01604000 ≤ a ∧ a < 0x01607000) by omega,
    show ¬ (0x01320000 ≤ a ∧ a < 0x01321000) by omega, h, if_false, if_true, and_self]

/-- A meaning that spares a byte of shared SRAM, and the granule map, leaves the byte and its world as they were. -/
theorem Prog.Within.sparesByte {x : Nat} {p : Prog} (h : p.Within (sparingByte x)) (shared : isShared x = true) (s : State) :
    (run p s).byte x = s.byte x ∧ (run p s).addrS x = s.addrS x := by
  refine ⟨h.byte (fun no => no rfl) s, ?_⟩
  rw [addrS_shared shared, addrS_shared shared, State.granuleS, State.granuleS, h.get _ (.inl (by simp [Wld.granuleS]))]
  simp only [isShared, Bool.and_eq_true, decide_eq_true_eq] at shared
  simp only [sparingByte_reg, Wld.granuleS]
  omega

end Sys2Proof.Machine
end


section
/-! What the write of one word can touch: never the granule map, and of shared SRAM the bytes of the word alone. -/

namespace Sys2Proof.Machine
open Reg

theorem within_setEnabled {F : Foot} {bs : List (Option Byte)} {a : Nat} (h : ∀ i < bs.length, F.byte (a + i)) : (setEnabled a bs).Within F := by
  induction bs generalizing a with
  | nil => exact trivial
  | cons b bs ih =>
    have rest : (setEnabled (a + 1) bs).Within F := ih fun i hi => by
      rw [Nat.add_assoc, Nat.add_comm 1]
      exact h (i + 1) (by simpa using hi)
    cases b with
    | none => exact rest
    | some b => exact ⟨h 0 (by simp), rest⟩

theorem within_setBytes_at {F : Foot} {bs : List Byte} {a : Nat} (h : ∀ i < bs.length, F.byte (a + i)) : (setBytes a bs).Within F := by
  induction bs generalizing a with
  | nil => exact trivial
  | cons b bs ih =>
    exact ⟨h 0 (by simp), ih fun i hi => by
      rw [Nat.add_assoc, Nat.add_comm 1]
      exact h (i + 1) (by simpa using hi)⟩

section
variable {x : Nat}

/-- A packet of any quad is sent without touching the granule map. -/
theorem pumpFrom_sparingByte (q n : Nat) : (pumpFrom q n).Within (sparingByte x) := by
  induction n with
  | zero => trivial
  | succ n ih =>
    intro s
    refine within_ite.mpr ⟨fun _ => trivial, fun _ => ?_⟩
    split
    · trivial
    · have apart : ¬ WorldWord (Quad.txPackets q).addr := by simp only [WorldWord, Quad.txPackets]; omega
      simp [setQuad, apart, show (Quad.txPackets q).width = 32 from rfl, ih]

theorem sendCtrl_sparingByte (d : Nat) (auth : Bool) (use : CtlFor) (bs : List Byte) : (sendCtrl d auth use bs).Within (sparingByte x) := by
  intro s
  dsimp only
  split
  · simp [sendPacket, pump, setQuad, pumpFrom_sparingByte]
  · trivial

theorem outWrite_sparingByte (a : Nat) (bs : List (Option Byte)) : (outWrite a bs).Within (sparingByte x) := by
  intro s
  have fn : boolNat (s.addrS a) < 2 := by cases s.addrS a <;> decide
  refine within_ite.mpr ⟨fun _ => (sparingByte_tells x).hostWrite _ fn, fun _ => within_forEach.mpr fun i _ => ?_⟩
  split
  · exact (sparingByte_tells x).hostWrite _ fn
  · trivial

theorem w1c_sparingByte {a : Nat} (apart : ¬ WorldWord a) (v : Nat) : (w1c a v).Within (sparingByte x) := by
  intro s
  dsimp only
  split
  · exact ⟨apart, trivial⟩
  · trivial

theorem plainReg_sparingByte {a : Nat} (apart : ¬ WorldWord a) (v mask : Nat) : (plainReg a v mask).Within (sparingByte x) := by
  intro s
  dsimp only
  split
  · exact within_cons.mpr ⟨within_when.mpr fun _ => w1c_sparingByte apart _,
      within_cons.mpr ⟨within_when.mpr fun _ => within_look.mpr fun _ => ⟨apart, trivial⟩, within_nil⟩⟩
  · trivial

/-- Registers above the shared SRAM are apart from the granule map. -/
theorem sparingByte_above {a : Nat} (h : 0x10000000000 ≤ a) : (sparingByte x).reg a := by simp only [sparingByte_reg, WorldWord]; omega

theorem sparingByte_port (fn n : Nat) {d : Nat} : (sparingByte x).reg (dportBase fn n + d) :=
  sparingByte_above (by simp only [dportBase, hostKey]; omega)

theorem refill_sparingByte (fn n : Nat) : (refill fn n).Within (sparingByte x) := by
  intro s
  simp [DPort.pfValid, DPort.pfFilling, DPort.onDemand, sparingByte_port, -sparingByte_reg]

theorem portCtrl_sparingByte (fn n v mask : Nat) : (portCtrl fn n v mask).Within (sparingByte x) := by
  have addr : (sparingByte x).reg (dportBase fn n) := sparingByte_port fn n (d := 0)
  have next : (portNext fn n).Within (sparingByte x) := by
    intro s
    simp [DPort.addrLo, DPort.addrHi, addr, sparingByte_port, -sparingByte_reg]
  simp [portCtrl, DPort.inc, DPort.prefetch, next, refill_sparingByte, sparingByte_port, -sparingByte_reg]

theorem bootGo_sparingByte : bootGo.Within (sparingByte x) := by
  refine within_look.mpr fun s => within_ite.mpr ⟨fun _ => ?_, fun _ => ?_⟩
  · simp [BootReg.waiting, BootReg.code, BootReg.failDetail, BootReg.attempt, sparingByte_above, -sparingByte_reg]
  · simp [BootReg.goIgnored, sparingByte_above, -sparingByte_reg]

theorem rateCap_sparingByte (v : Nat) : (rateCap v).Within (sparingByte x) := by
  simp [rateCap, Bridge.rateCap]

theorem hostIndex_sparingByte {i : Nat} (hi : i < 64) (v : Nat) : (hostIndex i v).Within (sparingByte x) := by
  have tells := sparingByte_tells x
  have word {d : Nat} (hd : d < 0x40) : (sparingByte x).reg (0x01320000 + 0x40 * i + d) := by simp only [sparingByte_reg, WorldWord]; omega
  intro s
  refine within_ite.mpr ⟨fun _ => ?_, fun _ => ?_⟩
  · simp [ringBad, countCorrected, Ring.badIndex, word, tells.counter, tells.raiseLimitedIn, -sparingByte_reg, -within_bump]
  · simp [Ring.hostIndex, word, tells.drainEvents, -sparingByte_reg]

section Mailbox
variable {m : MbId} (h : m.hosted = true)
include h

theorem sparingByte_mailbox {d : Nat} : (sparingByte x).reg (m.base + d) := by
  obtain ⟨fn, k, -, -, e⟩ := base_hosted h
  exact sparingByte_above (by omega)

theorem setMbState_sparingByte (v : Nat) : (setMbState m v).Within (sparingByte x) := by
  simp [setMbState_hosted h, Mbx.state, sparingByte_mailbox h, -sparingByte_reg]

theorem hwBusy_sparingByte (low : x < 0x10000000000) : (hwBusy m).Within (sparingByte x) := by
  obtain ⟨fn, k, hfn, hk, base⟩ := base_hosted h
  have buffer (d : Nat) : (sparingByte x).byte (m.base + d) := by simp only [sparingByte_byte]; omega
  have message : (sendMsix m.fn (1 + (m.base / 0x1000) % 0x10 - 4)).Within (sparingByte x) := (sparingByte_tells x).sendMsix (fn_lt m) (by omega)
  have clear : (clearMem (m.base + 0x400) 0x400).Within (sparingByte x) := by
    refine within_look.mpr fun s => within_forEach.mpr fun a ha => ⟨?_, trivial⟩
    obtain ⟨c, hc, rfl⟩ := List.mem_map.mp ha
    have := (List.mem_filter.mp hc).2
    simp only [Bool.and_eq_true, decide_eq_true_eq] at this
    simp only [allows_setByte, sparingByte_byte]
    omega
  have put (bs : List Byte) : (setBytes (m.base + 0x400) bs).Within (sparingByte x) :=
    within_setBytes_at fun i _ => by rw [Nat.add_assoc]; exact buffer _
  intro s
  simp [dropBell, respond, putResponse_hosted h, clear, put, message, setMbState_sparingByte h, Mbx.lastStatus, Mbx.respReady, sparingByte_mailbox h, -sparingByte_reg]

theorem ring_sparingByte (low : x < 0x10000000000) : (ring m).Within (sparingByte x) := by
  have tells := sparingByte_tells x
  have lost : (setFlag (Mbx.dbLost m.base)).Within (sparingByte x) := by
    simp [Mbx.dbLost, sparingByte_mailbox h, -sparingByte_reg]
  have lose : (loseDoorbell m).Within (sparingByte x) := by
    intro s
    obtain ⟨k, rfl⟩ | ⟨k, rfl⟩ := hosted_cases h <;>
      simp [countDropped, tells.counter, tells.raiseIn, lost, -within_bump, -within_setFlag]
  intro s
  simp [lose, setMbState_sparingByte h, hwBusy_sparingByte h low]

theorem consume_sparingByte : (consume m).Within (sparingByte x) := by
  intro s
  refine within_ite.mpr ⟨fun _ => ?_, fun _ => trivial⟩
  cases m <;> simp [setMbState_sparingByte h, Mbx.respReady, sparingByte_mailbox h, -sparingByte_reg]

end Mailbox

theorem mailboxAt_hosted (a : Nat) : (mailboxAt a).hosted = true := by
  unfold mailboxAt; split_ifs <;> rfl

/-- The write of a word touches, of shared SRAM, the bytes of the word. -/
theorem wordWrite_sparingByte {a : Nat} {bs : List (Option Byte)} (low : x < 0x10000000000) (apart : ¬ WorldWord a)
    (free : ∀ i < bs.length, a + i ≠ x) : (wordWrite 0 a bs).Within (sparingByte x) := by
  have box := mailboxAt_hosted a
  have plain := fun v m => plainReg_sparingByte (x := x) apart v m
  have lanes : (setEnabled a bs).Within (sparingByte x) := within_setEnabled free
  refine within_look.mpr fun s => within_ite.mpr ⟨fun _ => sendCtrl_sparingByte _ _ _ _, fun _ => within_ite.mpr ⟨fun _ => outWrite_sparingByte _ _, fun _ =>
    within_ite.mpr ⟨fun _ => ?mailbox, fun _ => within_ite.mpr ⟨fun _ => lanes, fun _ => within_ite.mpr ⟨fun _ => within_when.mpr fun _ =>
    bootGo_sparingByte, fun _ => within_ite.mpr ⟨fun _ => within_when.mpr fun _ => rateCap_sparingByte _, fun _ =>
    within_ite.mpr ⟨fun _ => ?port, fun _ => within_ite.mpr ⟨fun ring => hostIndex_sparingByte (by omega) _, fun _ =>
    within_ite.mpr ⟨fun vector => ?message, fun _ => plain _ _⟩⟩⟩⟩⟩⟩⟩⟩⟩
  case mailbox => simp [ring_sparingByte box low, consume_sparingByte box, w1c_sparingByte apart, lanes]
  case port => simp [portCtrl_sparingByte, plain, refill_sparingByte]
  case message =>
    have vec : a % 0x10000 / 16 - 0x300 < 128 := by
      simp only [isMsix, Bool.and_eq_true, decide_eq_true_eq] at vector
      omega
    simp [plain, (sparingByte_tells x).sendMsix (fn := 0) (by decide) vec]

/-! The words of a write, one after another. -/

theorem wordsOf_shape {off : Nat} {data : List (Option Byte)} {w : Nat × List (Option Byte)} (h : w ∈ touched (wordsOf off data)) :
    w.1 % 4 = 0 ∧ w.2.length ≤ 4 := by
  obtain ⟨i, -, rfl⟩ := List.mem_map.mp (List.mem_filter.mp h).1
  exact ⟨by simp only; omega, by simp only [List.length_take]; omega⟩

/-- An aligned word of BAR0 or BAR2 reaches an aligned word. -/
theorem barAddr_aligned {s : State} {fn off a : Nat} {bar : Bar} (h : s.barAddr fn bar off = some a) (aligned : off % 4 = 0) : a % 4 = 0 := by
  cases bar with
  | bar0 =>
    simp only [State.barAddr] at h
    revert h
    fun_cases bar0Addr <;> simp only [Option.some.injEq, reduceCtorEq, false_imp_iff] <;> rintro rfl
    case case1 => omega
    case case3 => omega
    case case7 => omega
    all_goals simp only [hostKey]; omega
  | bar2 =>
    have port (n o : Nat) (ho : o % 4 = 0) : s.dpByte fn n o % 4 = 0 := by
      have inc : s.dpInc fn n % 4 = 0 := by unfold State.dpInc; split <;> rfl
      obtain ⟨k, hk⟩ : ∃ k, s.dpInc fn n = 4 * k := ⟨s.dpInc fn n / 4, by omega⟩
      have lines : o / 4 * s.dpInc fn n % 4 = 0 := by rw [hk, Nat.mul_left_comm]; omega
      simp only [State.dpByte, State.dpAddr]
      omega
    simp only [State.barAddr] at h
    revert h
    fun_cases State.bar2Addr <;> simp only [Option.some.injEq, reduceCtorEq, false_imp_iff] <;> rintro rfl
    case case1 => exact port _ _ (by omega)
    case case2 => simp only [statusPageBase]; omega
    all_goals omega

/-- A byte of shared SRAM is of its aligned word's world. -/
theorem addrS_word {s : State} {a x : Nat} (shared : isShared x = true) (aligned : a % 4 = 0) (lo : a ≤ x) (hi : x < a + 4) :
    s.addrS x = s.addrS a := by
  have word : isShared a = true := by
    simp only [isShared, Bool.and_eq_true, decide_eq_true_eq] at *; omega
  have granule : (x - 0x100000000) / 0x10000 = (a - 0x100000000) / 0x10000 := by
    simp only [isShared, Bool.and_eq_true, decide_eq_true_eq] at *; omega
  rw [addrS_shared shared, addrS_shared word, granule]

/-- A write of the N world that passes its check is not of the S world's addresses. -/
theorem addrS_of_check {s : State} {bar : Bar} {off a : Nat} (pass : s.check 0 bar off true = 0) (at_ : s.barAddr 0 bar off = some a) :
    s.addrS a = false := by
  by_contra S
  have S : s.addrS a = true := by simpa using S
  simp only [State.check, at_, S, true_and, if_true, and_self, Bool.not_true, Bool.false_eq_true, false_and, and_false, if_false] at pass
  split_ifs at pass

/-- The granule map is the S world's. -/
theorem worldWord_of_addrS {s : State} {a : Nat} (nWorld : s.addrS a = false) : ¬ WorldWord a := fun h => by
  unfold State.addrS at nWorld
  rw [if_neg (by omega), if_pos (by omega)] at nWorld
  cases nWorld

theorem postedFault_sparingByte (bar : Bar) (a : Option Nat) (off cause len : Nat) : (postedFault 0 bar a off cause len).Within (sparingByte x) := by
  have tells := sparingByte_tells x
  intro s
  simp [Bridge.faultAddrLo, Bridge.faultAddrHi, Bridge.cause, Bridge.world, Bridge.bar, Bridge.length, Bridge.postedFault, countDropped,
    tells.counter, tells.raiseIn, tells.sendMsix, -within_bump]

theorem noteParity_sparingByte (path cluster cls : Nat) : (noteParity path cluster cls 1).Within (sparingByte x) := by
  have tells := sparingByte_tells x
  have counted : (countClass cls 1).Within (sparingByte x) := by
    unfold countClass
    split_ifs <;> simp [countCorrected, countMarked, countDropped, countContained, tells.counter, -within_bump]
  simp [noteParity, counted, Flt.parity, Flt.parityCount, tells.raiseLimited]

theorem bufferWrite_sparingByte (low : x < 0x10000000000) (fn : Nat) (bar : Bar) (off : Nat) (bs : List (Option Byte)) :
    (bufferWrite fn bar off bs).Within (sparingByte x) := by
  cases bar with
  | bar0 => trivial
  | bar2 =>
    intro s
    refine within_ite.mpr ⟨fun _ => within_setEnabled fun i _ => ?_, fun _ => trivial⟩
    simp only [sparingByte_byte, prefetchBase]
    omega

/-- Carrying out the words of a write of the N world leaves each byte of shared SRAM that is of the S world, and its world. -/
theorem carry_sparesS (shared : isShared x = true) (bar : Bar) (len : Nat) (ws : List (Nat × List (Option Byte)))
    (shape : ∀ w ∈ ws, w.1 % 4 = 0 ∧ w.2.length ≤ 4) (failed : Bool) (s : State) (S : s.addrS x = true) :
    (run (carry 0 bar len failed ws) s).byte x = s.byte x := by
  have low : x < 0x10000000000 := by simp only [isShared, Bool.and_eq_true, decide_eq_true_eq] at shared; omega
  induction ws generalizing failed s with
  | nil => rfl
  | cons w ws ih =>
    obtain ⟨o, bs⟩ := w
    obtain ⟨aligned, lanes⟩ := shape _ (List.mem_cons_self ..)
    have rest (p q : Prog) (hp : p.Within (sparingByte x)) (hq : q.Within (sparingByte x)) (failed : Bool) :
        (run (block [p, q, carry 0 bar len failed ws]) s).byte x = s.byte x := by
      obtain ⟨byte, world⟩ := (show (block [p, q]).Within (sparingByte x) by simp [hp, hq]).sparesByte shared s
      simp only [run_block_cons, run_block_nil] at byte world ⊢
      rw [ih (fun w hw => shape w (List.mem_cons_of_mem _ hw)) failed _ (world.trans S), byte]
    simp only [carry, run_look]
    split
    next pass =>
      split
      next a at_ =>
        have nWorld := addrS_of_check pass at_
        have free (i : Nat) (hi : i < bs.length) : a + i ≠ x := fun e => by
          have l : bs.length ≤ 4 := lanes
          have same := addrS_word (s := s) shared (barAddr_aligned at_ aligned) (by omega : a ≤ x) (by omega)
          rw [S, nWorld] at same
          cases same
        split
        · exact rest _ _ (noteParity_sparingByte ..) (within_when.mpr fun _ => postedFault_sparingByte _ _ _ _ _) true
        · exact rest _ _ (wordWrite_sparingByte low (worldWord_of_addrS nWorld) free) (bufferWrite_sparingByte low _ _ _ _) failed
      · exact ih (fun w hw => shape w (List.mem_cons_of_mem _ hw)) failed s S
    · refine rest _ _ (within_when.mpr fun _ => postedFault_sparingByte _ _ _ _ _) (within_when.mpr fun _ => ?_) true
      split
      · split
        · exact (sparingByte_tells x).raise _ _ _ _
        · trivial
      · trivial

theorem postWrite_sparesS (shared : isShared x = true) (bar : Bar) (off : Nat) (data : List (Option Byte)) {s : State} (S : s.addrS x = true) :
    (run (postWrite 0 bar off data) s).byte x = s.byte x := by
  have mend : (mendWritten 0 bar off data).Within (sparingByte x) := by
    intro s
    dsimp only
    split
    · simp [eccMend, setEcc]
    · trivial
  rw [postWrite, run_block_cons, run_block_cons, run_block_nil, mend.byte (fun no => no rfl)]
  exact carry_sparesS shared bar _ _ (fun w hw => wordsOf_shape hw) false s S

end

/-- Settles O55: each word that passes the check lies in a granule of the N world, and no word changes the granule map. -/
theorem nWorldWritesStayOut : Obligations.NWorldWritesStayOut := by
  intro bar off data s t h x shared S
  injection h with h
  rw [← h]
  exact postWrite_sparesS shared bar off data S

end Sys2Proof.Machine
end


section
/-! Host registers: a write of one word through BAR0 that passes its checks (R135, R136, R157 to R159, R591). -/

namespace Sys2Proof.Machine
open Reg

/-! The word reaches its register. -/

/-- A register of the hosts' own page of BAR0, which its function may write. -/
structure HostWord (fn off : Nat) : Prop where
  page : bar0Addr fn off = some (hostKey fn off)
  far : off < 0x10000
  aligned : off % 4 = 0
  notBuffer : off < 0x4000 ∧ off ≠ 0x1010 ∨ 0x8000 ≤ off ∨ 0x800 ≤ off % 0x1000
  takes : ((Reg.info (hostKey fn off)).any fun i => i.w1c ≠ 0 || i.wr ≠ 0) = true

/-- Model keys above the map belong to no node and to no world. -/
theorem above_neutral {a : Nat} (h : 0x10000000000 ≤ a) (s : State) : nodeOfAddr a = none ∧ s.addrS a = false
    ∧ isRemote a = false ∧ isOutWindow a = false ∧ isMemory a = false ∧ isService a = false := by
  have node : nodeOfAddr a = none := by
    unfold nodeOfAddr
    simp only [show ¬ (0x01100000 ≤ a ∧ a < 0x01110000) by omega, show ¬ (0x01110000 ≤ a ∧ a < 0x01120000) by omega,
      show ¬ (0x01120000 ≤ a ∧ a < 0x01130000) by omega, show ¬ (0x01130000 ≤ a ∧ a < 0x01140000) by omega,
      show ¬ (0x10000000 ≤ a ∧ a < 0x18000000) by omega, show ¬ (0x20000000 ≤ a ∧ a < 0x24000000) by omega, if_false]
  refine ⟨node, ?_, ?_⟩
  · unfold State.addrS
    simp only [node, show ¬ a < 0x00400000 by omega, show ¬ (0x02000000 ≤ a ∧ a < 0x03000000) by omega,
      show ¬ (0x01501000 ≤ a ∧ a < 0x01501400) by omega, show ¬ (0x01550000 ≤ a ∧ a < 0x01560000) by omega,
      show ¬ (0x01601000 ≤ a ∧ a < 0x01601400) by omega, show ¬ (0x01604000 ≤ a ∧ a < 0x01607000) by omega,
      show ¬ (0x01320000 ≤ a ∧ a < 0x01321000) by omega, show ¬ (0x100000000 ≤ a ∧ a < 0x103000000) by omega,
      show ¬ (0x4000000000 ≤ a ∧ a < 0x8000000000) by omega, if_false]
  · simp only [isRemote, isOutWindow, isMemory, isService, ← Bool.not_eq_true, Bool.or_eq_true, Bool.and_eq_true, decide_eq_true_eq]
    omega

section
variable {fn off : Nat} (hfn : fn < 2) (h : HostWord fn off)
include hfn h

theorem HostWord.writable (s : State) : s.writable (hostKey fn off) = true := by
  obtain ⟨-, far, aligned, buffer, takes⟩ := h
  have word : hostKey fn off / 4 * 4 = hostKey fn off := by simp only [hostKey]; omega
  have range : 0x10000000000 ≤ hostKey fn off ∧ hostKey fn off < 0x10000020000 ∧ hostKey fn off % 0x10000 = off
      ∧ hostKey fn off % 0x1000 = off % 0x1000 ∧ hostKey fn off ≠ 0x10000001010 := by simp only [hostKey]; omega
  unfold State.writable
  simp only [word]
  generalize hostKey fn off = a at *
  obtain ⟨-, -, -, -, memory, service⟩ := above_neutral range.1 s
  simp only [memory, service, show ¬ (0x10000004000 ≤ a ∧ a < 0x10000020000 ∧ 0x4000 ≤ a % 0x10000 ∧ a % 0x10000 < 0x8000 ∧ a % 0x1000 < 0x800) by omega,
    show ¬ 0x10001000000 ≤ a by omega, range.2.2.2.2, show a ≠ 0x01300008 by omega, show ¬ (0x02400000 ≤ a ∧ a < 0x02C00000) by omega,
    show ¬ (a = 0x01600004 ∨ a = 0x01800100) by omega, show ¬ (0x4000000000 ≤ a ∧ a < 0x10000000000) by omega, and_false, or_self,
    Bool.false_eq_true, if_false]
  cases info : Reg.info a with
  | none => rw [info] at takes; cases takes
  | some i => rw [info] at takes; simpa using takes

/-- A function writes its host registers outside Boot. -/
theorem HostWord.check {s : State} (up : s.mode ≠ mBoot) : s.check fn .bar0 off true = 0 := by
  obtain ⟨node, bank⟩ := bar0Addr_alwaysOn hfn h.page s
  have may := h.writable hfn s
  have range : 0x10000000000 ≤ hostKey fn off := by simp only [hostKey]; omega
  have addr : s.barAddr fn .bar0 off = some (hostKey fn off) := h.page
  obtain ⟨-, world, -⟩ := above_neutral range s
  simp only [State.check, up, false_and, if_false, addr, world, may, node, bank]
  generalize hostKey fn off = a at *
  simp only [show ¬ a < 0x01321000 by omega, show ¬ a < 0x10000000000 by omega, and_false, false_and, reduceCtorEq, Bool.false_eq_true, Bool.not_true,
    Option.isSome_none, or_self, if_false]

/-- Lanes of one word that a function writes to a host register reach it. -/
theorem HostWord.run_carry {s : State} (up : s.mode ≠ mBoot) (sound : s.dev.sec.injected = none) (len : Nat)
    (bs : List (Option Byte)) : run (carry fn .bar0 len false [(off, bs)]) s = run (wordWrite fn (hostKey fn off) bs) s := by
  have addr : s.barAddr fn .bar0 off = some (hostKey fn off) := h.page
  simp [carry, h.check hfn up, addr, parityHit_of_none sound, bufferWrite]

theorem HostWord.run_regWrite (f : Fin 2) (e : f.val = fn) {s : State} (up : s.mode ≠ mBoot)
    (sound : s.dev.sec.injected = none) (v : Nat) :
    run (regWrite f off v) s = run (wordWrite fn (hostKey fn off) ((leBytes 4 v).map some)) s := by
  rw [regWrite, e]
  exact run_postWrite_bar0_word h.aligned (by simp) (h.check hfn up) h.page sound

end

/-! Doorbells and responses of host mailboxes. -/

theorem regWrite_lanes {v : Nat} (h : v < 2 ^ 32) : laneVal ((leBytes 4 v).map some) = v ∧ laneMask ((leBytes 4 v).map some) = 0xFFFFFFFF := by
  constructor
  · rw [laneVal_map_some, leVal_leBytes]
    exact Nat.mod_eq_of_lt h
  · simp [laneMask_map_some]

section
variable {a : Nat} (box : isMailbox a = true)
include box

theorem mailbox_above : 0x10000000000 ≤ a := by
  simp only [isMailbox, Bool.or_eq_true, Bool.and_eq_true, decide_eq_true_eq] at box
  omega

theorem run_wordWrite_doorbell (fn : Nat) (at_ : a % 0x1000 = 0x800) (s : State) :
    run (wordWrite fn a ((leBytes 4 1).map some)) s = run (ring (mailboxAt a)) s := by
  obtain ⟨val, mask⟩ := regWrite_lanes (v := 1) (by decide)
  obtain ⟨-, -, remote, window, -⟩ := above_neutral (mailbox_above box) s
  rw [wordWrite, run_look']
  simp only [val, mask, remote, window, box, at_, Bool.false_eq_true, if_false, if_true]
  rfl

theorem run_wordWrite_consume (fn : Nat) (at_ : a % 0x1000 = 0x804) (s : State) :
    run (wordWrite fn a ((leBytes 4 0x100).map some)) s = run (w1c a 0) (run (consume (mailboxAt a)) s) := by
  obtain ⟨val, mask⟩ := regWrite_lanes (v := 0x100) (by decide)
  have flag : Nat.land (Nat.land 0x100 0xFFFFFFFF) 0x200 = 0 := by decide
  obtain ⟨-, -, remote, window, -⟩ := above_neutral (mailbox_above box) s
  rw [wordWrite, run_look']
  simp only [val, mask, remote, window, box, at_, flag, Bool.false_eq_true, if_false, if_true]
  simp [bit]

end

/-- Clearing no flag leaves every field as it was. -/
theorem w1c_nothing (a : Nat) {f : Fld} (whole : f.Whole) : Keeps (fun s => s.get f) (w1c a 0) := by
  intro s
  have narrow : f.width ≤ 32 := by have := whole.1; omega
  dsimp only
  rw [w1c, run_look]
  split
  next i _ =>
    have same : s.reg a &&& ~~~ BitVec.ofNat 32 (0 &&& i.w1c) = s.reg a := by
      rw [Nat.zero_and]; exact BitVec.and_allOnes
    rw [same, run_setReg]
    by_cases e : f.addr = a
    · rw [← e, get_setReg_same whole, get_narrow _ f narrow]
    · rw [get_narrow _ f narrow, get_narrow _ f narrow, reg_setReg_other s _ e]
  · rfl

theorem whole_respReady {m : MbId} (h : m.hosted = true) : (Mbx.respReady m.base).Whole := by
  obtain ⟨k, rfl⟩ | ⟨k, rfl⟩ := hosted_cases h
  · clear h; revert k; decide
  · clear h; revert k; decide

section
variable {m : MbId} (h : m.hosted = true) {s : State}
include h

/-- A doorbell of an Idle mailbox queues it (R136). -/
theorem ring_queues (idle : s.mbState m = 0) (ready : s.fwReady = true) :
    (run (ring m) s).mbState m = 1 ∧ (run (ring m) s).dev.doorbells = s.dev.doorbells ++ [m] := by
  have state := mbState_setMbState (m := m) (.inl h) (v := 1) (by decide) s
  have bells : (run (setMbState m 1) s).dev.doorbells = s.dev.doorbells := by rw [setMbState_hosted h, set_dev]
  rw [run_ring_idle idle ready, run_block_cons, run_block_cons, run_block_nil, run_dev]
  exact ⟨by rw [mbState_hosted h] at *; exact state, congrArg (· ++ [m]) bells⟩

/-- A response that is consumed returns its mailbox to Idle (R136). -/
theorem consume_frees (answered : s.mbState m = 3) :
    (run (consume m) s).get (Mbx.state m.base) = 0 ∧ (run (consume m) s).get (Mbx.respReady m.base) = 0 := by
  have flag := whole_respReady h
  have shape : run (consume m) s = run (set (Mbx.state m.base) 0) (run (set (Mbx.respReady m.base) 0) s) := by
    rw [← setMbState_hosted h]
    obtain ⟨k, rfl⟩ | ⟨k, rfl⟩ := hosted_cases h <;> simp only [consume, run_look', answered, if_true, run_block_cons, run_block_nil]
  rw [shape]
  refine ⟨get_set_same _ _ _ (whole_mbx h).1, ?_⟩
  rw [get_set_apart (by simp [Mbx.state]) flag (.inr (.inr (by simp [Mbx.state, Mbx.respReady]))), get_set_same _ _ _ flag]
  rfl

end

/-- The doorbell and the status register of each host mailbox are words that its function writes. -/
theorem hostWord_mailbox : (∀ k : Fin 4, HostWord 0 (0x4800 + 0x1000 * k.val) ∧ HostWord 0 (0x4804 + 0x1000 * k.val))
    ∧ ∀ k : Fin 2, HostWord 1 (0x4800 + 0x1000 * k.val) ∧ HostWord 1 (0x4804 + 0x1000 * k.val) := by
  have each {fn off : Nat} (h : bar0Addr fn off = some (hostKey fn off) ∧ off < 0x10000 ∧ off % 4 = 0 ∧ (off < 0x4000 ∧ off ≠ 0x1010 ∨ 0x8000 ≤ off ∨ 0x800 ≤ off % 0x1000)
      ∧ ((Reg.info (hostKey fn off)).any fun i => i.w1c ≠ 0 || i.wr ≠ 0) = true) : HostWord fn off :=
    let ⟨page, far, aligned, buffer, takes⟩ := h; ⟨page, far, aligned, buffer, takes⟩
  exact ⟨fun k => ⟨each (by revert k; decide), each (by revert k; decide)⟩, fun k => ⟨each (by revert k; decide), each (by revert k; decide)⟩⟩

/-- The page of a host mailbox is that mailbox's. -/
theorem mailboxAt_base {m : MbId} (h : m.hosted = true) {d : Nat} (hd : d < 0x1000) : isMailbox (m.base + d) = true ∧ mailboxAt (m.base + d) = m := by
  obtain ⟨k, rfl⟩ | ⟨k, rfl⟩ := hosted_cases h
  · have base : (MbId.pf0 k).base = 0x10000004000 + 0x1000 * k.val := by simp only [MbId.base, hostKey]; omega
    rw [base]
    constructor
    · simp only [isMailbox, Bool.or_eq_true, Bool.and_eq_true, decide_eq_true_eq]; omega
    · unfold mailboxAt
      rw [if_neg (by omega)]
      split_ifs <;> exact congrArg MbId.pf0 (Fin.ext (by omega))
  · have base : (MbId.pf1 k).base = 0x10000014000 + 0x1000 * k.val := by simp only [MbId.base, hostKey]; omega
    rw [base]
    constructor
    · simp only [isMailbox, Bool.or_eq_true, Bool.and_eq_true, decide_eq_true_eq]; omega
    · unfold mailboxAt
      rw [if_pos (by omega)]
      split_ifs <;> exact congrArg MbId.pf1 (Fin.ext (by omega))

section
variable {f : Fin 2} {m : MbId} (h : m.hosted = true) {k : Nat} (base : m.base = hostKey f.val (0x4000 + 0x1000 * k)) {s : State}
  (up : s.mode ≠ mBoot) (sound : s.dev.sec.injected = none)
include h base up sound

/-- A host's doorbell write rings its mailbox. -/
theorem run_doorbell (word : HostWord f.val (0x4800 + 0x1000 * k)) : run (regWrite f (0x4800 + 0x1000 * k) 1) s = run (ring m) s := by
  have key : hostKey f.val (0x4800 + 0x1000 * k) = m.base + 0x800 := by rw [base]; simp only [hostKey]; omega
  obtain ⟨box, named⟩ := mailboxAt_base h (d := 0x800) (by omega)
  rw [word.run_regWrite f.isLt f rfl up sound, key, run_wordWrite_doorbell box _ (by rw [base]; simp only [hostKey]; omega), named]

/-- A host's write of one to RESP_READY consumes its mailbox's response. -/
theorem consumed_response (word : HostWord f.val (0x4804 + 0x1000 * k)) (answered : s.mbState m = 3) :
    let t := run (regWrite f (0x4804 + 0x1000 * k) 0x100) s
    t.mbState m = 0 ∧ t.on (Mbx.respReady m.base) = false := by
  have key : hostKey f.val (0x4804 + 0x1000 * k) = m.base + 0x804 := by rw [base]; simp only [hostKey]; omega
  obtain ⟨box, named⟩ := mailboxAt_base h (d := 0x804) (by omega)
  obtain ⟨state, ready⟩ := consume_frees h answered
  have cleared {f : Fld} (whole : f.Whole) (u : State) : (run (w1c (m.base + 0x804) 0) u).get f = u.get f := w1c_nothing _ whole u
  dsimp only
  rw [word.run_regWrite f.isLt f rfl up sound, key, run_wordWrite_consume box _ (by rw [base]; simp only [hostKey]; omega), named,
    mbState_hosted h, cleared (whole_mbx h).1, State.on, cleared (whole_respReady h), state, ready]
  exact ⟨rfl, rfl⟩

end

theorem doorbellRing_queues {m : MbId} (h : m.hosted = true) {s : State} (up : s.mode ≠ mBoot) (ready : s.fwReady = true) (idle : s.mbState m = 0)
    (sound : s.dev.sec.injected = none) :
    Answers (.doorbellRing m) s fun t => t.mbState m = 1 ∧ t.dev.doorbells = s.dev.doorbells ++ [m] := by
  obtain ⟨k, rfl⟩ | ⟨k, rfl⟩ := hosted_cases h
  · refine answers_next rfl ?_
    rw [run_doorbell (f := 0) h rfl up sound (hostWord_mailbox.1 k).1]
    exact ring_queues h idle ready
  · refine answers_next rfl ?_
    rw [run_doorbell (f := 1) h rfl up sound (hostWord_mailbox.2 k).1]
    exact ring_queues h idle ready

theorem responseConsume_frees {m : MbId} (h : m.hosted = true) {s : State} (up : s.mode ≠ mBoot) (answered : s.mbState m = 3)
    (sound : s.dev.sec.injected = none) :
    Answers (.responseConsume m) s fun t => t.mbState m = 0 ∧ t.on (Mbx.respReady m.base) = false := by
  obtain ⟨k, rfl⟩ | ⟨k, rfl⟩ := hosted_cases h
  · exact answers_next rfl (consumed_response (f := 0) h rfl up sound (hostWord_mailbox.1 k).2 answered)
  · exact answers_next rfl (consumed_response (f := 1) h rfl up sound (hostWord_mailbox.2 k).2 answered)

end Sys2Proof.Machine
end


section
/-! Data ports (R157 to R159). -/

namespace Sys2Proof.Machine
open Reg

/-! A word merged into a register. -/

/-- Where a mask admits every bit of a field, the field takes what is written. -/
theorem bits_merge {old v mask lo w : Nat} (open_ : ∀ i < w, mask.testBit (lo + i) = true) : bits (merge old v mask) lo w = bits v lo w := by
  apply Nat.eq_of_testBit_eq
  intro i
  rw [testBit_bits, testBit_bits]
  by_cases hi : i < w
  · have m := open_ i hi
    have put : (merge old v mask).testBit (lo + i) = v.testBit (lo + i) := by
      change (old ^^^ ((old ^^^ v) &&& mask)).testBit (lo + i) = _
      rw [Nat.testBit_xor, Nat.testBit_and, Nat.testBit_xor, m]
      cases old.testBit (lo + i) <;> cases v.testBit (lo + i) <;> rfl
    rw [put]
  · simp [hi]

/-- A byte of a run of bytes is read back. -/
theorem byte_setBytes_inside (bs : List Byte) (a : Nat) (s : State) {i : Nat} (h : i < bs.length) :
    (run (setBytes a bs) s).byte (a + i) = bs[i] := by
  induction bs generalizing a s i with
  | nil => cases h
  | cons b bs ih =>
    rw [run_setBytes_cons]
    cases i with
    | zero => rw [byte_setBytes_outside _ _ _ _ (.inl (by omega)), Nat.add_zero, byte_setByte_same]; rfl
    | succ i =>
      rw [show a + (i + 1) = a + 1 + i by omega]
      exact ih (a + 1) _ (by simpa using h)

section
variable (fn n : Fin 2)

theorem port_wholes : (DPort.addrLo (dportBase fn n)).Whole ∧ (DPort.addrHi (dportBase fn n)).Whole ∧ (DPort.inc (dportBase fn n)).Whole
    ∧ (DPort.prefetch (dportBase fn n)).Whole ∧ (DPort.pfValid (dportBase fn n)).Whole ∧ (DPort.pfFilling (dportBase fn n)).Whole
    ∧ (DPort.onDemand (dportBase fn n)).Whole := by revert fn n; decide

theorem hostWord_port : HostWord fn (0x8000 + 0x40 * n) ∧ HostWord fn (0x8000 + 0x40 * n + 4) ∧ HostWord fn (0x8000 + 0x40 * n + 8) := by
  have each {fn off : Nat} (h : bar0Addr fn off = some (hostKey fn off) ∧ off < 0x10000 ∧ off % 4 = 0 ∧ (off < 0x4000 ∧ off ≠ 0x1010 ∨ 0x8000 ≤ off ∨ 0x800 ≤ off % 0x1000)
      ∧ ((Reg.info (hostKey fn off)).any fun i => i.w1c ≠ 0 || i.wr ≠ 0) = true) : HostWord fn off :=
    let ⟨page, far, aligned, buffer, takes⟩ := h; ⟨page, far, aligned, buffer, takes⟩
  exact ⟨each (by revert fn n; decide), each (by revert fn n; decide), each (by revert fn n; decide)⟩

/-- ADDR is written by the host, but for its two low bits. -/
theorem port_info : (Reg.info (dportBase fn n)).map (fun i => (i.w1c, i.wr)) = some (0, 0xFFFFFFFC)
    ∧ (Reg.info (dportBase fn n + 4)).map (fun i => (i.w1c, i.wr)) = some (0, 0xFF) := by revert fn n; decide

/-- A write of a data-port register goes to its port. -/
theorem run_wordWrite_port {d : Nat} (hd : d < 0x10) (bs : List (Option Byte)) (s : State) :
    run (wordWrite fn (dportBase fn n + d) bs) s = if d = 8 then run (portCtrl fn n (laneVal bs) (laneMask bs)) s
      else run (refill fn n) (run (plainReg (dportBase fn n + d) (laneVal bs) (laneMask bs)) s) := by
  have base : dportBase fn n = 0x10000008000 + 0x10000 * fn.val + 0x40 * n.val := by simp only [dportBase, hostKey]; omega
  have above : 0x10000000000 ≤ dportBase fn n + d := by omega
  obtain ⟨-, -, remote, window, memory, -⟩ := above_neutral above s
  have box : isMailbox (dportBase fn n + d) = false := by
    simp only [isMailbox, ← Bool.not_eq_true, Bool.or_eq_true, Bool.and_eq_true, decide_eq_true_eq]; omega
  have owner : (dportBase fn n + d - 0x10000000000) / 0x10000 = fn := by omega
  have port : (dportBase fn n + d) % 0x10000 / 0x40 % 2 = n := by omega
  have word : (dportBase fn n + d) % 0x40 = d := by omega
  have inPorts : 0x10000008000 ≤ dportBase fn n + d ∧ (dportBase fn n + d) % 0x10000 < 0x8080 ∧ 0x8000 ≤ (dportBase fn n + d) % 0x10000 := by omega
  have notGo : dportBase fn n + d ≠ 0x10000001014 := by omega
  have notCap : dportBase fn n + d ≠ 0x01310008 := by omega
  rw [wordWrite, run_look']
  simp only [remote, window, memory, box, owner, port, word, inPorts, notGo, notCap, Bool.false_eq_true, if_false, if_true, and_self]
  split
  · rfl
  · rw [run_block_cons, run_block_cons, run_block_nil]

end

section
variable (fn n : Fin 2)

/-- Starting over, a port's buffer is not valid, and fills where PREFETCH and the span allow; the other fields stay (R159). -/
theorem refill_port (s : State) :
    (run (refill fn n) s).get (DPort.pfValid (dportBase fn n)) = 0
    ∧ (run (refill fn n) s).get (DPort.pfFilling (dportBase fn n)) = boolNat (s.on (DPort.prefetch (dportBase fn n)) && s.spanOk fn n)
    ∧ ∀ f : Fld, f.Whole → f.addr ≠ dportBase fn n + 0xc → (run (refill fn n) s).get f = s.get f := by
  obtain ⟨-, -, -, -, valid, filling, demand⟩ := port_wholes fn n
  have bool (x : Bool) : boolNat x % 2 ^ 1 = boolNat x := by cases x <;> rfl
  simp only [refill, run_look', run_block_cons, run_block_nil]
  generalize dportBase fn n = b at *
  refine ⟨?_, ?_, fun f w apart => ?_⟩
  · simp (disch := first | assumption | (refine id ?_; dsimp only [DPort.pfValid, DPort.pfFilling, DPort.onDemand]; omega) | fail)
      only [get_set_apart, get_set_same]
    rfl
  · simp (disch := first | assumption | (refine id ?_; dsimp only [DPort.pfValid, DPort.pfFilling, DPort.onDemand]; omega) | fail)
      only [get_set_apart, get_set_same]
    exact bool _
  · simp (disch := first | assumption | (refine id ?_; dsimp only [DPort.pfValid, DPort.pfFilling, DPort.onDemand]; omega) | fail)
      only [get_set_apart]

/-- A register word that the host writes takes the value in the bits that it may write (R11). -/
theorem run_plainReg {a mask v lanes : Nat} (info : (Reg.info a).map (fun i => (i.w1c, i.wr)) = some (0, mask)) (some_ : mask ≠ 0) (s : State) :
    run (plainReg a v lanes) s = (Act.setReg a (BitVec.ofNat 32 (merge (s.reg a).toNat v (Nat.land lanes mask)))).apply s := by
  cases found : Reg.info a with
  | none => rw [found] at info; cases info
  | some i =>
    rw [found] at info
    simp only [Option.map_some, Option.some.injEq, Prod.mk.injEq] at info
    obtain ⟨w1c, wr⟩ := info
    simp only [plainReg, run_look', found, w1c, wr, some_, ne_eq, not_true_eq_false, not_false_eq_true, decide_false, decide_true,
      run_block_cons, run_block_nil, run_when_false, run_when_true, run_setReg]

/-- A word of ADDR takes what is written, but for the bits that do not exist, and the port starts over. -/
theorem addrWrite_port {f : Fld} (whole : f.Whole) {d mask : Nat} (hd : d < 8) (aligned : d % 4 = 0) (at_ : f.addr = dportBase fn n + d)
    (info : (Reg.info (dportBase fn n + d)).map (fun i => (i.w1c, i.wr)) = some (0, mask))
    (open_ : ∀ i < f.width, (Nat.land 0xFFFFFFFF mask).testBit (f.lo + i) = true) (some_ : mask ≠ 0) (v : BitVec 32) {s : State}
    (word : HostWord fn (0x8000 + 0x40 * n.val + d)) (up : s.mode ≠ mBoot) (sound : s.dev.sec.injected = none) :
    let t := run (regWrite fn (0x8000 + 0x40 * n.val + d) v.toNat) s
    t.get f = bits v.toNat f.lo f.width ∧ t.on (DPort.pfValid (dportBase fn n)) = false := by
  have key : hostKey fn (0x8000 + 0x40 * n.val + d) = dportBase fn n + d := by simp only [dportBase, hostKey]; omega
  obtain ⟨val, lanes⟩ := regWrite_lanes v.isLt
  dsimp only
  rw [word.run_regWrite fn.isLt fn rfl up sound, key, run_wordWrite_port fn n (by omega), if_neg (by omega), val, lanes,
    run_plainReg info some_]
  obtain ⟨valid, -, rest⟩ := refill_port fn n ((Act.setReg (dportBase fn n + d)
    (BitVec.ofNat 32 (merge (s.reg (dportBase fn n + d)).toNat v.toNat (Nat.land 0xFFFFFFFF mask)))).apply s)
  refine ⟨?_, by rw [State.on, valid]; rfl⟩
  rw [rest f whole (by omega), ← at_, get_setReg_same whole, BitVec.toNat_ofNat, bits_mod _ _ _ _ whole.1, bits_merge open_]

theorem dataPortAddrWrite_sets (hi : Bool) (v : BitVec 32) {s : State} (up : s.mode ≠ mBoot) (sound : s.dev.sec.injected = none) :
    Answers (.dataPortAddrWrite fn n hi v) s fun t =>
      t.get (if hi then DPort.addrHi (dportBase fn n) else DPort.addrLo (dportBase fn n)) = (if hi then v.toNat % 256 else v.toNat / 4)
        ∧ t.on (DPort.pfValid (dportBase fn n)) = false := by
  obtain ⟨lo, high, -⟩ := hostWord_port fn n
  obtain ⟨wl, wh, -⟩ := port_wholes fn n
  obtain ⟨il, ih⟩ := port_info fn n
  have low : ∀ i < 30, (Nat.land 0xFFFFFFFF 0xFFFFFFFC).testBit (2 + i) = true := by decide
  have upper : ∀ i < 8, (Nat.land 0xFFFFFFFF 0xFF).testBit (0 + i) = true := by decide
  cases hi with
  | false =>
    have set_ := addrWrite_port fn n wl (d := 0) (by decide) rfl rfl il low (by decide) v lo up sound
    refine answers_next rfl ⟨set_.1.trans ?_, set_.2⟩
    have := v.isLt
    simp only [bits, DPort.addrLo, Bool.false_eq_true, if_false]
    omega
  | true =>
    have set_ := addrWrite_port fn n wh (d := 4) (by decide) rfl rfl ih upper (by decide) v high up sound
    refine answers_next rfl ⟨set_.1.trans ?_, set_.2⟩
    simp only [bits, DPort.addrHi, if_true]
    omega

/-- NEXT moves ADDR on by 1,024 increments and leaves CTRL and the buffer (R157). -/
theorem portNext_moves (s : State) :
    (run (portNext fn n) s).dpAddr fn n = (s.dpAddr fn n + 1024 * s.dpInc fn n) % 0x10000000000
    ∧ ∀ f : Fld, f.Whole → dportBase fn n + 4 < f.addr → (run (portNext fn n) s).get f = s.get f := by
  obtain ⟨wl, wh, -⟩ := port_wholes fn n
  have inc : s.dpInc fn n % 4 = 0 := by unfold State.dpInc; split <;> rfl
  have lines : s.dpAddr fn n % 4 = 0 := by simp only [State.dpAddr]; omega
  have word : ((s.dpAddr fn n + 1024 * s.dpInc fn n) % 0x10000000000) % 4 = 0 ∧ (s.dpAddr fn n + 1024 * s.dpInc fn n) % 0x10000000000 < 0x10000000000 := by
    omega
  simp only [portNext, run_look', run_block_cons, run_block_nil]
  generalize (s.dpAddr fn n + 1024 * s.dpInc fn n) % 0x10000000000 = a at *
  refine ⟨?_, fun f w above => ?_⟩
  · simp only [State.dpAddr]
    generalize dportBase fn n = b at *
    rw [get_set_same _ _ _ wh, get_set_apart (by simp [DPort.addrHi]) wl (.inl (by simp [DPort.addrLo, DPort.addrHi])), get_set_same _ _ _ wl]
    simp only [DPort.addrLo, DPort.addrHi]
    omega
  · generalize dportBase fn n = b at *
    rw [get_set_apart (by simp [DPort.addrHi]) w (.inl (by simp only [DPort.addrHi]; omega)),
      get_set_apart (by simp [DPort.addrLo]) w (.inl (by simp only [DPort.addrLo]; omega))]

theorem dataPortCtrlWrite_sets (v : BitVec 32) {s : State} (up : s.mode ≠ mBoot) (sound : s.dev.sec.injected = none) :
    Answers (.dataPortCtrlWrite fn n v) s fun t =>
      t.get (DPort.inc (dportBase fn n)) = (if v.toNat % 4 = 3 then s.get (DPort.inc (dportBase fn n)) else v.toNat % 4)
        ∧ t.get (DPort.prefetch (dportBase fn n)) = v.toNat / 4 % 2 := by
  obtain ⟨-, -, ctrl⟩ := hostWord_port fn n
  obtain ⟨-, -, wi, wp, -⟩ := port_wholes fn n
  have key : hostKey fn (0x8000 + 0x40 * n.val + 8) = dportBase fn n + 8 := by simp only [dportBase, hostKey]; omega
  have off : 0x8008 + 0x40 * n.val = 0x8000 + 0x40 * n.val + 8 := by omega
  obtain ⟨val, lanes⟩ := regWrite_lanes v.isLt
  have kept {f : Fld} (w : f.Whole) (at_ : f.addr = dportBase fn n + 8) (c : Bool) (s : State) :
      (run (refill fn n) (run (when c (portNext fn n)) s)).get f = s.get f := by
    rw [(refill_port fn n _).2.2 f w (by omega)]
    cases c
    · rfl
    · exact (portNext_moves fn n s).2 f w (by omega)
  have written : execDataPortCtrlWrite fn n v s = .next (run (portCtrl fn n v.toNat 0xFFFFFFFF) s) := by
    rw [execDataPortCtrlWrite, off, ctrl.run_regWrite fn.isLt fn rfl up sound, key, run_wordWrite_port fn n (by omega), if_pos rfl, val, lanes]
  refine answers_next written ?_
  simp only [portCtrl, run_block_cons, run_block_nil, Nat.reduceMod, decide_true, run_when_true]
  rw [kept wi rfl, kept wp rfl, get_set_same _ _ _ wp,
    get_set_apart (by simp [DPort.prefetch]) wi (.inr (.inl (by simp [DPort.prefetch, DPort.inc])))]
  refine ⟨?_, Nat.mod_mod _ _⟩
  by_cases same : v.toNat % 4 = 3
  · simp [same]
  · simp only [same, ne_eq, not_false_eq_true, decide_true, run_when_true, if_false, get_set_same _ _ _ wi]
    simp only [DPort.inc]
    omega

/-- A byte written to NEXT and REFRESH, beside the byte of INC and PREFETCH, moves the port on where it asks for it and starts it over. -/
theorem run_portBits (v : Nat) (hv : v = 1 ∨ v = 2) {s : State} (up : s.mode ≠ mBoot) (sound : s.dev.sec.injected = none) :
    run (portBits fn n v) s = run (refill fn n) (run (when (bit v 0) (portNext fn n)) s) := by
  obtain ⟨-, -, ctrl⟩ := hostWord_port fn n
  have key : hostKey fn (0x8000 + 0x40 * n.val + 8) = dportBase fn n + 8 := by simp only [dportBase, hostKey]; omega
  have lanes : touched (wordsOf (0x8009 + 0x40 * n.val) [some (BitVec.ofNat 8 v)])
      = [(0x8000 + 0x40 * n.val + 8, [none, some (BitVec.ofNat 8 v), none, none])] := by
    have within : (0x8009 + 0x40 * n.val) % 4 = 1 := by omega
    have word : (0x8009 + 0x40 * n.val) / 4 * 4 = 0x8000 + 0x40 * n.val + 8 := by omega
    simp [touched, wordsOf, within, word]
  have val : laneVal [none, some (BitVec.ofNat 8 v), none, none] = 256 * v := by
    simp only [laneVal, BitVec.toNat_ofNat]; omega
  have mask : laneMask [none, some (BitVec.ofNat 8 v), none, none] = 0xFF00 := by simp [laneMask]
  have next : bit (Nat.land (256 * v) 0xFF00) 8 = bit v 0 := by
    obtain rfl | rfl := hv <;> rfl
  rw [portBits, postWrite, lanes, run_block_cons, run_block_cons, run_block_nil, run_mendWritten_bar0,
    ctrl.run_carry fn.isLt up sound, key, run_wordWrite_port fn n (by omega), if_pos rfl, val, mask]
  simp only [portCtrl, next, run_block_cons, run_block_nil, Nat.reduceMod, Nat.reduceEqDiff, decide_false, run_when_false]

theorem dataPortNext_moves {s : State} (up : s.mode ≠ mBoot) (sound : s.dev.sec.injected = none) :
    Answers (.dataPortNext fn n) s fun t => t.dpAddr fn.val n.val = (s.dpAddr fn.val n.val + 1024 * s.dpInc fn.val n.val) % 0x10000000000 := by
  obtain ⟨wl, wh, -⟩ := port_wholes fn n
  refine answers_next rfl ?_
  rw [run_portBits fn n 1 (by decide) up sound, State.dpAddr]
  obtain ⟨-, -, rest⟩ := refill_port fn n (run (when (bit 1 0) (portNext fn n)) s)
  rw [rest _ wl (by simp [DPort.addrLo]), rest _ wh (by simp [DPort.addrHi])]
  exact (portNext_moves fn n s).1

theorem dataPortRefresh_fills {s : State} (up : s.mode ≠ mBoot) (sound : s.dev.sec.injected = none) :
    Answers (.dataPortRefresh fn n) s fun t => t.dpAddr fn.val n.val = s.dpAddr fn.val n.val ∧ t.on (DPort.pfValid (dportBase fn.val n.val)) = false
      ∧ t.on (DPort.pfFilling (dportBase fn.val n.val)) = (s.on (DPort.prefetch (dportBase fn.val n.val)) && s.spanOk fn.val n.val) := by
  obtain ⟨wl, wh, -⟩ := port_wholes fn n
  refine answers_next rfl ?_
  obtain ⟨valid, filling, rest⟩ := refill_port fn n s
  rw [run_portBits fn n 2 (by decide) up sound, show bit 2 0 = false from rfl, run_when_false, State.dpAddr, rest _ wl (by simp [DPort.addrLo]),
    rest _ wh (by simp [DPort.addrHi]), State.on, valid, State.on, filling]
  refine ⟨rfl, rfl, ?_⟩
  cases s.on (DPort.prefetch (dportBase fn n)) && s.spanOk fn n <;> rfl

/-- A fill that ends makes the buffer valid, with the bytes of the span in it (R159). -/
theorem dataPortFillDone_fills {s : State} (filling : s.on (DPort.pfFilling (dportBase fn n)) = true) :
    Answers (.dataPortFillDone fn n) s fun t => t.on (DPort.pfValid (dportBase fn.val n.val)) = true
      ∧ t.on (DPort.pfFilling (dportBase fn.val n.val)) = false
      ∧ ∀ o < 0x1000, t.byte (prefetchBase fn.val n.val + o) = s.byte (s.dpByte fn.val n.val o) := by
  obtain ⟨-, -, -, -, wv, wf, -⟩ := port_wholes fn n
  refine answers_next rfl ?_
  simp only [fillDone, run_look', filling, if_true, run_block_cons, run_block_nil]
  refine ⟨?_, ?_, fun o ho => ?_⟩
  · rw [State.on, get_set_same _ _ _ wv]; rfl
  · rw [State.on, get_set_apart (by simp [DPort.pfValid]) wf (.inr (.inr (by simp [DPort.pfValid, DPort.pfFilling]))), get_set_same _ _ _ wf]; rfl
  · rw [State.byte, set_mem, set_mem, ← State.byte, byte_setBytes_inside _ _ _ (by simpa using ho)]
    simp

end

/-! A write through a data-port window (R158). -/

/-- One byte of a word, alone in its lane, is written to its address. -/
theorem run_setEnabled_lane (k : Nat) {m : Nat} (b : Byte) (a : Nat) (s : State) :
    run (setEnabled a (List.replicate k none ++ some b :: List.replicate m none)) s = (Act.setByte (a + k) b).apply s := by
  have none_ (m a : Nat) (s : State) : run (setEnabled a (List.replicate m none)) s = s := by
    induction m generalizing a with
    | zero => rfl
    | succ m ih => exact ih (a + 1)
  induction k generalizing a with
  | zero => exact none_ m (a + 1) _
  | succ k ih =>
    rw [show a + (k + 1) = a + 1 + k by omega]
    exact ih (a + 1)

/-- The word of one byte. -/
theorem touched_wordsOf_byte (off : Nat) (b : Byte) :
    touched (wordsOf off [some b]) = [(off / 4 * 4, List.replicate (off % 4) none ++ some b :: List.replicate (3 - off % 4) none)] := by
  obtain h | h | h | h : off % 4 = 0 ∨ off % 4 = 1 ∨ off % 4 = 2 ∨ off % 4 = 3 := by omega
  all_goals simp [touched, wordsOf, h, List.replicate]

/-- Shared SRAM is written by the function of its granule's world, outside Boot. -/
theorem check_shared {fn off a : Nat} {s : State} (window : off < 0x2000) (at_ : s.barAddr fn .bar2 off = some a) (shared : isShared a = true) :
    s.check fn .bar2 off true = if s.mode = mBoot then 3 else if fn = 0 ∧ s.addrS a = true then 2 else 0 := by
  simp only [isShared, Bool.and_eq_true, decide_eq_true_eq] at shared
  have memory : isMemory a = true ∧ isMemory (a / 4 * 4) = true := by
    simp only [isMemory, Bool.or_eq_true, Bool.and_eq_true, decide_eq_true_eq]; omega
  have mapped : s.mapped a = true := by simp [State.mapped, memory]
  have node : nodeOfAddr a = none := by
    unfold nodeOfAddr
    simp only [show ¬ a < 0x01110000 by omega, show ¬ a < 0x01120000 by omega, show ¬ a < 0x01130000 by omega,
      show ¬ a < 0x01140000 by omega, show ¬ a < 0x18000000 by omega, show ¬ a < 0x24000000 by omega, and_false, if_false]
  have off_ : s.offNode a = none := by simp only [State.offNode, node, ite_self]
  have bank : s.bankOff a = false := by simp only [State.bankOff, show ¬ a < 0x01601400 by omega, decide_false, Bool.and_false, Bool.false_and]
  have may : s.writable a = true := by
    have service : isService (a / 4 * 4) = false := by
      simp only [isService, ← Bool.not_eq_true, Bool.or_eq_true, Bool.and_eq_true, decide_eq_true_eq]; omega
    unfold State.writable
    simp only [memory, service, show ¬ 0x10000004000 ≤ a / 4 * 4 by omega, show ¬ 0x10001000000 ≤ a / 4 * 4 by omega,
      show ¬ a / 4 * 4 = 0x10000001010 by omega, show ¬ a / 4 * 4 = 0x01300008 by omega, show ¬ a / 4 * 4 < 0x02C00000 by omega,
      show ¬ a / 4 * 4 < 0x24000000 by omega, show ¬ (a / 4 * 4 = 0x01600004 ∨ a / 4 * 4 = 0x01800100) by omega,
      and_false, false_and, Bool.false_eq_true, if_false, if_true, true_or]
  unfold State.check
  simp only [at_, mapped, may, off_, bank, show ¬ 0x800000 ≤ off by omega, show ¬ 0x8000000000 ≤ a by omega, decide_false, Bool.and_false,
    Bool.false_and, Bool.not_false, Bool.not_true, Bool.false_eq_true, Option.isSome_none, reduceCtorEq, or_self, and_true, and_false,
    false_and, if_false]

/-- The bytes that a data-port window shows beside one another lie beside one another in their word. -/
theorem dpByte_lane (s : State) (fn n off : Nat) : s.dpByte fn n off = s.dpByte fn n (off / 4 * 4) + off % 4 := by
  have inc : s.dpInc fn n % 4 = 0 := by unfold State.dpInc; split <;> rfl
  obtain ⟨k, hk⟩ : ∃ k, s.dpInc fn n = 4 * k := ⟨s.dpInc fn n / 4, by omega⟩
  have line : off / 4 * 4 / 4 = off / 4 := by omega
  have step : off / 4 * (4 * k) % 4 = 0 := by rw [Nat.mul_left_comm]; omega
  simp only [State.dpByte, State.dpAddr, line, hk]
  generalize off / 4 * (4 * k) = z at *
  omega

/-- A window's own buffer, and the marks of memory errors. -/
def bufferFoot : Foot where
  reg _ := False
  byte a := 0x10000000000 ≤ a

theorem bufferWrite_within (fn : Nat) (bar : Bar) (off : Nat) (bs : List (Option Byte)) : (bufferWrite fn bar off bs).Within bufferFoot := by
  cases bar with
  | bar0 => trivial
  | bar2 =>
    refine within_look.mpr fun s => within_ite.mpr ⟨fun _ => within_setEnabled fun i _ => ?_, fun _ => trivial⟩
    simp only [bufferFoot, prefetchBase]
    omega

theorem mendWritten_within (fn : Nat) (bar : Bar) (off : Nat) (data : List (Option Byte)) : (mendWritten fn bar off data).Within bufferFoot := by
  refine within_look.mpr fun s => ?_
  split
  · exact within_when.mpr fun _ => within_dev.mpr trivial
  · trivial

/-- A word of shared SRAM takes the lanes written. -/
theorem run_wordWrite_shared {a : Nat} (shared : isShared a = true) (fn : Nat) (bs : List (Option Byte)) (s : State) :
    run (wordWrite fn a bs) s = run (setEnabled a bs) s := by
  simp only [isShared, Bool.and_eq_true, decide_eq_true_eq] at shared
  have kind : isRemote a = false ∧ isOutWindow a = false ∧ isMailbox a = false := by
    simp only [isRemote, isOutWindow, isMailbox, ← Bool.not_eq_true, Bool.or_eq_true, Bool.and_eq_true, decide_eq_true_eq]; omega
  have memory : isMemory a = true := by
    simp only [isMemory, Bool.or_eq_true, Bool.and_eq_true, decide_eq_true_eq]; omega
  obtain ⟨remote, outside, box⟩ := kind
  simp only [wordWrite, run_look', remote, outside, box, memory, Bool.false_eq_true, if_false, if_true]

/-- A byte written through a window reaches shared SRAM, and the port stays where it is (R158). -/
theorem dataPortWindowWrite_writes (fn n : Fin 2) (off : Nat) (b : Byte) {s : State} (window : off < 0x1000)
    (pass : s.check fn.val .bar2 (0x1000 * n.val + off) true = 0) (shared : isShared (s.dpByte fn.val n.val off) = true)
    (sound : s.dev.sec.injected = none) :
    Answers (.dataPortWindowWrite fn n off [some b]) s fun t =>
      t.byte (s.dpByte fn.val n.val off) = b ∧ t.dpAddr fn.val n.val = s.dpAddr fn.val n.val := by
  have lane := dpByte_lane s fn n off
  have at_ (o : Nat) (ho : o < 0x1000) : s.barAddr fn .bar2 (0x1000 * n.val + o) = some (s.dpByte fn n o) := by
    simp only [State.barAddr, State.bar2Addr, show 0x1000 * n.val + o < 0x2000 by omega, if_true,
      show (0x1000 * n.val + o) / 0x1000 = n.val by omega, show (0x1000 * n.val + o) % 0x1000 = o by omega]
  have aligned : s.dpByte fn n (off / 4 * 4) % 4 = 0 := barAddr_aligned (at_ (off / 4 * 4) (by omega)) (by omega)
  have shared4 : isShared (s.dpByte fn n (off / 4 * 4)) = true := by
    simp only [isShared, Bool.and_eq_true, decide_eq_true_eq] at *; omega
  have word : (0x1000 * n.val + off) / 4 * 4 = 0x1000 * n.val + off / 4 * 4 := by omega
  have same : s.addrS (s.dpByte fn n off) = s.addrS (s.dpByte fn n (off / 4 * 4)) := addrS_word shared aligned (by omega) (by omega)
  have pass4 : s.check fn .bar2 (0x1000 * n.val + off / 4 * 4) true = 0 := by
    rw [check_shared (by omega) (at_ _ (by omega)) shared4, ← same, ← check_shared (by omega) (at_ _ window) shared, pass]
  have written : execDataPortWindowWrite fn n off [some b] s = .next (run (mendWritten fn .bar2 (0x1000 * n.val + off) [some b])
      (run (bufferWrite fn .bar2 (0x1000 * n.val + off / 4 * 4) (List.replicate (off % 4) none ++ some b :: List.replicate (3 - off % 4) none))
        ((Act.setByte (s.dpByte fn n off) b).apply s))) := by
    have within : (0x1000 * n.val + off) % 4 = off % 4 := by omega
    rw [execDataPortWindowWrite, Nat.mod_eq_of_lt window, postWrite, touched_wordsOf_byte, word, within, run_block_cons, run_block_cons,
      run_block_nil, lane, ← run_setEnabled_lane (off % 4) (m := 3 - off % 4), ← run_wordWrite_shared shared4 fn]
    simp [carry, pass4, at_ _ (show off / 4 * 4 < 0x1000 by omega), parityHit_of_none sound]
  refine answers_next written ⟨?_, ?_⟩
  · have low : s.dpByte fn n off < 0x10000000000 := Nat.mod_lt _ (by decide)
    have outside : ¬ bufferFoot.byte (s.dpByte fn n off) := by simp only [bufferFoot]; omega
    rw [(mendWritten_within _ _ _ _).byte outside, (bufferWrite_within _ _ _ _).byte outside, byte_setByte_same]
  · have kept (f : Fld) (u : State) (p : Prog) (w : p.Within bufferFoot) : (run p u).get f = u.get f := w.get id (.inr id) u
    simp only [State.dpAddr, kept _ _ _ (mendWritten_within _ _ _ _), kept _ _ _ (bufferWrite_within _ _ _ _), get_setByte]

end Sys2Proof.Machine
end


section
/-! The status page, and a BIST that ends (R64, R155, R164). -/

namespace Sys2Proof.Machine
open Reg

/-! Status pages. -/

theorem bytes_of_byte {s t : State} {a n : Nat} (h : ∀ i < n, t.byte (a + i) = s.byte (a + i)) : t.bytes a n = s.bytes a n := by
  induction n generalizing a with
  | zero => rfl
  | succ n ih =>
    have first : t.byte a = s.byte a := h 0 (by omega)
    rw [State.bytes, State.bytes, first, ih fun i hi => by rw [Nat.add_assoc, Nat.add_comm 1]; exact h (i + 1) (by omega)]

theorem words_length (s : State) (a n : Nat) : (s.words a n).length = 4 * n := by
  simp [State.words, State.peek, slice_length]

/-- The 16 KiB of one function's status page. -/
def pageFoot (fn : Nat) : Foot where
  reg _ := False
  byte a := statusPageBase fn ≤ a ∧ a < statusPageBase fn + 0x4000
  dev _ := False
  out := False

theorem refreshPage_within (fn : Nat) : (refreshPage fn).Within (pageFoot fn) := by
  have put {o : Nat} {bs : List Byte} (fits : o + bs.length ≤ 0x4000) : (setBytes (statusPageBase fn + o) bs).Within (pageFoot fn) :=
    within_setBytes_at fun i hi => by simp only [pageFoot]; omega
  refine within_look.mpr fun s => ?_
  have head : (s.pageHead fn).length ≤ 0xF8 := by
    simp [State.pageHead, State.timeBytes, words_length]
  have streams : (allStreams.flatMap (s.pageStream fn)).length = 0x400 := by
    have entry (i : Nat) : (s.pageStream fn i).length = 64 := by
      by_cases hidden : fn = 0 ∧ (s.stream i).worldS = true <;> simp [State.pageStream, hidden]
    simp [List.length_flatMap, entry, allStreams]
  have ports : ((List.range 56).flatMap s.pagePort).length = 0x380 := by
    have entry (n : Nat) : (s.pagePort n).length = 16 := by simp [State.pagePort]
    simp [List.length_flatMap, entry]
  have gen := put (o := 0) (bs := leBytes 4 (leVal (s.bytes (statusPageBase fn) 4) + 2)) (by simp)
  exact within_cons.mpr ⟨put (by omega), within_cons.mpr ⟨put (by omega), within_cons.mpr ⟨put (by omega), within_cons.mpr ⟨gen, within_nil⟩⟩⟩⟩

/-- A refresh leaves GEN of its page two higher (R164). -/
theorem refreshPage_gen (fn : Nat) (s : State) :
    leVal ((run (refreshPage fn) s).bytes (statusPageBase fn) 4) = (leVal (s.bytes (statusPageBase fn) 4) + 2) % 0x100000000 := by
  simp only [refreshPage, run_look', run_block_cons, run_block_nil]
  have gen (v : Nat) (u : State) : (run (setBytes (statusPageBase fn) (leBytes 4 v)) u).bytes (statusPageBase fn) 4 = leBytes 4 v := by
    have := bytes_setBytes (leBytes 4 v) u (statusPageBase fn)
    rwa [leBytes_length] at this
  rw [gen, leVal_leBytes, show (256 : Nat) ^ 4 = 0x100000000 by norm_num]

theorem statusPageRefresh_counts {s : State} (ready : s.fwReady = true) :
    Answers .statusPageRefresh s fun t => ∀ fn : Fin 2,
      leVal (t.bytes (statusPageBase fn.val) 4) = (leVal (s.bytes (statusPageBase fn.val) 4) + 2) % 0x100000000 := by
  have other {fn k : Nat} (h : fn < 2) (h' : k < 2) (ne : fn ≠ k) (s : State) :
      (run (refreshPage k) s).bytes (statusPageBase fn) 4 = s.bytes (statusPageBase fn) 4 :=
    bytes_of_byte fun i hi => (refreshPage_within k).byte (by simp only [pageFoot, statusPageBase]; omega) s
  have shape : execStatusPageRefresh s = .next (run (refreshPage 1) (run (refreshPage 0) s)) := by
    simp only [execStatusPageRefresh, run_look', ready, run_when_true, run_forEach_cons, run_forEach_nil]
  refine answers_next shape fun fn => ?_
  match fn with
  | 0 => exact (congrArg leVal (other (fn := 0) (by decide) (by decide) (by decide) _)).trans (refreshPage_gen 0 s)
  | 1 =>
    have kept := other (fn := 1) (k := 0) (by decide) (by decide) (by decide) s
    have gen := refreshPage_gen 1 (run (refreshPage 0) s)
    rw [kept] at gen
    exact gen

/-! A BIST that firmware ran by itself ends. -/

theorem whole_nodeState (nid : Fin 0x140) (h : localNid nid.val = true) : (Node.state nid).Whole := by
  have node : nid.val < 2 ∨ (∃ k : Fin 8, nid.val = 0x10 + k) ∨ ∃ k : Fin 64, nid.val = 0x100 + k := by
    simp only [localNid, Bool.or_eq_true, Bool.and_eq_true, decide_eq_true_eq] at h
    obtain (h | h) | h := h
    · exact .inl h
    · exact .inr (.inl ⟨⟨nid - 0x10, by omega⟩, by simp only; omega⟩)
    · exact .inr (.inr ⟨⟨nid - 0x100, by omega⟩, by simp only; omega⟩)
  obtain h | ⟨k, e⟩ | ⟨k, e⟩ := node
  · obtain e | e : nid.val = 0 ∨ nid.val = 1 := by omega
    · rw [e]; decide
    · rw [e]; decide
  · rw [e]; clear e h; revert k; decide
  · rw [e]; clear e h; revert k; decide

/-- A node that takes another state shows it. -/
theorem setState_get {nid : Nat} (whole : (Node.state nid).Whole) {st : Nat} (small : st < 256) (s : State) :
    (run (setState nid st) s).get (Node.state nid) = st := by
  simp only [setState, run_look]
  split
  next same => exact same
  · simp only [run_block_cons, run_block_nil]
    rw [get_set_apart (by simp [Node.timeNs]) whole (.inl (by simp [Node.timeNs, Node.state])),
      get_set_apart (by simp [Node.timeSec]) whole (.inl (by simp [Node.timeSec, Node.state])), get_set_same _ _ _ whole]
    exact Nat.mod_eq_of_lt small

/-- What holds before a loop, and stays through each of its rounds, holds after it. -/
theorem forEach_induct {α : Type} {P : State → Prop} {xs : List α} {f : α → Prog} (round : ∀ x ∈ xs, ∀ s, P s → P (run (f x) s)) {s : State}
    (h : P s) : P (run (forEach xs f) s) := by
  induction xs generalizing s with
  | nil => exact h
  | cons x xs ih =>
    rw [run_forEach_cons]
    exact ih (fun y hy => round y (List.mem_cons_of_mem _ hy)) (round x (List.mem_cons_self ..) s h)

theorem node_narrow (nid a : Nat) : (sparing (Node.state nid)).reg a ↔ a ≠ 0x01100000 + 0x40 * nid + 4 := sparing_narrow (by simp [Node.state]) a

theorem setState_apart {nid k : Nat} (ne : k ≠ nid) (st : Nat) (s : State) :
    (run (setState k st) s).get (Node.state nid) = s.get (Node.state nid) := by
  have apart : (setState k st).Within (sparing (Node.state nid)) := by
    refine within_look'.mpr fun s => within_ite.mpr ⟨fun _ => trivial, fun _ => ?_⟩
    simp only [within_cons, within_nil, within_set, node_narrow]
    simp [Node.state, Node.timeSec, Node.timeNs]
    omega
  exact apart.spared s

theorem setDomain_node (nid : Nat) {d : Nat} (hd : d < 93) (on ret : Bool) (s : State) :
    (run (setDomain d on ret) s).get (Node.state nid) = s.get (Node.state nid) := by
  have apart : (setDomain d on ret).Within (sparing (Node.state nid)) := by
    refine within_look'.mpr fun s => ?_
    simp only [within_cons, within_nil, within_set, node_narrow]
    simp [Dom.domainOn, Dom.domainRet]
    omega
  exact apart.spared s

section
variable {nid : Nat} (pipe : 0x100 ≤ nid)

include pipe in
/-- Powering a pipeline leaves one that is Gated as it is. -/
theorem powerPipe_gated {q : Nat} (hq : q < 64) {s : State} (g : s.get (Node.state nid) = stGated) :
    (run (powerPipe q) s).get (Node.state nid) = stGated := by
  have cluster : (run (powerCluster (q / 8)) s).get (Node.state nid) = stGated := by
    have ne : nidCluster (q / 8) ≠ nid := by simp only [nidCluster]; omega
    rw [powerCluster, run_look]
    split
    · exact g
    · simp only [run_block_cons, run_block_nil, run_when]
      split
      · rw [setState_apart ne, setDomain_node _ (by omega), setDomain_node _ (by omega), g]
      · rw [setDomain_node _ (by omega), setDomain_node _ (by omega), g]
  rw [powerPipe, run_block_cons, run_block_cons, run_block_nil, run_look']
  split
  next off =>
    have ne : nidPipe q ≠ nid := fun e => by rw [e, cluster] at off; cases off
    rw [run_block_cons, run_block_cons, run_block_nil, setState_apart ne, setDomain_node _ (by omega), cluster]
  · exact cluster

theorem spareWord_node (nid a : Nat) (h : SpareWord a) (small : nid < 0x140) : (sparing (Node.state nid)).reg a :=
  (node_narrow nid a).mpr (by simp only [SpareWord] at h; omega)

theorem armSwap_node (small : nid < 0x140) (k i n old spare : Nat) (auto : Bool) (guard : Nat) :
    (armSwap k i n old spare auto guard).Within (sparing (Node.state nid)) := by
  have own {o : Nat} : (sparing (Node.state nid)).reg (0x20000000 + 0x100000 * spare + o) := spareWord_node _ _ (.inl (by omega)) small
  have cluster {o : Nat} : (sparing (Node.state nid)).reg (0x10000000 + 0x01000000 * k + o) := spareWord_node _ _ (.inl (by omega)) small
  have latency := within_writeLatency (F := sparing (Node.state nid)) (fun a h => spareWord_node _ a h small) spare
  have live : (sparing (Node.state nid)).reg (0x01000300 + 0x8) := (node_narrow nid _).mpr (by omega)
  refine within_look.mpr fun s => ?_
  simp [setPwr, setSwaps, latency, Col.format, Reg.Col.fill, Scr.quota, Scr.margin, Scr.cutout, Live.swapPending, Swap.swapIndexLo,
    Swap.swapIndexHi, Swap.swapFrom, Swap.swapTo, Swap.suspending, own, cluster, live, -sparing_reg]

/-- An automatic spare that takes over leaves a pipeline that is Gated so. -/
theorem autoSpare_gated (pipe : 0x100 ≤ nid) (small : nid < 0x140) {p : Nat} (hp : p < 64) {s : State} (g : s.get (Node.state nid) = stGated) :
    (run (autoSpare p) s).get (Node.state nid) = stGated := by
  have reg (a : Nat) (h : SpareWord a) : (sparing (Node.state nid)).reg a := spareWord_node _ a h small
  have words (new : Nat) (u : State) := (within_copyWords reg p new).spared u
  have bank (new : Nat) (u : State) := (within_copyBank reg (fun _ => trivial) (fun _ => trivial) p new).spared u
  have armed (k i n old spare : Nat) (auto : Bool) (guard : Nat) (u : State) := (armSwap_node small k i n old spare auto guard).spared u
  have told := untold_get (f := Node.state nid) (by simp only [Told, Node.state]; omega) (.inl (by simp [Node.state]))
  have tell (k : Nat) (bs : List Byte) (u : State) : (run (raise 0x10 3 k bs) u).get (Node.state nid) = u.get (Node.state nid) :=
    untold_raise told _ _ _ _ u
  simp only [autoSpare, run_look']
  split
  · exact g
  next i _ =>
  split
  · simp only [run_block_cons, run_block_nil, run_look', run_when]
    rw [tell, armed]
    split
    · rw [bank, words]
      exact powerPipe_gated pipe (spareOf_lt (k := p / 8) (by omega) s) g
    · rw [words]
      exact powerPipe_gated pipe (spareOf_lt (k := p / 8) (by omega) s) g
  · exact g

theorem autoSpares_gated (pipe : 0x100 ≤ nid) (small : nid < 0x140) {k : Nat} (hk : k < 8) {s : State} (g : s.get (Node.state nid) = stGated) :
    (run (autoSpares k) s).get (Node.state nid) = stGated := by
  rw [autoSpares, run_look']
  refine forEach_induct (P := fun s => s.get (Node.state nid) = stGated) (fun p hp s g => autoSpare_gated pipe small ?_ g) g
  obtain ⟨j, hj, rfl⟩ := List.mem_map.mp (List.mem_filter.mp hp).1
  have := List.mem_range.mp hj
  omega

end

/-- The BIST of a Faulted node ends in Gated or, of one that firmware ran by itself and that fails, in Retired (R64, R559). -/
theorem bistEnds_state {nid : Fin 0x140} (known : localNid nid.val = true) (pass : Bool) {s : State}
    (faulted : s.get (Node.state nid.val) = stFaulted) :
    (run (bistEnds nid pass true) s).get (Node.state nid.val) = if pass then stGated else stRetired := by
  have whole := whole_nodeState nid known
  have role {f : Fld} {v : Nat} {u : State} (w : f.width ≤ 32) (high : 0x10000000 ≤ f.addr) :
      (run (set f v) u).get (Node.state nid) = u.get (Node.state nid) := get_set_apart w whole (.inl (by simp only [Node.state]; omega))
  have valid {v : Nat} {u : State} : (run (set (Role.spareValid ((nid.val - 0x100) / 8)) v) u).get (Node.state nid) = u.get (Node.state nid) :=
    role (by simp [Role.spareValid]) (by simp only [Role.spareValid]; omega)
  have lost {v : Nat} {u : State} : (run (set (Role.retired ((nid.val - 0x100) / 8)) v) u).get (Node.state nid) = u.get (Node.state nid) :=
    role (by simp [Role.retired]) (by simp only [Role.retired]; omega)
  have gated := setState_get whole (st := stGated) (by decide) s
  have retired := setState_get whole (st := stRetired) (by decide) s
  rw [bistEnds, run_look', if_neg (by simpa using faulted)]
  cases pass with
  | true =>
    simp only [if_true, run_block_cons, run_block_nil, run_when]
    split
    next spare =>
      have pipe : 0x100 ≤ nid.val := by simp only [Bool.and_eq_true, decide_eq_true_eq] at spare; exact spare.1
      exact autoSpares_gated pipe nid.isLt (by omega) (valid.trans gated)
    · exact gated
  | false =>
    simp only [Bool.false_eq_true, if_false, if_true]
    split
    · exact retired
    · rw [run_block_cons, run_block_cons, run_block_cons, run_block_nil]
      exact valid.trans (lost.trans retired)

theorem nodeResetBistDone_ends {nid : Fin 0x140} (pass : Bool) {s : State} (node : nid.val ≠ 1) (own : s.dev.pwr.bist.contains nid.val = true)
    (known : localNid nid.val = true) (faulted : s.get (Node.state nid.val) = stFaulted) :
    Answers (.nodeResetBistDone nid pass) s fun t => t.get (Node.state nid.val) = (if pass then stGated else stRetired) := by
  have shape : execNodeResetBistDone nid pass s
      = .next (run (bistEnds nid pass true) (run (setPwr fun x => { x with bist := x.bist.filter (· ≠ nid.val) }) s)) := by
    simp only [execNodeResetBistDone, run_look', node, own, if_false, if_true, run_block_cons, run_block_nil]
  refine answers_next shape (bistEnds_state known pass ?_)
  rw [setPwr, run_dev, get_dev, faulted]

end Sys2Proof.Machine
end


section
/-! Firmware takes a request and lets a held one go on (R138, R147, R148). -/

namespace Sys2Proof.Machine
open Reg

/-! GET_IDENTITY as its bytes spell it. -/

theorem leAt_first {post : List Byte} {n v : Nat} (small : v < 256 ^ n) : leAt (leBytes n v ++ post) 0 n = v := by
  have part : slice (leBytes n v ++ post) 0 n = leBytes n v := by
    have rest : n - (leBytes n v ++ post).length = 0 := by simp
    rw [slice, List.drop_zero, rest]
    simp [zeros]
  rw [leAt, part, leVal_leBytes, Nat.mod_eq_of_lt small]

theorem leAt_field {pre post : List Byte} {o n v : Nat} (small : v < 256 ^ n) (h : pre.length = o) :
    leAt (pre ++ (leBytes n v ++ post)) o n = v := by
  have part : slice (pre ++ (leBytes n v ++ post)) o n = slice (leBytes n v ++ post) 0 n := by
    rw [slice, slice, ← h, List.drop_left, List.drop_zero]
  rw [leAt, part, ← leAt, leAt_first small]

/-- The bytes of a GET_IDENTITY for the device, and of the buffer after it. -/
def identityBytes (tag : Nat) : List Byte :=
  leBytes 4 0x01010100 ++ (leBytes 4 tag ++ (leBytes 2 0 ++ (leBytes 2 0 ++ (leBytes 4 1 ++ zeros 1008))))

theorem identityBytes_fields {tag : Nat} (h : tag < 256 ^ 4) : leAt (identityBytes tag) 0 4 = 0x01010100 ∧ leAt (identityBytes tag) 4 4 = tag
    ∧ leAt (identityBytes tag) 8 2 = 0 ∧ leAt (identityBytes tag) 10 2 = 0 ∧ leAt (identityBytes tag) 12 4 = 1 := by
  have op := leAt_first (post := leBytes 4 tag ++ (leBytes 2 0 ++ (leBytes 2 0 ++ (leBytes 4 1 ++ zeros 1008)))) (n := 4) (v := 0x01010100)
    (by norm_num)
  have tagged := leAt_field (pre := leBytes 4 0x01010100) (post := leBytes 2 0 ++ (leBytes 2 0 ++ (leBytes 4 1 ++ zeros 1008))) (n := 4)
    (v := tag) h (o := 4) (by simp)
  have len := leAt_field (pre := leBytes 4 0x01010100 ++ leBytes 4 tag) (post := leBytes 2 0 ++ (leBytes 4 1 ++ zeros 1008)) (n := 2) (v := 0)
    (by norm_num) (o := 8) (by simp)
  have spare := leAt_field (pre := leBytes 4 0x01010100 ++ leBytes 4 tag ++ leBytes 2 0) (post := leBytes 4 1 ++ zeros 1008) (n := 2) (v := 0)
    (by norm_num) (o := 10) (by simp)
  have node := leAt_field (pre := leBytes 4 0x01010100 ++ leBytes 4 tag ++ leBytes 2 0 ++ leBytes 2 0) (post := zeros 1008) (n := 4) (v := 1)
    (by norm_num) (o := 12) (by simp)
  simp only [List.append_assoc] at len spare node
  rw [identityBytes]
  exact ⟨op, tagged, len, spare, node⟩

/-- A GET_IDENTITY for the device is read back from its mailbox. -/
theorem readReq_getIdentity {r : Req} (version : r.version = 1) (flags : r.flags = 0) (rsv : r.rsv = 0) (length : r.length = 0) (node : r.node = 1)
    (payload : r.payload = []) : readReq (padTo 1024 (reqBytes 1 1 r)) = (1, 1, r) := by
  have shape : padTo 1024 (reqBytes 1 1 r) = identityBytes r.tag.toNat := by
    simp [padTo, reqBytes, identityBytes, version, flags, rsv, length, node, payload, List.append_assoc]
  obtain ⟨op, tag, len, spare, target⟩ := identityBytes_fields (tag := r.tag.toNat) (by have := r.tag.isLt; norm_num; omega)
  rw [shape]
  generalize identityBytes r.tag.toNat = bs at *
  have empty : slice bs 16 0 = [] := by simp [slice, zeros]
  have cls : leAt bs 0 4 / 0x1000000 % 256 = 1 := by omega
  have code : leAt bs 0 4 / 0x10000 % 256 = 1 := by omega
  have none_ : BitVec.ofNat 8 (leAt bs 0 4) = r.flags := by rw [flags, op]; decide
  have one : BitVec.ofNat 8 (leAt bs 0 4 / 256) = r.version := by rw [version, op]; decide
  have tagged : BitVec.ofNat 32 (leAt bs 4 4) = r.tag := by rw [tag]; exact BitVec.eq_of_toNat_eq (by rw [BitVec.toNat_ofNat]; exact Nat.mod_eq_of_lt r.tag.isLt)
  have none16 : BitVec.ofNat 16 (leAt bs 8 2) = r.length ∧ BitVec.ofNat 16 (leAt bs 10 2) = r.rsv := by
    rw [length, rsv, len, spare]; decide
  have device : BitVec.ofNat 32 (leAt bs 12 4) = r.node := by rw [node, target]; decide
  have short : (if 1008 < leAt bs 8 2 then 1008 else leAt bs 8 2) = 0 := by rw [len]; rfl
  simp only [readReq, cls, code, none_, one, tagged, none16, device, short, empty, ← payload]

theorem findSpec_getIdentity : findSpec 1 1 = some specGetIdentity := rfl

/-- The context of a GET_IDENTITY for the device itself. -/
def identityCtx (m : MbId) (r : Req) (take : Nat) : Ctx := ⟨m, 1, 1, r, [], ⟨0, .device, 1, true⟩, take⟩

theorem getIdentity_verdict {m : MbId} {r : Req} {u : State} (own : u.dev.ownIndex = 0) (alive : u.get (Node.state 1) ≠ stFaulted) (take : Nat) : specGetIdentity.verdict (identityCtx m r take) u = (0, []) := by
  have world : u.nodeS 1 = false := rfl
  simp [CmdSpec.verdict, identityCtx, specGetIdentity, Target.local, own, world, alive, badKey, badKey.scan]

section
variable {m : MbId} {r : Req} {u : State} (version : r.version = 1) (flags : r.flags = 0) (rsv : r.rsv = 0) (length : r.length = 0)
  (node : r.node = 1) (payload : r.payload = []) (own : u.dev.ownIndex = 0)
include version flags rsv length node payload own

theorem getIdentity_context (buffer : m ≠ .twoWire) : specGetIdentity.context m r u = .inr (identityCtx m r u.dev.takes) := by
  have body : parseTlvs 252 r.body = some [] := by simp [Req.body, payload, length, slice, zeros, parseTlvs]
  have target : u.target 1 = some ⟨0, .device, 1, true⟩ := by
    simp [State.target, own, nidKind, bit]
  simp [CmdSpec.context, version, flags, rsv, length, body, node, buffer, target, identityCtx, specGetIdentity, NodeKind.level]

/-- A GET_IDENTITY that the device takes is answered with its identity. -/
theorem run_getIdentity_take {s : State} (buffer : m ≠ .twoWire)
    (took : run (block [dropBell m, setMbState m 2, dev fun d => { d with takes := d.takes + 1 }]) s = u)
    (alive : u.get (Node.state 1) ≠ stFaulted) :
    run (specGetIdentity.take m r) s
      = run (respond m 1 1 r 1 0 1 (specGetIdentity.results (identityCtx m r u.dev.takes) u)) u := by
  have context := getIdentity_context version flags rsv length node payload own buffer (m := m)
  have verdict := getIdentity_verdict (r := r) own alive (m := m) u.dev.takes
  have wet : bit r.flags.toNat 1 = false ∧ bit r.flags.toNat 2 = false := by rw [flags]; exact ⟨rfl, rfl⟩
  simp only [run_block_cons, run_block_nil] at took
  rw [CmdSpec.take]
  simp only [run_block_cons, run_block_nil, took, run_look', context, verdict, wet]
  simp [CmdSpec.begin, CmdSpec.execute, deliver, Ctx.has, Ctx.find, identityCtx, specGetIdentity, own, wet]

end

/-- The doorbells and the count of takes are as a mailbox's answer found them. -/
theorem respond_doorbells {m : MbId} (served : m.hosted = true ∨ m = .twoWire) (cls code : Nat) (r : Req) (v st nid : Nat) (ts : List Tlv) (s : State) :
    (run (respond m cls code r v st nid ts) s).dev.doorbells = s.dev.doorbells ∧ (run (respond m cls code r v st nid ts) s).dev.takes = s.dev.takes := by
  have serves {β : Type} {g : Dev → β} (q : Quiet g) (tw : ∀ d w, g { d with tw := w } = g d) : (sparingDev g).Serves m :=
    { sparingDev_tells q with byte := fun _ => trivial, word := fun _ _ _ _ => trivial, bus := fun _ _ => trivial, tw := fun _ d => tw d _ }
  exact ⟨((serves (g := Dev.doorbells) (fun _ _ _ _ _ _ => rfl) fun _ _ => rfl).respond served cls code r v st nid ts).sparedDev s,
    ((serves (g := Dev.takes) (fun _ _ _ _ _ _ => rfl) fun _ _ => rfl).respond served cls code r v st nid ts).sparedDev s⟩

theorem mailboxTake_answers {j : Fin 4} {r : Req} {ds : List MbId} {s : State} (ready : s.fwReady = true)
    (first : s.dev.doorbells = .pf0 j :: ds) (once : .pf0 j ∉ ds) (bytes : s.mbBytes (.pf0 j) = padTo 1024 (reqBytes 1 1 r))
    (version : r.version = 1) (flags : r.flags = 0) (rsv : r.rsv = 0) (length : r.length = 0) (node : r.node = 1) (payload : r.payload = [])
    (alive : s.get (Node.state 1) ≠ stFaulted) (own : s.dev.ownIndex = 0) :
    Answers .mailboxTake s fun t => t.dev.doorbells = ds ∧ t.mbState (.pf0 j) = 3 ∧ t.get (Mbx.lastStatus (MbId.base (.pf0 j))) = 0
      ∧ t.dev.takes = s.dev.takes + 1 := by
  have hosted : (MbId.pf0 j).hosted = true := rfl
  obtain ⟨u, took⟩ : ∃ u, run (block [dropBell (.pf0 j), setMbState (.pf0 j) 2, dev fun d => { d with takes := d.takes + 1 }]) s = u := ⟨_, rfl⟩
  have dev_ : u.dev = { s.dev with doorbells := s.dev.doorbells.filter fun x => x ≠ .pf0 j, takes := s.dev.takes + 1 } := by
    rw [← took]
    simp only [run_block_cons, run_block_nil, setMbState_hosted hosted, dropBell, run_dev]
    exact congrArg (fun d : Dev => { d with takes := d.takes + 1 }) (set_dev ..)
  have node_ : u.get (Node.state 1) = s.get (Node.state 1) := by
    simp only [← took, run_block_cons, run_block_nil, setMbState_hosted hosted, dropBell, run_dev, get_dev]
    rw [get_set_apart (by simp [Mbx.state]) (by decide) (.inl (by simp only [Node.state, Mbx.state, MbId.base, hostKey]; omega)), get_dev]
  have answer := run_getIdentity_take version flags rsv length node payload (by rw [dev_]; exact own) (m := .pf0 j) (by simp) took (by rwa [node_])
  have shape : execMailboxTake s = .next (run (specGetIdentity.take (.pf0 j) r) s) := by
    simp only [execMailboxTake, run_look', first, ready, run_when_true, bytes, takeBytes,
      readReq_getIdentity version flags rsv length node payload, findSpec_getIdentity, reduceCtorEq, false_and,
      if_false]
  rw [answer] at shape
  refine answers_next shape ?_
  obtain ⟨bells, takes⟩ := respond_doorbells (.inl hosted) 1 1 r 1 0 1 (specGetIdentity.results (identityCtx (.pf0 j) r u.dev.takes) u) u
  obtain ⟨state, status⟩ := respond_done (.inl hosted) 1 1 r 1 (st := 0) (by decide) 1 (specGetIdentity.results (identityCtx (.pf0 j) r u.dev.takes) u) u
  refine ⟨?_, state, by rw [← lastStatus_hosted hosted]; exact status, by rw [takes, dev_]⟩
  have others : ds.filter (fun x => decide (x ≠ .pf0 j)) = ds := List.filter_eq_self.mpr fun x hx => by
    simpa using fun e : x = .pf0 j => once (e ▸ hx)
  rw [bells, dev_, first, List.filter_cons_of_neg (by simp), others]

/-! A held command goes on (R148). -/

section
variable {F : Foot} (tells : F.Tells) (reg : ∀ a, F.reg a) (byte : ∀ a, F.byte a)
  (tw : ∀ f : TwMail → TwMail, F.dev fun d => { d with tw := f d.tw })
  (replied : ∀ n bs, F.dev fun d => { d with answered := (n, bs) :: d.answered })
include tells reg

/-- A packet leaves on any quad. -/
theorem within_sendPacket (q : Nat) (p : Packet) : (sendPacket q p).Within F := by
  have pump (n : Nat) : (pumpFrom q n).Within F := by
    induction n with
    | zero => trivial
    | succ n ih =>
      refine within_look'.mpr fun s => within_ite.mpr ⟨fun _ => trivial, fun _ => ?_⟩
      split
      · trivial
      · simp only [within_cons, within_nil, within_emit, within_bump, tells.setQuad, tells.out, reg, ih, implies_true, and_self]
  simp only [sendPacket, Machine.pump, within_cons, within_nil, within_look, tells.setQuad, pump, implies_true, and_self]

include byte tw replied

/-- Any mailbox is answered. -/
theorem within_respond (m : MbId) (cls code : Nat) (r : Req) (v st nid : Nat) (ts : List Tlv) : (respond m cls code r v st nid ts).Within F := by
  by_cases served : m.hosted = true ∨ m = .twoWire
  · exact Foot.Serves.respond { tells with byte := byte, word := fun _ _ _ _ => reg _, bus := fun _ _ => reg _, tw := tw } served ..
  · cases m with
    | cascade auth tag =>
      refine within_look.mpr fun s => within_cons.mpr ⟨within_dev.mpr (replied _ _), within_cons.mpr ⟨?_, within_nil⟩⟩
      split
      · exact within_sendPacket tells reg _ _
      · trivial
    | twoWire => exact absurd (.inr rfl) served
    | pf0 k => exact absurd (.inl rfl) served
    | pf1 k => exact absurd (.inl rfl) served

end

/-- What answers and packets do not change: the journal among it. -/
theorem journal_tells : (sparingDev Dev.journal).Tells := sparingDev_tells fun _ _ _ _ _ _ => rfl

theorem respond_journal (m : MbId) (cls code : Nat) (r : Req) (v st nid : Nat) (ts : List Tlv) :
    (respond m cls code r v st nid ts).Within (sparingDev Dev.journal) :=
  within_respond journal_tells (fun _ => trivial) (fun _ => trivial) (fun _ _ => rfl) (fun _ _ _ => rfl) ..

/-- GET_IDENTITY that goes on enters the journal, if at all, as a command of another device. -/
theorem getIdentity_begin (c : Ctx) {s : State} (empty : s.dev.journal = []) :
    ∀ x ∈ (run (specGetIdentity.begin c) s).dev.journal, x.phase ≠ .held := by
  have memory (a : Nat) (bs : List Byte) : (setBytes a bs).Within (sparingDev Dev.journal) := within_setBytes (fun _ => trivial) bs a
  have delivered (ts : List Tlv) : (deliver c ts).1.Within (sparingDev Dev.journal) := by
    unfold deliver
    split
    · exact memory _ _
    · trivial
  have sent (d : Nat) (auth : Bool) (use : CtlFor) (bs : List Byte) : (sendCtrl d auth use bs).Within (sparingDev Dev.journal) := by
    refine within_look.mpr fun s => ?_
    split
    · exact within_cons.mpr ⟨within_dev.mpr fun _ => rfl, within_cons.mpr ⟨within_sendPacket journal_tells (fun _ => trivial) _ _, within_nil⟩⟩
    · trivial
  have stays {p : Prog} (h : p.Within (sparingDev Dev.journal)) : ∀ x ∈ (run p s).dev.journal, x.phase ≠ .held := by
    rw [h.sparedDev, empty]
    exact List.forall_mem_nil _
  have alone : specGetIdentity.fanout = false := rfl
  simp only [CmdSpec.begin, run_look', alone, Bool.not_false, true_or, and_true, Bool.false_eq_true, false_and, if_false]
  split
  · rw [run_block_cons, run_block_cons, run_block_nil, (sent _ _ _ _).sparedDev, setJournal, run_dev]
    simp [empty, Ctx.entry]
  split
  · refine stays (within_look'.mpr fun s => ?_)
    split
    · exact respond_journal ..
    · exact within_ite.mpr ⟨fun _ => within_cons.mpr ⟨delivered _, within_cons.mpr ⟨respond_journal .., within_nil⟩⟩, fun _ => respond_journal ..⟩
  · have answer (st : Nat) (ts : List Tlv) := respond_journal c.mb c.cls c.code c.req 1 st c.tgt.nid ts
    exact stays (by simp [CmdSpec.execute, specGetIdentity, answer, delivered])

/-- What a muted command leaves in the journal is what it does without. -/
theorem muted_journal (m : MbId) (p : Prog) (s : State) : (run (muted m p) s).dev.journal = (run p s).dev.journal := by
  rw [muted, run_look', run_block_cons, run_block_cons, run_block_nil]
  refine Prog.Within.sparedDev (g := Dev.journal) ?_ _
  cases m <;> simp [within_setBytes]

theorem orderedCommandRelease_goes {e : Cmd} {s : State} (ready : s.fwReady = true) (alone : s.dev.journal = [e]) (held : e.phase = .held)
    (cls : e.cls = 1) (code : e.code = 1) :
    Answers .orderedCommandRelease s fun t => ∀ x ∈ t.dev.journal, x.seq = e.seq → x.phase ≠ .held := by
  have found : (s.dev.journal.find? fun e => e.phase = .held && s.worldIdle (s.mbS e.mb) e.seq) = some e := by
    simp [alone, held, State.worldIdle]
  have dropped : (run (dropCmd e.seq) s).dev.journal = [] := by simp [dropCmd, setJournal, alone]
  have stays {p : Prog} (h : p.Within (sparingDev Dev.journal)) : ∀ x ∈ (run p (run (dropCmd e.seq) s)).dev.journal, x.phase ≠ .held := by
    rw [h.sparedDev, dropped]
    exact List.forall_mem_nil _
  have refused (st : Nat) (ts : List Tlv) : (answer e st ts).Within (sparingDev Dev.journal) :=
    within_look.mpr fun s => within_when.mpr fun _ => respond_journal ..
  refine answers_next rfl ?_
  suffices free : ∀ x ∈ (run _ s).dev.journal, x.phase ≠ .held from fun x hx _ => free x hx
  simp only [run_look', ready, run_when_true, found, cls, code, findSpec_getIdentity]
  split
  next sp c spec _ =>
    obtain rfl : specGetIdentity = sp := Option.some.inj spec
    rw [run_block_cons, run_block_cons, run_block_nil, run_look']
    split
    · exact stays (refused _ _)
    split
    · rw [muted_journal]
      exact getIdentity_begin _ dropped
    · exact getIdentity_begin c dropped
  · rw [run_block_cons, run_block_cons, run_block_nil]
    exact stays (refused _ _)

/-- Settles O14. -/
theorem mailboxesAndDataPortsMove : Obligations.MailboxesAndDataPortsMove :=
  ⟨fun _ _ up ready idle sound => doorbellRing_queues rfl up ready idle sound,
    fun _ _ up ready idle sound => doorbellRing_queues rfl up ready idle sound,
    fun _ _ _ _ ready first once bytes version flags rsv length node payload alive own =>
      mailboxTake_answers ready first once bytes version flags rsv length node payload alive own,
    fun _ _ ready alone held cls code => orderedCommandRelease_goes ready alone held cls code,
    fun _ _ up answered sound => responseConsume_frees rfl up answered sound,
    fun _ _ up answered sound => responseConsume_frees rfl up answered sound,
    fun fn n v _ up sound => dataPortAddrWrite_sets fn n false v up sound, fun fn n v _ up sound => dataPortAddrWrite_sets fn n true v up sound,
    fun fn n v _ up sound => dataPortCtrlWrite_sets fn n v up sound, fun fn n _ up sound => dataPortNext_moves fn n up sound,
    fun fn n _ up sound => dataPortRefresh_fills fn n up sound, fun fn n _ filling _ => dataPortFillDone_fills fn n filling,
    fun fn n off b _ window pass shared sound => dataPortWindowWrite_writes fn n off b window pass shared sound,
    fun _ ready => statusPageRefresh_counts ready,
    fun _ pass _ node own known faulted => nodeResetBistDone_ends pass node own known faulted⟩

end Sys2Proof.Machine
end


section
/-! The boot ROM, from step to step (R175, R180 to R184, Tables 5-6 and 5-7). -/

namespace Sys2Proof.Machine
open Reg

theorem boot_wholes : BootReg.step.Whole ∧ BootReg.waiting.Whole ∧ BootReg.failed.Whole ∧ BootReg.source.Whole ∧ BootReg.code.Whole
    ∧ BootReg.attempt.Whole ∧ BootReg.failDetail.Whole ∧ BootReg.wdogSeen.Whole ∧ BootReg.resetCause.Whole := by decide

/-- An alert is queued in the two-wire target, and nothing else changes. -/
theorem raiseAlert_rest (k : Nat) (s : State) : (run (raiseAlert k) s).regs = s.regs ∧ (run (raiseAlert k) s).mem = s.mem
    ∧ (run (raiseAlert k) s).dev = { s.dev with tw := (run (raiseAlert k) s).dev.tw } := by
  rw [raiseAlert, run_look]
  split <;> exact ⟨rfl, rfl, rfl⟩

theorem raiseAlert_get (k : Nat) (s : State) (f : Fld) : (run (raiseAlert k) s).get f = s.get f := by
  simp only [State.get, State.reg, (raiseAlert_rest k s).1]

/-- A step that fails for good shows its code and detail, and leaves the step and memory as they were (R183). -/
theorem bootFail_fails (code detail : Nat) (s : State) :
    let t := run (bootFail code detail false) s
    t.on BootReg.failed = true ∧ t.get BootReg.code = code % 256 ∧ t.get BootReg.failDetail = detail % 0x100000000
      ∧ t.get BootReg.step = s.get BootReg.step ∧ t.mem = s.mem := by
  obtain ⟨wStep, wWait, wFailed, wSource, wCode, wAttempt, wDetail, wSeen, wCause⟩ := boot_wholes
  have shape : run (bootFail code detail false) s
      = run (raiseAlert 4) (run (set BootReg.waiting 0) (run (set BootReg.failed 1) (run (set BootReg.failDetail detail) (run (set BootReg.code code) s)))) := by
    simp only [bootFail, bootStops, run_look', run_block_cons, run_block_nil, Bool.false_eq_true, false_and, if_false]
  have mem : (run (bootFail code detail false) s).mem = s.mem := by rw [shape, (raiseAlert_rest ..).2.1]; simp only [set_mem]
  have shown : (run (bootFail code detail false) s).get BootReg.failed = 1 ∧ (run (bootFail code detail false) s).get BootReg.code = code % 256
      ∧ (run (bootFail code detail false) s).get BootReg.failDetail = detail % 0x100000000
      ∧ (run (bootFail code detail false) s).get BootReg.step = s.get BootReg.step := by
    simp only [shape, raiseAlert_get]
    simp (disch := first | assumption | (refine id ?_; dsimp only [BootReg.step, BootReg.waiting, BootReg.failed, BootReg.code, BootReg.failDetail]; omega) | fail)
      only [get_set_apart, get_set_same]
    exact ⟨rfl, rfl, rfl, trivial⟩
  obtain ⟨failed, rest⟩ := shown
  exact ⟨by rw [State.on, failed]; rfl, rest.1, rest.2.1, rest.2.2, mem⟩

/-- Counting ELAPSED on touches that word alone. -/
theorem noteElapsed_rest (s : State) : (∀ f : Fld, f.Whole → f.addr ≠ BootReg.elapsed.addr → (run noteElapsed s).get f = s.get f)
    ∧ (run noteElapsed s).mem = s.mem ∧ (run noteElapsed s).dev = s.dev := by
  rw [noteElapsed, run_look', run_when]
  split
  · exact ⟨fun f w apart => get_set_apart (by decide) w (.inl apart), set_mem .., set_dev ..⟩
  · exact ⟨fun _ _ _ => rfl, rfl, rfl⟩

/-- The boot ROM is at a step, and nothing holds it there. -/
structure AtStep (n : Nat) (s : State) : Prop where
  mode : s.mode = mBoot
  fresh : s.dev.boot.restarting = false
  sound : s.on BootReg.failed = false
  untapped : s.tapHolds = false
  step : s.get BootReg.step = n

section
variable {s : State} {o : BootObs}

theorem stepOne_ends (at_ : AtStep 1 s) (supplies : s.supplyBad = none) :
    Answers (.bootStepComplete o) s fun t => (o.pll = none → t.get BootReg.step = 2 ∧ t.on BootReg.failed = false)
      ∧ (∀ n ∈ o.pll, t.on BootReg.failed = true ∧ t.get BootReg.code = 2 ∧ t.get BootReg.failDetail = n % 0x100000000) := by
  obtain ⟨wStep, wWait, wFailed, wSource, wCode, wAttempt, wDetail, wSeen, wCause⟩ := boot_wholes
  obtain ⟨mode, fresh, sound, untapped, step⟩ := at_
  obtain ⟨kept, mem, dev_⟩ := noteElapsed_rest s
  have supplies : (run noteElapsed s).supplyBad = none := by
    have role : (run noteElapsed s).on BootReg.role = s.on BootReg.role := by rw [State.on, kept _ (by decide) (by decide), ← State.on]
    have form : (run noteElapsed s).on BootReg.form = s.on BootReg.form := by rw [State.on, kept _ (by decide) (by decide), ← State.on]
    rw [← supplies, State.supplyBad, State.supplyBad, dev_, role, form]
  refine answers_next rfl ?_
  simp only [run_look', fresh, sound, untapped, mode, ne_eq, not_true_eq_false, Bool.false_eq_true, false_and, or_self, if_false, step,
    run_block_cons, run_block_nil, stepOne, supplies]
  cases pll : o.pll with
  | none =>
    refine ⟨fun _ => ⟨get_set_same _ _ _ wStep, ?_⟩, fun _ h => absurd h (by simp)⟩
    rw [State.on, get_set_apart (by decide) wFailed (.inr (.inr (by decide))), kept _ wFailed (by decide)]
    exact sound
  | some n =>
    refine ⟨fun h => absurd h (by simp), fun k hk => ?_⟩
    obtain rfl : n = k := by simpa using hk
    obtain ⟨failed, code, detail, -⟩ := bootFail_fails 2 n (run noteElapsed s)
    exact ⟨failed, code, detail⟩

theorem Tbl.get_absent {α : Type} (d : α) (t : List (Nat × α)) {x : Nat} (h : x ∉ t.map Prod.fst) : Tbl.get d t x = d := by
  induction t with
  | nil => rfl
  | cons c t ih =>
    obtain ⟨k, v⟩ := c
    simp only [List.map_cons, List.mem_cons, not_or] at h
    rw [Tbl.get, if_neg h.1, ih h.2]

/-- Memory that is cleared reads as it does where nothing is stored. -/
theorem byte_clearMem {lo len a : Nat} (h : lo ≤ a ∧ a < lo + len) (s : State) : (run (clearMem lo len) s).byte a = Mem.default a := by
  have cleared (xs : List Nat) (s : State) (h : a ∈ xs ∨ s.byte a = Mem.default a) :
      (run (forEach xs fun x => setByte x (Mem.default x)) s).byte a = Mem.default a := by
    induction xs generalizing s with
    | nil => exact h.resolve_left (by simp)
    | cons x xs ih =>
      rw [run_forEach_cons]
      refine ih _ ?_
      by_cases e : a = x
      · subst e; exact .inr (byte_setByte_same ..)
      · refine h.imp (fun hm => (List.mem_cons.mp hm).resolve_left e) fun hd => ?_
        rw [run_setByte, byte_setByte_other _ _ e, hd]
  rw [clearMem, run_look]
  refine cleared _ s ?_
  by_cases stored : a ∈ s.mem.map Prod.fst
  · obtain ⟨c, hc, rfl⟩ := List.mem_map.mp stored
    exact .inl (List.mem_map.mpr ⟨c, List.mem_filter.mpr ⟨hc, by simpa using h⟩, rfl⟩)
  · exact .inr (Tbl.get_absent _ _ stored)

/-- Clearing memory writes the bytes that are cleared and nothing else. -/
theorem within_clearMem_at {F : Foot} {lo len : Nat} (h : ∀ a, lo ≤ a → a < lo + len → F.byte a) : (clearMem lo len).Within F := by
  refine within_look.mpr fun s => within_forEach.mpr fun a ha => ⟨?_, trivial⟩
  obtain ⟨c, hc, rfl⟩ := List.mem_map.mp ha
  have inside := (List.mem_filter.mp hc).2
  simp only [Bool.and_eq_true, decide_eq_true_eq] at inside
  exact h _ inside.1 inside.2

/-- What clears shared and internal memory: no byte that neither holds. -/
theorem clearInternal_shared {a : Nat} (h : 0x100000000 ≤ a) (s : State) : (run (clearMem 0 0x400000) s).byte a = s.byte a :=
  (within_clearMem_at (F := { byte := (· ≠ a) }) fun x _ hx => by simp only; omega).byte (by simp) s

/-- What the boot ROM clears (R175). -/
def clearsMemory : Prog := block [clearMem 0x100000000 0x3000000, clearMem 0 0x400000, setEcc fun _ => [], set BootReg.step 3]

theorem clearsMemory_clears (s : State) : (run clearsMemory s).get BootReg.step = 3 ∧ (run clearsMemory s).dev.ecc = []
    ∧ ∀ a, 0x100000000 ≤ a → a < 0x103000000 → (run clearsMemory s).byte a = 0 := by
  have shape : run clearsMemory s = run (set BootReg.step 3) (run (setEcc fun _ => []) (run (clearMem 0 0x400000)
      (run (clearMem 0x100000000 0x3000000) s))) := by simp only [clearsMemory, run_block_cons, run_block_nil]
  rw [shape]
  have sound (u : State) : (run (set BootReg.step 3) (run (setEcc fun _ => []) u)).dev.ecc = [] := by rw [set_dev]; rfl
  refine ⟨get_set_same _ _ _ boot_wholes.1, sound _, fun a lo hi => ?_⟩
  have zero : Mem.default a = 0 := if_neg (by omega)
  have kept (u : State) : (run (set BootReg.step 3) (run (setEcc fun _ => []) u)).byte a = u.byte a := by
    rw [State.byte, set_mem]; rfl
  rw [kept, clearInternal_shared lo, byte_clearMem ⟨lo, by omega⟩, zero]

theorem stepTwo_ends (at_ : AtStep 2 s) :
    Answers (.bootStepComplete o) s fun t => (o.sram = none → t.get BootReg.step = 3 ∧ t.dev.ecc = []
        ∧ ∀ a, 0x100000000 ≤ a → a < 0x103000000 → t.byte a = 0)
      ∧ (∀ n ∈ o.sram, t.on BootReg.failed = true ∧ t.get BootReg.code = 3 ∧ t.mem = s.mem) := by
  obtain ⟨wStep, wWait, wFailed, wSource, wCode, wAttempt, wDetail, wSeen, wCause⟩ := boot_wholes
  obtain ⟨mode, fresh, sound, untapped, step⟩ := at_
  obtain ⟨kept, mem, dev_⟩ := noteElapsed_rest s
  refine answers_next rfl ?_
  simp only [run_look', fresh, sound, untapped, mode, ne_eq, not_true_eq_false, Bool.false_eq_true, false_and, or_self, if_false, step,
    run_block_cons, run_block_nil, ← clearsMemory.eq_1]
  cases sram : o.sram with
  | none =>
    exact ⟨fun _ => clearsMemory_clears _, fun _ h => absurd h (by simp)⟩
  | some n =>
    refine ⟨fun h => absurd h (by simp), fun k hk => ?_⟩
    obtain ⟨failed, code, -, -, kept⟩ := bootFail_fails 3 n (run noteElapsed s)
    exact ⟨failed, code, kept.trans mem⟩

theorem stepThree_fails (at_ : AtStep 3 s) {n : Nat} (bad : o.fuse = some n) :
    Answers (.bootStepComplete o) s fun t => t.on BootReg.failed = true ∧ t.get BootReg.code = 4 ∧ t.get BootReg.failDetail = n % 0x100000000
      ∧ t.get BootReg.step = 3 := by
  obtain ⟨mode, fresh, sound, untapped, step⟩ := at_
  refine answers_next rfl ?_
  simp only [run_look', fresh, sound, untapped, mode, ne_eq, not_true_eq_false, Bool.false_eq_true, false_and, or_self, if_false, step,
    run_block_cons, run_block_nil, bad]
  obtain ⟨failed, code, detail, at_, -⟩ := bootFail_fails 4 n (run noteElapsed s)
  exact ⟨failed, code, detail, at_.trans (((noteElapsed_rest s).1 _ boot_wholes.1 (by decide)).trans step)⟩

theorem bootStepTimeout_fails (lo : 1 ≤ s.get BootReg.step) (hi : s.get BootReg.step ≤ 7) (idle : s.on BootReg.waiting = false)
    (sound : s.on BootReg.failed = false) (unready : s.fwReady = false) (untapped : s.tapHolds = false) :
    Answers .bootStepTimeout s fun t => t.on BootReg.failed = true ∧ t.get BootReg.code = 0xD ∧ t.get BootReg.failDetail = s.get BootReg.step
      ∧ t.get BootReg.step = s.get BootReg.step := by
  refine answers_next rfl ?_
  obtain ⟨failed, code, detail, at_, -⟩ := bootFail_fails 0xD (s.get BootReg.step) s
  simp only [run_look', lo, hi, idle, sound, unready, untapped, decide_true, Bool.not_false, Bool.and_self, run_when_true]
  exact ⟨failed, code, detail.trans (Nat.mod_eq_of_lt (by omega)), at_⟩

end

end Sys2Proof.Machine
end


section
/-! What ends the boot ROM: a host's GO, firmware that is ready, a watchdog (R175, R176, R184, R551). -/

namespace Sys2Proof.Machine
open Reg

/-! GO. -/

theorem hostWord_go : HostWord 0 0x1014 where
  page := by decide
  far := by decide
  aligned := by decide
  notBuffer := .inl (by decide)
  takes := by decide

/-- A function writes its first pages even in Boot. -/
theorem HostWord.check_boot {fn off : Nat} (hfn : fn < 2) (h : HostWord fn off) (first : off < 0x4000) (s : State) : s.check fn .bar0 off true = 0 := by
  obtain ⟨node, bank⟩ := bar0Addr_alwaysOn hfn h.page s
  have may := h.writable hfn s
  have range : 0x10000000000 ≤ hostKey fn off := by simp only [hostKey]; omega
  have addr : s.barAddr fn .bar0 off = some (hostKey fn off) := h.page
  obtain ⟨-, world, -⟩ := above_neutral range s
  simp only [State.check, first, decide_true, Bool.not_true, Bool.false_eq_true, and_false, if_false, addr, world, may, node, bank]
  generalize hostKey fn off = a at *
  simp only [show ¬ a < 0x01321000 by omega, show ¬ a < 0x10000000000 by omega, and_false, false_and, reduceCtorEq, Bool.false_eq_true,
    Option.isSome_none, or_self, if_false]

theorem run_wordWrite_go (s : State) : run (wordWrite 0 (hostKey 0 0x1014) ((leBytes 4 1).map some)) s = run bootGo s := by
  obtain ⟨val, mask⟩ := regWrite_lanes (v := 1) (by decide)
  have key : hostKey 0 0x1014 = 0x10000001014 := rfl
  obtain ⟨-, -, remote, window, memory, -⟩ := above_neutral (a := 0x10000001014) (by decide) s
  have box : isMailbox 0x10000001014 = false := by decide
  rw [wordWrite, run_look', key]
  simp only [val, mask, remote, window, box, memory, Bool.false_eq_true, if_false, if_true]
  rfl

theorem bootGo_goes {s : State} (waiting : s.on BootReg.waiting = true) (host : s.get BootReg.source = 0) (sound : s.dev.sec.injected = none) :
    Answers .bootGo s fun t => t.on BootReg.waiting = false ∧ t.dev.boot.go = true ∧ t.get BootReg.attempt = (s.get BootReg.attempt + 1) % 16
      ∧ t.get BootReg.code = 0 := by
  obtain ⟨wStep, wWait, wFailed, wSource, wCode, wAttempt, wDetail, wSeen, wCause⟩ := boot_wholes
  have shape : run (postWrite 0 .bar0 0x1014 ((leBytes 4 1).map some)) s
      = run (set BootReg.attempt (s.get BootReg.attempt + 1)) (run (set BootReg.failDetail 0) (run (set BootReg.code 0) (run (set BootReg.waiting 0)
        (run (setBoot fun b => { b with go := true }) s)))) := by
    rw [run_postWrite_bar0_word hostWord_go.aligned (by simp) (hostWord_go.check_boot (by decide) (by decide) s) hostWord_go.page sound,
      run_wordWrite_go, bootGo, run_look']
    simp only [waiting, host, and_self, if_true, run_block_cons, run_block_nil, setBoot]
  refine answers_next rfl ?_
  rw [shape]
  refine ⟨?_, by simp only [set_dev]; rfl, ?_, ?_⟩
  all_goals
    simp (disch := first | assumption | (refine id ?_; dsimp only [BootReg.waiting, BootReg.code, BootReg.attempt, BootReg.failDetail]; omega) | fail)
      only [State.on, get_set_apart, get_set_same]
  · rfl
  · rfl
  · rfl

/-! Firmware is ready for the first time. -/

/-- The words that show how many components a pipeline has, and the latencies of nodes. -/
abbrev LatencyWord (a : Nat) : Prop := (0x01100000 ≤ a ∧ a < 0x01120000) ∨ (0x20000000 ≤ a ∧ a < 0x24000000 ∧ a % 0x100000 = 0x7000)

section
variable {F : Foot} (tells : F.Tells) (reg : ∀ a, LatencyWord a → F.reg a) (boot : ∀ f : BootSt → BootSt, F.dev fun d => { d with boot := f d.boot })
include reg

theorem within_latency {p : Nat} (hp : p < 64) (dt : Nat) : (writeLatency p dt).Within F := by
  have own : F.reg (0x20000000 + 0x100000 * p + 0x7000) := reg _ (.inr (by omega))
  have stage (k : Nat) (hk : k < 12) : F.reg (0x01110000 + 0x40 * (p * 16 + k) + 16) := reg _ (.inl (by omega))
  have node : F.reg (0x01100000 + 0x40 * nidPipe p + 16) := reg _ (.inl (by simp only [nidPipe]; omega))
  simpa [writeLatency, Col.comps3, Node.stageLatency, Node.latency, own, node] using stage

include tells boot

theorem within_firstReady : firstReady.Within F := by
  have latencies (s : State) : ∀ p ∈ List.range 64, (updateLatency p).Within F := fun p hp =>
    within_look'.mpr fun s => within_latency reg (List.mem_range.mp hp) (s.dtOf p)
  refine within_look.mpr fun s => ?_
  simp only [within_cons, within_nil, within_forEach, and_true]
  refine ⟨latencies s, tells.raise _ _ _ _, fun x _ => ?_, within_dev.mpr (boot fun b => { b with logged := [] })⟩
  split
  · exact within_forEach.mpr fun w _ => tells.raiseIn _ _ _ _ _ _
  · exact tells.raise _ _ _ _

end

/-! FW_READY stands in the status word of every mailbox. -/

/-- The status words of the hosts' mailboxes. -/
abbrev StatusWord (a : Nat) : Prop := 0x10000004000 ≤ a ∧ a % 0x1000 = 0x804

theorem within_setFwReady {F : Foot} (reg : ∀ a, StatusWord a → F.reg a) (v : Bool) : (setFwReady v).Within F := by
  refine within_forEach.mpr fun m hm => ?_
  have word : StatusWord (m.base + 0x804) := by
    simp only [allMailboxes, List.mem_cons, List.not_mem_nil, or_false] at hm
    obtain rfl | rfl | rfl | rfl | rfl | rfl := hm <;> decide
  simpa [Mbx.fwReady] using reg _ word

theorem setFwReady_fwReady (v : Bool) (s : State) : (run (setFwReady v) s).fwReady = v := by
  have whole : (Mbx.fwReady (hostKey 0 0x4000)).Whole := by decide
  have others : (forEach [.pf0 1, .pf0 2, .pf0 3] fun m : MbId => set (Mbx.fwReady m.base) (boolNat v)).Within (sparing (Mbx.fwReady (hostKey 0 0x4000))) := by
    simp [Mbx.fwReady, MbId.base, hostKey]
  have shape : run (setFwReady v) s = run (forEach [.pf0 1, .pf0 2, .pf0 3] fun m : MbId => set (Mbx.fwReady m.base) (boolNat v))
      (run (set (Mbx.fwReady (MbId.pf0 0).base) (boolNat v)) (run (forEach [.pf1 0, .pf1 1] fun m : MbId => set (Mbx.fwReady m.base) (boolNat v)) s)) := by
    simp only [setFwReady, allMailboxes, run_forEach_cons, run_forEach_nil]
  rw [shape, State.fwReady, others.spared_on, State.on, show (MbId.pf0 0).base = hostKey 0 0x4000 from rfl, get_set_same _ _ _ whole]
  cases v <;> rfl

/-- A field that neither telling nor the start of firmware writes. -/
structure Fld.OffStart (f : Fld) : Prop where
  narrow : f.width ≤ 32
  untold : ¬ Told f.addr
  latency : ¬ LatencyWord f.addr
  status : ¬ StatusWord f.addr

theorem Fld.OffStart.started {f : Fld} (h : f.OffStart) (s : State) : (run (setFwReady true) (run firstReady s)).get f = s.get f := by
  have reg {a : Nat} (apart : a ≠ f.addr) : (sparing f).reg a := (sparing_narrow h.narrow a).mpr apart
  have ready : (setFwReady true).Within (sparing f) := within_setFwReady (fun a ha => reg fun e => h.status (e ▸ ha)) true
  have first : firstReady.Within (sparing f) :=
    within_firstReady (sparing_tells h.untold (.inl h.narrow)) (fun a ha => reg fun e => h.latency (e ▸ ha)) fun _ => trivial
  rw [ready.spared, first.spared]

theorem started_lateAnswers (s : State) : (run (setFwReady true) (run firstReady s)).dev.lateAnswers = s.dev.lateAnswers := by
  have ready : (setFwReady true).Within (sparingDev Dev.lateAnswers) := within_setFwReady (fun _ _ => trivial) true
  have first : firstReady.Within (sparingDev Dev.lateAnswers) :=
    within_firstReady (sparingDev_tells fun _ _ _ _ _ _ => rfl) (fun _ _ => trivial) fun _ _ => rfl
  rw [ready.sparedDev, first.sparedDev]

theorem step_offStart : BootReg.step.OffStart := ⟨by decide, by simp only [Told, BootReg.step]; omega, by decide, by decide⟩
theorem mode_offStart : ModeReg.modeF.OffStart := ⟨by decide, by simp only [Told, ModeReg.modeF]; omega, by decide, by decide⟩

/-- No answer waits for firmware, and none is read. -/
theorem run_readLate_empty {s : State} (none_ : s.dev.lateAnswers = []) : run readLate s = s := by
  rw [readLate, run_look']
  simp only [none_, run_block_cons, run_block_nil, run_forEach_nil, run_dev]
  rw [← none_]
  rfl

theorem firmwareReady_first {s : State} (step : s.get BootReg.step = 7) (up : s.mode ≠ mBoot) (awake : s.mode ≠ mStandby)
    (sound : s.on BootReg.failed = false) (cool : s.get Therm.state ≠ 4) (unhalted : s.on Dbg.halted = false) (unready : s.fwReady = false)
    (fresh : s.dev.boot.restarting = false) (none_ : s.dev.lateAnswers = []) :
    Answers .firmwareReady s fun t => t.fwReady = true ∧ t.get BootReg.step = 8 ∧ t.mode = s.mode := by
  obtain ⟨kept, mem, dev_⟩ := noteElapsed_rest s
  have stepped : (run (set BootReg.step 8) (run noteElapsed s)).get ModeReg.modeF = s.get ModeReg.modeF := by
    rw [get_set_apart (by decide) (by decide) (.inl (by decide)), kept _ (by decide) (by decide)]
  have waits : (run (set BootReg.step 8) (run noteElapsed s)).dev.lateAnswers = [] := by rw [set_dev, dev_, none_]
  refine answers_next rfl ?_
  simp only [run_look', step, up, awake, sound, cool, unhalted, unready, fresh, decide_true, ne_eq, not_false_eq_true, Bool.not_false, Bool.or_true,
    Bool.and_self, run_when_true, run_block_cons, run_block_nil, Bool.false_eq_true, if_false]
  rw [run_readLate_empty ((started_lateAnswers _).trans waits)]
  refine ⟨setFwReady_fwReady true _, ?_, ?_⟩
  · rw [step_offStart.started, get_set_same _ _ _ boot_wholes.1]
    rfl
  · rw [State.mode, mode_offStart.started, stepped, ← State.mode]

/-! A mailbox that firmware leaves is told that it is not ready (R141). -/

section
variable {F : Foot} (serves : ∀ m : MbId, m.hosted = true ∨ m = .twoWire → F.Serves m)
  (replied : ∀ t bs, F.dev fun d => { d with answered := (t, bs) :: d.answered })
include serves replied

theorem within_respond_any (m : MbId) (cls code : Nat) (r : Req) (v st nid : Nat) (ts : List Tlv) : (respond m cls code r v st nid ts).Within F := by
  by_cases served : m.hosted = true ∨ m = .twoWire
  · exact (serves m served).respond served ..
  cases m with
  | twoWire => exact absurd (.inr rfl) served
  | pf0 k => exact absurd (.inl rfl) served
  | pf1 k => exact absurd (.inl rfl) served
  | cascade auth tag =>
    refine within_look.mpr fun s => within_cons.mpr ⟨within_dev.mpr (replied _ _), within_cons.mpr ⟨?_, within_nil⟩⟩
    split
    next q up => exact (serves .twoWire (.inr rfl)).toTells.sendPacket (upstream_lt up) _
    · trivial

theorem within_hwBusy (bells : ∀ f : List MbId → List MbId, F.dev fun d => { d with doorbells := f d.doorbells }) (m : MbId) : (hwBusy m).Within F := by
  have answer (cls code : Nat) (r : Req) (v st nid : Nat) (ts : List Tlv) := within_respond_any serves replied m cls code r v st nid ts
  have drop : (dropBell m).Within F := within_dev.mpr (bells _)
  intro s
  simp only [within_cons, within_nil, drop, answer, and_self]

end

/-- What no answer touches stays while mailboxes are told. -/
theorem Fld.OffMailbox.keepsBusy {f : Fld} (h : f.OffMailbox) (m : MbId) : Keeps (fun s => s.get f) (hwBusy m) :=
  (within_hwBusy (fun m _ => sparing_serves h m) (fun _ _ => trivial) (fun _ => trivial) m).keepsGet

theorem keepsBoot_hwBusy (m : MbId) : Keeps (fun s => s.dev.boot) (hwBusy m) :=
  (within_hwBusy (F := sparingDev Dev.boot) (fun m _ => sparingDev_serves ⟨fun _ _ _ _ _ _ => rfl, fun _ _ => rfl, fun _ _ _ => rfl⟩ m)
    (fun _ _ _ => rfl) (fun _ _ => rfl) m).sparedDev

/-- FW_READY stands beside what an answer writes. -/
theorem keepsFwReady_respond (m : MbId) (cls code : Nat) (r : Req) (v st nid : Nat) (ts : List Tlv) : Keeps State.fwReady (respond m cls code r v st nid ts) := by
  have spare {p : Prog} (h : p.Within (sparing (Mbx.fwReady (hostKey 0 0x4000)))) : Keeps State.fwReady p := h.spared_on
  have tells : (sparing (Mbx.fwReady (hostKey 0 0x4000))).Tells := sparing_tells (by simp only [Told, Mbx.fwReady, hostKey]; omega) (.inl (by decide))
  by_cases hosted : m.hosted = true
  · have beside {f : Fld} (w : f.width ≤ 32) (at_ : f.addr = m.base + 0x804) (apart : f.lo + f.width ≤ 10 ∨ 11 ≤ f.lo) (x : Nat) : Keeps State.fwReady (set f x) :=
      fun s => by simp only [State.fwReady, State.on, get_set_apart (g := Mbx.fwReady (hostKey 0 0x4000)) w (by decide) (.inr (by simp only [Mbx.fwReady]; omega))]
    have counted : Keeps State.fwReady (bump ⟨(Mbx.respReady m.base).cnt, 0, 16, 0⟩) := spare (by
      have : m.base + 0x808 ≠ hostKey 0 0x4000 + 0x804 := by
        obtain ⟨fn, k, -, -, e⟩ := base_hosted hosted
        simp only [hostKey]; omega
      simpa [Mbx.respReady, Mbx.fwReady] using this)
    rw [respond, putResponse_hosted hosted]
    refine keeps_cons (spare (within_clearMem (fun _ => trivial) _ _)) (keeps_cons (spare (within_setBytes (fun _ => trivial) _ _))
      (keeps_cons (beside (by simp [Mbx.lastStatus]) rfl (.inr (by simp [Mbx.lastStatus])) _) (keeps_cons ?_ (keeps_cons (keepsFwReady_setMbState m 3)
        (keeps_cons (keeps_when (spare (tells.sendMsix (fn_lt m) (by omega)))) keeps_nil)))))
    exact keeps_cons (beside (by simp [Mbx.respReady]) rfl (.inl (by simp [Mbx.respReady])) _) (keeps_cons counted keeps_nil)
  · refine spare ?_
    cases m with
    | pf0 k => exact absurd rfl hosted
    | pf1 k => exact absurd rfl hosted
    | twoWire => exact Foot.Serves.respond { tells with
        byte := fun _ => trivial, word := fun h => absurd h hosted, tw := fun _ => trivial
        bus := fun a bus => ⟨by simp only [BusWord, Mbx.fwReady, hostKey] at *; omega, fun wide => absurd wide (by decide)⟩ } (.inr rfl) ..
    | cascade auth tag =>
      refine within_look.mpr fun s => within_cons.mpr ⟨within_dev.mpr trivial, within_cons.mpr ⟨?_, within_nil⟩⟩
      split
      next q up => exact tells.sendPacket (upstream_lt up) _
      · trivial

theorem keepsFwReady_hwBusy (m : MbId) : Keeps State.fwReady (hwBusy m) :=
  keeps_look fun _ => keeps_cons (fun _ => rfl) (keeps_cons (keepsFwReady_respond _ _ _ _ _ _ _ _) keeps_nil)

/-! The control complex starts again (R175, R176). -/

/-- The fields that a restart of the control complex sets itself. -/
def restartFlds : List Fld := [BootReg.step, BootReg.source, BootReg.code, BootReg.failDetail, BootReg.failed, Dbg.halted]

/-- A field that stays while the control complex starts again. -/
structure Fld.OffRestart (f : Fld) : Prop where
  off : f.OffMailbox
  whole : f.Whole
  apart : ∀ g ∈ restartFlds, g.width ≤ 32 ∧ (f.addr ≠ g.addr ∨ f.lo + f.width ≤ g.lo ∨ g.lo + g.width ≤ f.lo)

/-- What a restart sets and clears once FW_READY is down. -/
def restartSets (slot : Nat) (s : State) : Prog := block [
  set BootReg.step 1, set BootReg.source 3, set BootReg.code 0, set BootReg.failDetail 0, set BootReg.failed 0, set Dbg.halted 0,
  clearMem 0 (s.slotOf slot).len, setBytes 0 (s.bytes (slotBase slot) (s.slotOf slot).len), eccMend 0 (s.slotOf slot).len]

def marksRestart (slot : Nat) (s : State) : Prog := setBoot fun b => { b with restarting := true, imageLen := (s.slotOf slot).len }

def tellsBusy : Prog := look fun s => forEach s.dev.doorbells hwBusy

theorem run_restartComplex (slot : Nat) (s : State) : run (restartComplex slot) s
    = run tellsBusy (run (marksRestart slot s) (run (restartSets slot s) (run (setFwReady false) s))) := by
  simp only [restartComplex, restartSets, marksRestart, run_look', run_block_cons, run_block_nil, tellsBusy]

theorem keeps_restartSets {β : Type} {g : State → β} (slot : Nat) (s : State) (word : ∀ f ∈ restartFlds, ∀ v, Keeps g (set f v))
    (rest : ∀ p : Prog, p.Within { reg := fun _ => False, out := False } → Keeps g p) : Keeps g (restartSets slot s) := by
  simp only [restartFlds, List.forall_mem_cons] at word
  obtain ⟨step, source, code, detail, failed, halted, -⟩ := word
  exact keeps_cons (step _) (keeps_cons (source _) (keeps_cons (code _) (keeps_cons (detail _) (keeps_cons (failed _) (keeps_cons (halted _)
    (keeps_cons (rest _ (within_clearMem (fun _ => trivial) _ _)) (keeps_cons (rest _ (within_setBytes (fun _ => trivial) _ _))
      (keeps_cons (rest _ (within_dev.mpr trivial)) keeps_nil))))))))

theorem Fld.OffRestart.restarted {f : Fld} (h : f.OffRestart) (slot : Nat) (s : State) : (run (restartComplex slot) s).get f = s.get f := by
  have narrow := h.off.narrow
  have status : ¬ StatusWord f.addr := fun at_ => by have := h.off.high; simp only [StatusWord] at at_; omega
  have ready : (setFwReady false).Within (sparing f) := within_setFwReady (fun a ha => (sparing_narrow narrow a).mpr fun e => status (e ▸ ha)) false
  have sets : Keeps (fun s => s.get f) (restartSets slot s) := keeps_restartSets slot s
    (fun g hg v => keeps_set_apart (h.apart g hg).1 h.whole (h.apart g hg).2) (fun p hp => fun s => hp.get (fun x => x) (.inl narrow) s)
  have marks : Keeps (fun s => s.get f) (marksRestart slot s) := fun _ => rfl
  have bells : Keeps (fun s => s.get f) tellsBusy := keeps_look fun s => keeps_forEach fun m _ => h.off.keepsBusy m
  rw [run_restartComplex]
  exact (bells _).trans ((marks _).trans ((sets _).trans (ready.keepsGet s)))

theorem restartComplex_restarts (slot : Nat) (s : State) :
    (run (restartComplex slot) s).fwReady = false ∧ (run (restartComplex slot) s).dev.boot.restarting = true := by
  have bells : Keeps State.fwReady tellsBusy := keeps_look fun s => keeps_forEach fun m _ => keepsFwReady_hwBusy m
  have boot : Keeps (fun s => s.dev.boot) tellsBusy := keeps_look fun s => keeps_forEach fun m _ => keepsBoot_hwBusy m
  have marks : Keeps State.fwReady (marksRestart slot s) := fun _ => rfl
  have sets : Keeps State.fwReady (restartSets slot s) := by
    refine keeps_restartSets slot s (fun g hg v => ?_) fun p hp s => ?_
    · have apart : g.width ≤ 32 ∧ g.addr ≠ (Mbx.fwReady (hostKey 0 0x4000)).addr := by revert g; decide
      exact Prog.Within.spared_on (within_set.mpr ⟨(sparing_narrow (by decide) _).mpr apart.2, fun wide => absurd apart.1 (by omega)⟩)
    · exact congrArg (fun x => x == 1) (hp.get (f := Mbx.fwReady (hostKey 0 0x4000)) (fun x => x) (.inl (by decide)) s)
  rw [run_restartComplex]
  exact ⟨(bells _).trans ((marks _).trans ((sets _).trans (setFwReady_fwReady false s))), congrArg BootSt.restarting (boot _)⟩

theorem bootWord_offRestart : BootReg.wdogSeen.OffRestart ∧ BootReg.resetCause.OffRestart :=
  ⟨⟨offMailbox_at (by decide) (by decide) (by decide), by decide, by decide⟩, ⟨offMailbox_at (by decide) (by decide) (by decide), by decide, by decide⟩⟩

/-- What a restart of the control complex leaves to be seen. -/
def Restarted (s t : State) : Prop := t.on BootReg.wdogSeen = true ∧ t.get BootReg.resetCause = 3 ∧ t.dev.boot.restarting = true ∧ t.fwReady = false
  ∧ ∀ f : Fld, f.OffRestart → f.addr < 0x10000000000 → t.get f = s.get f

theorem watchdogRestart_restarts {s : State} (still : s.dev.boot.swapStep = false) (cause : Nat) : Restarted s (run (watchdogRestart cause) s) := by
  obtain ⟨seen, why⟩ := bootWord_offRestart
  have shape : run (watchdogRestart cause) s = run (restartComplex (s.get Live.runSlot)) (run (countCorrected 1) (run (set BootReg.resetCause 3)
      (run (bump ⟨BootReg.wdogSeen.cnt, 0, 16, 0⟩) (run (set BootReg.wdogSeen 1) s)))) := by
    simp only [watchdogRestart, run_look', still, run_block_cons, run_block_nil, Bool.false_eq_true, if_false, setFlag]
  have counted {f : Fld} (off : f.OffRestart) : Keeps (fun s => s.get f) (countCorrected 1) :=
    ((sparing_tells off.off.untold (.inl off.off.narrow)).counter (by decide) (by decide)).keepsGet
  have bumped {f : Fld} (w : f.width ≤ 32) (h : f.addr ≠ BootReg.wdogSeen.cnt) : Keeps (fun s => s.get f) (bump ⟨BootReg.wdogSeen.cnt, 0, 16, 0⟩) :=
    Prog.Within.keepsGet (by simpa [-sparing_reg] using (sparing_narrow w _).mpr h.symm)
  rw [shape]
  generalize s.get Live.runSlot = slot
  refine ⟨?_, ?_, (restartComplex_restarts slot _).2, (restartComplex_restarts slot _).1, fun f off low => ?_⟩
  · rw [State.on, seen.restarted, (counted seen).get, get_set_apart (by decide) (by decide) (.inl (by decide)), (bumped (by decide) (by decide)).get,
      get_set_same _ _ _ (by decide)]
    rfl
  · rw [why.restarted, (counted why).get, get_set_same _ _ _ (by decide)]
    rfl
  · rw [off.restarted, (counted off).get, get_set_apart (by decide) off.whole (.inl (by simp only [BootReg.resetCause]; omega)),
      (bumped off.off.narrow (by simp only [BootReg.wdogSeen]; omega)).get, get_set_apart (by decide) off.whole (.inl (by simp only [BootReg.wdogSeen]; omega))]

/-- An expiry that is the first for a minute restarts the control complex (R79, R175). -/
theorem expiry_restarts {s : State} (first : s.dev.boot.expiries = []) (still : s.dev.boot.swapStep = false) (cause : Nat) :
    Restarted s (run (expiry cause) s) := by
  have shape : run (expiry cause) s = run (watchdogRestart cause) (run (setBoot fun b => { b with expiries := [s.now / 1000] }) s) := by
    simp only [expiry, run_look', first, List.filter_nil, List.length_cons, List.length_nil]
    rw [if_neg (by decide), run_block_cons, run_block_cons, run_block_nil]
  rw [shape]
  obtain ⟨seen, why, marked, down, kept⟩ := watchdogRestart_restarts (s := run (setBoot fun b => { b with expiries := [s.now / 1000] }) s) still cause
  exact ⟨seen, why, marked, down, fun f off low => (kept f off low).trans (get_dev ..)⟩

theorem watchdogExpiry_restarts {s : State} (watched : s.watched = true) (first : s.dev.boot.expiries = []) (still : s.dev.boot.swapStep = false) :
    Answers .watchdogExpiry s fun t => t.on BootReg.wdogSeen = true ∧ t.get BootReg.resetCause = 3 ∧ t.dev.boot.restarting = true ∧ t.fwReady = false := by
  refine answers_next rfl ?_
  obtain ⟨seen, why, marked, down, -⟩ := expiry_restarts first still byWatchdog
  rw [run_look', watched, run_when_true]
  exact ⟨seen, why, marked, down⟩

/-- Settles O16. -/
theorem bootRuns : Obligations.BootRuns := by
  unfold Obligations.BootRuns
  exact ⟨fun _ _ mode fresh sound untapped step supplies => stepOne_ends ⟨mode, fresh, sound, untapped, step⟩ supplies,
    fun _ _ mode fresh sound untapped step => stepTwo_ends ⟨mode, fresh, sound, untapped, step⟩,
    fun _ _ _ mode fresh sound untapped step bad => stepThree_fails ⟨mode, fresh, sound, untapped, step⟩ bad,
    fun _ _ waiting host sound => bootGo_goes waiting host sound,
    fun _ lo hi idle sound unready untapped => bootStepTimeout_fails lo hi idle sound unready untapped,
    fun _ step up awake sound cool unhalted unready fresh none_ => firmwareReady_first step up awake sound cool unhalted unready fresh none_,
    fun _ watched first still => watchdogExpiry_restarts watched first still⟩

end Sys2Proof.Machine
end


section
/-! The colour and screen commands (classes 0x07 and 0x08; R304 to R342). -/

namespace Sys2Proof.Machine
open Reg

/-! The registers of a pipeline's colour stages and screen. -/

/-- The bits that the words of a pipeline's colour stages and screen hold. -/
theorem pipe_masks (p : Fin 64) : [0x5000, 0x5004, 0x5008, 0x500c, 0x8010, 0x9000, 0x9014].map (fun d => (Reg.mask (0x20000000 + 0x100000 * p + d)).toNat)
    = [3, 65535, 255, 0x3F3F3F3F, 65535, 31, 1] := by
  revert p; decide

theorem colour_wholes {p : Nat} (hp : p < 64) : (Col.modeF p).Whole ∧ (Col.colour p).Whole ∧ (Col.edgeT p).Whole ∧ (Col.d0 p).Whole
    ∧ (Col.d1 p).Whole ∧ (Col.d2 p).Whole ∧ (Col.d3 p).Whole ∧ (Col.clipLevel p).Whole ∧ (Scr.enable p).Whole ∧ (Scr.holdFlagged p).Whole
    ∧ (Scr.tunePending p).Whole := by
  have masks := pipe_masks ⟨p, hp⟩
  simp only [List.map_cons, List.map_nil, List.cons.injEq, and_true] at masks
  obtain ⟨mode, edge, colour, delays, clip, screen, tune⟩ := masks
  simp only [Fld.Whole, Col.modeF, Col.colour, Col.edgeT, Col.d0, Col.d1, Col.d2, Col.d3, Col.clipLevel, Scr.enable, Scr.holdFlagged, Scr.tunePending,
    mode, edge, colour, delays, clip, screen, tune]
  decide

section
variable {sp : CmdSpec} {m : MbId} {r : Req} {c : Ctx} {s : State}

/-- A command for pipelines alone names one of the 64. -/
theorem Executes.pipeline (h : Executes sp m r s c) (only : sp.levels = [.pipeline]) : c.pipe < 64 := by
  obtain ⟨named, level⟩ := CmdSpec.context_target h.2.1
  rw [only] at level
  have kind : c.tgt.kind = .pipeline c.pipe := by
    unfold Ctx.pipe
    cases kind : c.tgt.kind with
    | pipeline p => rfl
    | _ => rw [kind] at level; simp [NodeKind.level] at level
  exact target_pipeline_lt named kind

/-- A pipeline's registers after a command that completes at once are as its effect left them. -/
theorem Executes.get_pipe (h : Executes sp m r s c) (pends : sp.pends = none) {p d : Nat} (hp : p < 64) {f : Fld} (w : f.width ≤ 32)
    (at_ : f.addr = 0x20000000 + 0x100000 * p + d) (hd : d < 0x100000) :
    (run (sp.issue m r) s).get f = (run (sp.effect c) (sp.powered c s)).get f :=
  h.get pends (offMailbox_at w (by omega) (by omega))

theorem demosaicSet_sets (h : Executes specDemosaicSet m r s c) (h10 : c.has 0x10 = true) (h11 : c.has 0x11 = true) (h12 : c.has 0x12 = true) :
    Answers (.demosaicSet m r) s fun t => Done m 0 t
      ∧ t.get (Reg.Col.modeF c.pipe) = c.val 0x10 ∧ t.get (Reg.Col.colour c.pipe) = c.val 0x11 ∧ t.get (Reg.Col.edgeT c.pipe) = c.val 0x12 := by
  have keys := h.checked.2.1
  have hp := h.pipeline rfl
  have mode : c.val 0x10 < 2 ^ 2 := Nat.lt_succ_of_le (Ctx.val_range keys (k := 0x10) rfl (by decide) h10).2
  have colour : c.val 0x11 < 2 ^ 8 := Nat.lt_succ_of_le (Ctx.val_range keys (k := 0x11) rfl (by decide) h11).2
  have edge : c.val 0x12 < 2 ^ 16 := Nat.lt_succ_of_le (Ctx.val_range keys (k := 0x12) rfl (by decide) h12).2
  obtain ⟨wm, wc, we, -⟩ := colour_wholes hp
  have rest {f : Fld} (w : f.Whole) {d : Nat} (at_ : f.addr = 0x20000000 + 0x100000 * c.pipe + d) (lo : 0x5000 ≤ d) (hi : d < 0x6000) :
      Keeps (fun s => s.get f) (block [look fun s => when (!s.threePath c.pipe) (set (Reg.Col.bypass6000 c.pipe) 1), updateLatency c.pipe]) := by
    have narrow : f.width ≤ 32 := by have := w.1; omega
    have latency (dt : Nat) : (writeLatency c.pipe dt).Within (sparing f) :=
      within_latency (fun a ha => (sparing_narrow narrow a).mpr (by simp only [LatencyWord] at ha; omega)) hp dt
    exact keeps_cons (keeps_look fun _ => keeps_when (keeps_set_apart (by simp [Col.bypass6000]) w (.inl (by simp only [Col.bypass6000]; omega))))
      (keeps_cons (keeps_look fun s => (latency (s.dtOf c.pipe)).keepsGet) keeps_nil)
  have effect (u : State) : run (specDemosaicSet.effect c) u
      = run (block [look fun s => when (!s.threePath c.pipe) (set (Reg.Col.bypass6000 c.pipe) 1), updateLatency c.pipe])
          (run (set (Reg.Col.edgeT c.pipe) (c.val 0x12)) (run (set (Reg.Col.colour c.pipe) (c.val 0x11)) (run (set (Reg.Col.modeF c.pipe) (c.val 0x10)) u))) := by
    simp only [specDemosaicSet, setKey, h10, h11, h12, run_block_cons, run_block_nil, run_when_true]
  refine answers_next rfl ⟨h.done rfl, ?_⟩
  rw [h.get_pipe rfl hp (by simp [Col.modeF]) rfl (by decide), h.get_pipe rfl hp (by simp [Col.colour]) rfl (by decide),
    h.get_pipe rfl hp (by simp [Col.edgeT]) rfl (by decide), effect, (rest wm rfl (by decide) (by decide)).get, (rest wc rfl (by decide) (by decide)).get,
    (rest we rfl (by decide) (by decide)).get]
  simp (disch := first | assumption | (refine id ?_; dsimp only [Col.modeF, Col.colour, Col.edgeT]; omega) | fail) only [get_set_apart, get_set_same]
  exact ⟨Nat.mod_eq_of_lt mode, Nat.mod_eq_of_lt colour, Nat.mod_eq_of_lt edge⟩

/-- The elements of a key of four bytes, one byte each. -/
theorem elems_bytes {k : Nat} (four : (c.bytes k).length = 4) : (c.elems k 1).map leVal = [c.at k 0 1, c.at k 1 1, c.at k 2 1, c.at k 3 1] := by
  rw [Ctx.elems, four]
  simp only [Ctx.at]
  obtain ⟨a, b, d, e, bytes⟩ : ∃ a b d e, c.bytes k = [a, b, d, e] := by
    match c.bytes k, four with
    | [a, b, d, e], _ => exact ⟨a, b, d, e, rfl⟩
  rw [bytes]
  simp [chunks, leAt, slice, leVal, zeros]

theorem alignSet_sets (h : Executes specAlignSet m r s c) (h20 : c.has 0x20 = true) :
    Answers (.alignSet m r) s fun t => Done m 0 t ∧ t.get (Reg.Col.d0 c.pipe) = c.at 0x20 0 1 ∧ t.get (Reg.Col.d1 c.pipe) = c.at 0x20 1 1
      ∧ t.get (Reg.Col.d2 c.pipe) = c.at 0x20 2 1 ∧ t.get (Reg.Col.d3 c.pipe) = c.at 0x20 3 1 := by
  obtain ⟨-, keys, params, -⟩ := h.checked
  have hp := h.pipeline rfl
  have four : (c.bytes 0x20).length = 4 := by
    obtain ⟨lo, hi⟩ := Ctx.length_range keys (k := 0x20) rfl h20
    exact Nat.le_antisymm hi lo
  have delays (u : State) : u.newDelays c = [c.at 0x20 0 1, c.at 0x20 1 1, c.at 0x20 2 1, c.at 0x20 3 1] := by
    rw [State.newDelays, if_pos h20, elems_bytes four]
  have small : c.at 0x20 0 1 < 2 ^ 6 ∧ c.at 0x20 1 1 < 2 ^ 6 ∧ c.at 0x20 2 1 < 2 ^ 6 ∧ c.at 0x20 3 1 < 2 ^ 6 := by
    have lacks : c.has 0x21 = false := by
      by_contra has
      rw [Bool.not_eq_false] at has
      simp [specAlignSet, h20, has] at params
    simpa [specAlignSet, h20, lacks, delays, Nat.lt_succ_iff] using params
  obtain ⟨-, -, -, w0, w1, w2, w3, -⟩ := colour_wholes hp
  refine answers_next rfl ⟨h.done rfl, ?_⟩
  rw [h.get_pipe rfl hp (by simp [Col.d0]) rfl (by decide), h.get_pipe rfl hp (by simp [Col.d1]) rfl (by decide),
    h.get_pipe rfl hp (by simp [Col.d2]) rfl (by decide), h.get_pipe rfl hp (by simp [Col.d3]) rfl (by decide)]
  simp only [specAlignSet, run_look', run_block_cons, run_block_nil, delays]
  simp (disch := first | assumption | (refine id ?_; dsimp only [Col.d0, Col.d1, Col.d2, Col.d3]; omega) | fail) only [get_set_apart, get_set_same]
  exact ⟨Nat.mod_eq_of_lt small.1, Nat.mod_eq_of_lt small.2.1, Nat.mod_eq_of_lt small.2.2.1, Nat.mod_eq_of_lt small.2.2.2⟩

theorem statsSet_sets (h : Executes specStatsSet m r s c) (h32 : c.has 0x32 = true) (h34 : c.has 0x34 = true) :
    Answers (.statsSet m r) s fun t => Done m 0 t ∧ t.get (Reg.Col.clipLevel c.pipe) = c.val 0x34
      ∧ t.reg (pipeBase c.pipe + 0x8008) = Reg.fit (pipeBase c.pipe + 0x8008) (BitVec.ofNat 32 (c.val 0x32)) := by
  have keys := h.checked.2.1
  have hp := h.pipeline rfl
  have clip : c.val 0x34 < 2 ^ 16 := Nat.lt_succ_of_le (Ctx.val_range keys (k := 0x34) rfl (by decide) h34).2
  obtain ⟨-, -, -, -, -, -, -, wc, -⟩ := colour_wholes hp
  obtain ⟨v, effect⟩ : ∃ v, run (specStatsSet.effect c) (specStatsSet.powered c s) = run (set (Reg.Col.clipLevel c.pipe) (c.val 0x34))
      (run (when (c.has 0x33) (setReg (pipeBase c.pipe + 0x800C) (BitVec.ofNat 32 (c.val 0x33))))
        (run (setReg (pipeBase c.pipe + 0x8008) (BitVec.ofNat 32 (c.val 0x32))) v)) := by
    generalize specStatsSet.powered c s = u
    refine ⟨run (when (c.has 0x31) (setReg (pipeBase c.pipe + 0x8004) (BitVec.ofNat 32 (c.val 0x31))))
      (run (when (c.has 0x30) (setReg (pipeBase c.pipe + 0x8000) (BitVec.ofNat 32 (c.val 0x30)))) u), ?_⟩
    simp only [specStatsSet, setKey, h32, h34, run_block_cons, run_block_nil, run_when_true]
  have word (t : State) : (t.reg (pipeBase c.pipe + 0x8008)).toNat = t.get ⟨pipeBase c.pipe + 0x8008, 0, 32, 0⟩ := by
    rw [get_narrow _ _ (Nat.le_refl 32), bits, Nat.pow_zero, Nat.div_one]
    exact (Nat.mod_eq_of_lt (BitVec.isLt _)).symm
  refine answers_next rfl ⟨h.done rfl, ?_, BitVec.eq_of_toNat_eq ?_⟩
  · rw [h.get_pipe rfl hp (by simp [Col.clipLevel]) rfl (by decide), effect, get_set_same _ _ _ wc]
    exact Nat.mod_eq_of_lt clip
  · have last : (run (when (c.has 0x33) (setReg (pipeBase c.pipe + 0x800C) (BitVec.ofNat 32 (c.val 0x33))))
        (run (setReg (pipeBase c.pipe + 0x8008) (BitVec.ofNat 32 (c.val 0x32))) v)).reg (pipeBase c.pipe + 0x8008)
        = Reg.fit (pipeBase c.pipe + 0x8008) (BitVec.ofNat 32 (c.val 0x32)) := by
      rw [run_when]
      split
      · rw [run_setReg, reg_setReg_other _ _ (by omega), run_setReg, reg_setReg_same]
      · rw [run_setReg, reg_setReg_same]
    rw [word, h.get_pipe rfl hp (Nat.le_refl 32) rfl (by decide), effect, ← word,
      reg_set_other _ _ _ (by simp only [pipeBase, Col.clipLevel]; omega) (.inl (by simp [Col.clipLevel])), last]

theorem statsRead_accepted (h : Executes specStatsRead m r s c) :
    Answers (.statsRead m r) s fun t => Done m 1 t ∧ ∃ e ∈ t.dev.journal, e.seq = c.take ∧ e.phase = .pending ∧ e.req = r := by
  refine answers_next rfl ?_
  rw [h.run_pending rfl]
  exact h.accepting 2000

theorem colourStatus_replies (h : Executes specColourStatus m r s c) :
    Answers (.colourStatus m r) s fun t => Replied specColourStatus m r c.tgt.nid 0
      [⟨0x40, (specColourStatus.powered c s).words (pipeBase c.pipe + 0x4040) 1 ++ (specColourStatus.powered c s).words (pipeBase c.pipe + 0x5040) 1
        ++ (specColourStatus.powered c s).words (pipeBase c.pipe + 0x6080) 1 ++ (specColourStatus.powered c s).words (pipeBase c.pipe + 0x8040) 2⟩,
      ⟨0x41, (specColourStatus.powered c s).words (pipeBase c.pipe + 0x4010) 4⟩] t :=
  answers_next rfl (h.replied rfl (Ctx.lacks_unknown h.checked.2.1 rfl (by decide)))

theorem screenStatus_replies (h : Executes specScreenStatus m r s c) :
    Answers (.screenStatus m r) s fun t => Replied specScreenStatus m r c.tgt.nid 0
      [⟨0x30, (specScreenStatus.powered c s).words (pipeBase c.pipe + 0x9040) 7⟩, ⟨0x31, (specScreenStatus.powered c s).words (pipeBase c.pipe + 0x9010) 4⟩] t :=
  answers_next rfl (h.replied rfl (Ctx.lacks_unknown h.checked.2.1 rfl (by decide)))

theorem screenSet_sets (h : Executes specScreenSet m r s c) (h10 : c.has 0x10 = true) (h11 : c.has 0x11 = true) :
    Answers (.screenSet m r) s fun t => Done m 0 t ∧ t.get (Scr.enable c.pipe) = c.val 0x10 ∧ t.get (Scr.holdFlagged c.pipe) = c.val 0x11 := by
  have keys := h.checked.2.1
  have hp := h.pipeline rfl
  have enable : c.val 0x10 < 2 ^ 1 := Nat.lt_succ_of_le (Ctx.val_range keys (k := 0x10) rfl (by decide) h10).2
  have hold : c.val 0x11 < 2 ^ 1 := Nat.lt_succ_of_le (Ctx.val_range keys (k := 0x11) rfl (by decide) h11).2
  obtain ⟨-, -, -, -, -, -, -, -, we, wh, -⟩ := colour_wholes hp
  refine answers_next rfl ⟨h.done rfl, ?_⟩
  rw [h.get_pipe rfl hp (by simp [Scr.enable]) rfl (by decide), h.get_pipe rfl hp (by simp [Scr.holdFlagged]) rfl (by decide)]
  simp only [specScreenSet, setKey, h10, h11, run_block_cons, run_block_nil, run_when_true]
  simp (disch := first | assumption | (refine id ?_; dsimp only [Scr.enable, Scr.holdFlagged]; omega) | fail) only [get_set_apart, get_set_same]
  exact ⟨Nat.mod_eq_of_lt enable, Nat.mod_eq_of_lt hold⟩

theorem screenStreamSet_sets (h : Executes specScreenStreamSet m r s c) (h21 : c.has 0x21 = true) (h22 : c.has 0x22 = true) (h23 : c.has 0x23 = true)
    (h24 : c.has 0x24 = true) :
    Answers (.screenStreamSet m r) s fun t => Done m 0 t ∧ (t.asm (c.val 0x20)).cutout = decide (c.val 0x21 = 1) ∧ (t.asm (c.val 0x20)).cap = c.val 0x22
      ∧ (t.asm (c.val 0x20)).margin = c.val 0x23 ∧ (t.asm (c.val 0x20)).audit = c.val 0x24 := by
  have asm : (run (specScreenStreamSet.issue m r) s).asm (c.val 0x20) = { (specScreenStreamSet.powered c s).asm (c.val 0x20) with
      cutout := c.val 0x21 == 1, cap := c.val 0x22, margin := c.val 0x23, audit := c.val 0x24 } := by
    rw [State.asm, h.dev rfl offMailbox_asms fun _ _ => rfl, specScreenStreamSet]
    simp only [Ctx.valD, h21, h22, h23, h24, if_true, setAsm, run_dev]
    exact Tbl.get_set_same ..
  refine answers_next rfl ⟨h.done rfl, ?_, congrArg AsmSt.cap asm, congrArg AsmSt.margin asm, congrArg AsmSt.audit asm⟩
  rw [asm]
  rfl

theorem offMailbox_pipes : OffMailbox Dev.pipes := ⟨fun _ _ _ _ _ _ => rfl, fun _ _ => rfl, fun _ _ _ => rfl⟩

theorem pipe_setPipe_same (p : Nat) (f : PipeSt → PipeSt) (s : State) : (run (setPipe p f) s).pipe p = f (s.pipe p) := Tbl.get_set_same _ _ _ _

theorem pipe_setPipe_other {p q : Nat} (ne : q ≠ p) (f : PipeSt → PipeSt) (s : State) : (run (setPipe p f) s).pipe q = s.pipe q :=
  Tbl.get_set_other _ _ _ _ ne

/-- The pipelines after a command that completes at once are as its effect left them. -/
theorem Executes.pipe (h : Executes sp m r s c) (pends : sp.pends = none) (p : Nat) :
    (run (sp.issue m r) s).pipe p = (run (sp.effect c) (sp.powered c s)).pipe p := by
  rw [State.pipe, h.dev pends offMailbox_pipes fun _ _ => rfl, State.pipe]

theorem historyReset_asks (h : Executes specHistoryReset m r s c) :
    Answers (.historyReset m r) s fun t => Done m 0 t ∧ (t.pipe c.pipe).histReset = true := by
  have pipe : (run (specHistoryReset.issue m r) s).pipe c.pipe = { (specHistoryReset.powered c s).pipe c.pipe with histReset := true } := by
    rw [h.pipe rfl]
    exact pipe_setPipe_same c.pipe (fun t => { t with histReset := true }) _
  exact answers_next rfl ⟨h.done rfl, congrArg PipeSt.histReset pipe⟩

/-! Changes that are armed in every pipeline of a list (R149, R319). -/

/-- Arming a change of a stage in one pipeline. -/
def armOne (st n shown : Nat) (words : Nat → List (Nat × Nat)) (show_ : Nat → Nat → Prog) (p : Nat) : Prog :=
  block [setPipe p fun t => { t with armed := t.armed ++ [⟨st, n, words p⟩] }, show_ p shown]

/-- What shows an armed change leaves the device beside the registers alone. -/
def Shows (show_ : Nat → Nat → Prog) : Prop := ∀ p n s, (run (show_ p n) s).dev = s.dev

theorem armOne_pipe {st n shown : Nat} {words : Nat → List (Nat × Nat)} {show_ : Nat → Nat → Prog} (shows_ : Shows show_) (p q : Nat) (s : State) :
    (run (armOne st n shown words show_ p) s).pipe q = if q = p then { s.pipe p with armed := (s.pipe p).armed ++ [⟨st, n, words p⟩] } else s.pipe q := by
  have quiet (u : State) : (run (show_ p shown) u).pipe q = u.pipe q := by rw [State.pipe, shows_, State.pipe]
  rw [armOne, run_block_cons, run_block_cons, run_block_nil, quiet]
  split
  next e => rw [e, pipe_setPipe_same]
  next ne => exact pipe_setPipe_other ne ..

/-- A pipeline that is armed stays so, and each one of the list is. -/
theorem armEach_armed {st n shown : Nat} {words : Nat → List (Nat × Nat)} {show_ : Nat → Nat → Prog} (shows_ : Shows show_) {ps : List Nat} {q : Nat} (s : State)
    (h : q ∈ ps ∨ ((s.pipe q).armed.any fun a => a.stage = st) = true) :
    (((run (forEach ps (armOne st n shown words show_)) s).pipe q).armed.any fun a => a.stage = st) = true := by
  induction ps generalizing s with
  | nil => exact h.resolve_left (by simp)
  | cons p ps ih =>
    rw [run_forEach_cons]
    refine ih _ ?_
    rw [armOne_pipe shows_]
    by_cases e : q = p
    · subst e; right; simp
    · rw [if_neg e]
      exact h.imp_left fun hm => (List.mem_cons.mp hm).resolve_left e

theorem run_armAll (kl kn st : Nat) (words : Nat → List (Nat × Nat)) (show_ : Nat → Nat → Prog) (c : Ctx) (s : State) : ∃ n shown,
    run (armAll kl kn st words show_ c) s = run (forEach (nidPipes (c.bytes kl)) (armOne st n shown words show_)) (run (forEach (nidPipes (c.bytes kl)) powerPipe) s) :=
  ⟨_, _, by simp only [armAll, run_look', run_block_cons, run_block_nil]; rfl⟩

theorem armAll_armed {kl kn st : Nat} {words : Nat → List (Nat × Nat)} {show_ : Nat → Nat → Prog} (shows_ : Shows show_) (s : State) :
    ∀ p ∈ nidPipes (c.bytes kl), (((run (armAll kl kn st words show_ c) s).pipe p).armed.any fun a => a.stage = st) = true := by
  intro p hp
  obtain ⟨n, shown, shape⟩ := run_armAll kl kn st words show_ c s
  rw [shape]
  exact armEach_armed shows_ _ (.inl hp)

theorem shows_update : Shows showUpdate := fun p n s => by simp only [showUpdate, run_block_cons, run_block_nil, set_dev]
theorem shows_tune : Shows showTune := fun p n s => by simp only [showTune, run_block_cons, run_block_nil, set_dev]

theorem wbSet_arms (h : Executes specWbSet m r s c) :
    Answers (.wbSet m r) s fun t => Done m 0 t ∧ (∀ p ∈ nidPipes (c.bytes 1), ((t.pipe p).armed.any fun a => a.stage = 4) = true)
      ∧ (t.dev.journal.any fun e => e.seq = c.take && (match e.phase with | .armed _ _ => true | _ => false)) = true := by
  refine answers_next rfl ⟨h.done rfl, fun p hp => ?_, h.armed rfl rfl⟩
  rw [h.pipe rfl]
  exact armAll_armed shows_update _ p hp

theorem matrixSet_arms (h : Executes specMatrixSet m r s c) :
    Answers (.matrixSet m r) s fun t => Done m 0 t ∧ (∀ p ∈ nidPipes (c.bytes 1), ((t.pipe p).armed.any fun a => a.stage = 6) = true)
      ∧ (t.dev.journal.any fun e => e.seq = c.take && (match e.phase with | .armed _ _ => true | _ => false)) = true := by
  refine answers_next rfl ⟨h.done rfl, fun p hp => ?_, h.armed rfl rfl⟩
  rw [h.pipe rfl]
  exact armAll_armed shows_update _ p hp

/-- The pipelines of a list that is in order are among the 64. -/
theorem nidPipes_lt {bs : List Byte} (ok : s.listOk bs = true) {p : Nat} (hp : p ∈ nidPipes bs) : p < 64 := by
  simp only [State.listOk, Bool.and_eq_true, List.all_eq_true, List.forall_mem_map, decide_eq_true_eq] at ok
  obtain ⟨x, hx, rfl⟩ := List.mem_map.mp hp
  have := (ok.2 x hx).2
  omega

theorem tuneEach_pending {st n shown : Nat} {words : Nat → List (Nat × Nat)} {ps : List Nat} (small : ∀ p ∈ ps, p < 64) {q : Nat} (hq : q < 64) (s : State)
    (h : q ∈ ps ∨ s.get (Scr.tunePending q) = 1) : (run (forEach ps (armOne st n shown words showTune)) s).get (Scr.tunePending q) = 1 := by
  obtain ⟨-, -, -, -, -, -, -, -, -, -, wq⟩ := colour_wholes hq
  induction ps generalizing s with
  | nil => exact h.resolve_left (by simp)
  | cons p ps ih =>
    rw [run_forEach_cons]
    refine ih (fun x hx => small x (List.mem_cons_of_mem _ hx)) _ ?_
    have shape : run (armOne st n shown words showTune p) s = run (set (Scr.tuneIndexHi p) (shown / 0x100000000)) (run (set (Scr.tuneIndexLo p) shown)
        (run (set (Scr.tunePending p) 1) (run (setPipe p fun t => { t with armed := t.armed ++ [⟨st, n, words p⟩] }) s))) := by
      simp only [armOne, showTune, run_block_cons, run_block_nil]
    rw [shape, get_set_apart (by simp [Scr.tuneIndexHi]) wq (.inl (by simp only [Scr.tuneIndexHi, Scr.tunePending]; omega)),
      get_set_apart (by simp [Scr.tuneIndexLo]) wq (.inl (by simp only [Scr.tuneIndexLo, Scr.tunePending]; omega))]
    by_cases e : q = p
    · subst e; right; exact get_set_same _ _ _ wq
    · rw [get_set_apart (by simp [Scr.tunePending]) wq (.inl (by simp only [Scr.tunePending]; omega)), setPipe, run_dev, get_dev]
      exact h.imp_left fun hm => (List.mem_cons.mp hm).resolve_left e

theorem screenTune_arms (h : Executes specScreenTune m r s c) :
    Answers (.screenTune m r) s fun t => Done m 0 t
      ∧ (∀ p ∈ nidPipes (c.bytes 1), t.get (Scr.tunePending p) = 1 ∧ ((t.pipe p).armed.any fun a => a.stage = 9) = true)
      ∧ (t.dev.journal.any fun e => e.seq = c.take && (match e.phase with | .armed _ _ => true | _ => false)) = true := by
  have ok : (specScreenTune.taken m r s).listOk (c.bytes 1) = true := by
    have params := h.checked.2.2.1
    generalize specScreenTune.taken m r s = u at *
    by_contra bad
    rw [Bool.not_eq_true] at bad
    simp [specScreenTune, armParams, bad] at params
  obtain ⟨words, effect⟩ : ∃ words, run (specScreenTune.effect c) (specScreenTune.powered c s)
      = run (armAll 1 4 9 words showTune c) (specScreenTune.powered c s) := ⟨_, rfl⟩
  have small := fun p (hp : p ∈ nidPipes (c.bytes 1)) => nidPipes_lt ok hp
  refine answers_next rfl ⟨h.done rfl, fun p hp => ⟨?_, ?_⟩, h.armed rfl rfl⟩
  · rw [h.get_pipe rfl (small p hp) (by simp [Scr.tunePending]) rfl (by decide), effect]
    obtain ⟨n, shown, shape⟩ := run_armAll 1 4 9 words showTune c (specScreenTune.powered c s)
    rw [shape]
    exact tuneEach_pending small (small p hp) _ (.inl hp)
  · rw [h.pipe rfl, effect]
    exact armAll_armed shows_tune _ p hp

end

/-- Settles O43. -/
theorem colourAndScreenCommandsAct : Obligations.ColourAndScreenCommandsAct := by
  unfold Obligations.ColourAndScreenCommandsAct
  exact ⟨fun _ _ _ _ h => wbSet_arms h, fun _ _ _ _ h h10 h11 h12 => demosaicSet_sets h h10 h11 h12, fun _ _ _ _ h h20 => alignSet_sets h h20,
    fun _ _ _ _ h => matrixSet_arms h, fun _ _ _ _ h h32 h34 => statsSet_sets h h32 h34, fun _ _ _ _ h => statsRead_accepted h,
    fun _ _ _ _ h => colourStatus_replies h, fun _ _ _ _ h h10 h11 => screenSet_sets h h10 h11, fun _ _ _ _ h => screenTune_arms h,
    fun _ _ _ _ h h21 h22 h23 h24 => screenStreamSet_sets h h21 h22 h23 h24, fun _ _ _ _ h => screenStatus_replies h,
    fun _ _ _ _ h => historyReset_asks h⟩

end Sys2Proof.Machine
end


section
/-! What the closing of a stream, and Safe-hold with it, leave alone (R58, R443). -/

namespace Sys2Proof.Machine
open Reg

/-! A property that a meaning does not end. -/

/-- A property that holds before a meaning runs holds after it. -/
def Stays (Q : State → Prop) (p : Prog) : Prop := ∀ s, Q s → Q (run p s)

section
variable {Q : State → Prop}

theorem Keeps.stays {p : Prog} (h : Keeps Q p) : Stays Q p := fun s hs => (h s).symm ▸ hs

theorem stays_skip : Stays Q .skip := fun _ h => h
theorem stays_nil : Stays Q (block []) := fun _ h => h

theorem stays_cons {p : Prog} {ps : List Prog} (hp : Stays Q p) (hs : Stays Q (block ps)) : Stays Q (block (p :: ps)) := fun s h => by
  rw [run_block_cons]
  exact hs _ (hp s h)

theorem stays_look {f : State → Prog} (h : ∀ s, Stays Q (f s)) : Stays Q (look f) := fun s => h s s

theorem stays_when {c : Bool} {p : Prog} (h : c = true → Stays Q p) : Stays Q (when c p) := by
  cases c
  · exact stays_skip
  · exact h rfl

theorem stays_ite {c : Prop} [Decidable c] {p q : Prog} (hp : c → Stays Q p) (hq : ¬ c → Stays Q q) : Stays Q (if c then p else q) := by
  split
  next h => exact hp h
  next h => exact hq h

theorem stays_forEach {α : Type} {xs : List α} {f : α → Prog} (h : ∀ x ∈ xs, Stays Q (f x)) : Stays Q (forEach xs f) :=
  fun _ => forEach_induct (P := Q) h

end

/-! What closing touches. -/

/-- The word of a stream's state. -/
abbrev StateWord (a : Nat) : Prop := 0x01200000 ≤ a ∧ a < 0x01280000 ∧ a % 0x8000 = 0x200

/-- The registers of the bridge's functions. -/
abbrev BridgeWord (a : Nat) : Prop := 0x01300000 ≤ a ∧ a < 0x01320000

/-- Is an answer that a device waits for one that completes a command? -/
def CtlFor.completes : CtlFor → Bool
  | .completion _ => true
  | _ => false

/-- What closing leaves of the device: what the host has of it, and the answers that complete commands. -/
def closingKeeps (d : Dev) : HostIf × List CtlWait := (d.host, d.ctlWaits.filter fun w => w.use.completes)

/-- The footprint of closing beside what it tells and beside the state of the stream that it closes. -/
def closingFoot : Foot where
  reg a := ¬ StateWord a ∧ ¬ BridgeWord a
  dev f := ∀ d, closingKeeps (f d) = closingKeeps d

@[simp] theorem closingFoot_reg (a : Nat) : closingFoot.reg a ↔ ¬ StateWord a ∧ ¬ BridgeWord a := Iff.rfl
@[simp] theorem closingFoot_byte (a : Nat) : closingFoot.byte a := trivial
@[simp] theorem closingFoot_dev (f : Dev → Dev) : closingFoot.dev f ↔ ∀ d, closingKeeps (f d) = closingKeeps d := Iff.rfl
@[simp] theorem closingFoot_out : closingFoot.out := trivial

/-- The fields of the word of a stream's state, which its closing clears. -/
def streamFlds (i : Nat) : List Fld := [Del.state i, Del.suspended i, Del.fast i]

/-- A property that closing does not end: by what it tells, by what else it touches, and by what it clears of a stream. -/
structure Calm (Q : State → Prop) : Prop where
  aside : Aside Q
  rest : ∀ p : Prog, p.Within closingFoot → Keeps Q p
  clears : ∀ i < 16, ∀ f ∈ streamFlds i, Stays Q (set f 0)

/-! The parts of closing that stay within that footprint. -/

theorem closing_bumpBy {f : Fld} {n : Nat} (h : closingFoot.reg f.addr) (h' : 32 < f.width → closingFoot.reg (f.addr + 4)) : (bumpBy f n).Within closingFoot :=
  within_bumpBy.mpr ⟨h, h'⟩

theorem closing_setState (nid st : Nat) (h : nid < 0x140) : (setState nid st).Within closingFoot :=
  within_setState (fun a ha => by simp only [PowerWord] at ha; simp only [closingFoot_reg, StateWord, BridgeWord]; omega) h st

theorem closing_setDomain {d : Nat} (on ret : Bool) (h : d < 93) : (setDomain d on ret).Within closingFoot :=
  within_setDomain (fun a ha => by simp only [PowerWord] at ha; simp only [closingFoot_reg, StateWord, BridgeWord]; omega) h on ret

theorem closing_raiseAlert (k : Nat) : (raiseAlert k).Within closingFoot := by
  intro s
  dsimp only
  split
  · exact within_dev.mpr fun _ => rfl
  · trivial

theorem closing_setFwReady (v : Bool) : (setFwReady v).Within closingFoot :=
  within_setFwReady (fun a ha => by simp only [StatusWord] at ha; simp only [closingFoot_reg, StateWord, BridgeWord]; omega) v

/-- A packet to another device is queued and sent on as its credits allow. -/
theorem closing_sendPacket (q : Nat) (p : Packet) : (sendPacket q p).Within closingFoot := by
  have quad (f : QuadSt → QuadSt) : (setQuad q f).Within closingFoot := within_dev.mpr fun _ => rfl
  have count : (bump (Quad.txPackets q)).Within closingFoot := by
    have : closingFoot.reg (0x01400000 + 0x40000 * q + 0x40) := by simp only [closingFoot_reg, StateWord, BridgeWord]; omega
    simpa [Quad.txPackets, -closingFoot_reg] using this
  have pump (n : Nat) : (pumpFrom q n).Within closingFoot := by
    induction n with
    | zero => trivial
    | succ n ih =>
      refine within_look'.mpr fun s => within_ite.mpr ⟨fun _ => trivial, fun _ => ?_⟩
      split
      · trivial
      · simp only [within_cons, within_nil, within_emit, quad, count, ih, closingFoot_out, and_self]
  exact within_cons.mpr ⟨quad _, within_cons.mpr ⟨within_look.mpr fun _ => pump _, within_nil⟩⟩

/-- A message to a member that asks for no answer of a command. -/
theorem closing_sendCtrl (d : Nat) (auth : Bool) {use : CtlFor} (note : use.completes = false) (bs : List Byte) : (sendCtrl d auth use bs).Within closingFoot := by
  refine within_look.mpr fun s => ?_
  split
  · exact within_cons.mpr ⟨within_dev.mpr fun _ => by simp [closingKeeps, note], within_cons.mpr ⟨closing_sendPacket _ _, within_nil⟩⟩
  · trivial

theorem closing_tellMember (d op : Nat) (bs : List Byte) : (tellMember d op bs).Within closingFoot := closing_sendCtrl d false rfl _

theorem closing_enumerate {q : Nat} (all fs : List Found) (got : List (Option Nat)) : (enumerate q true all fs got).Within closingFoot := by
  have peer (x : Nat) : (set (Quad.peer q) x).Within closingFoot := by
    have : closingFoot.reg (0x01400000 + 0x40000 * q + 4) := by simp only [closingFoot_reg, StateWord, BridgeWord]; omega
    simpa [Quad.peer, -closingFoot_reg] using this
  have place (x p d : Nat) (f : Found) : (placeMember x p d f).Within closingFoot := within_dev.mpr fun _ => rfl
  induction fs generalizing got with
  | nil => exact within_dev.mpr fun _ => rfl
  | cons f fs ih =>
    refine within_look.mpr fun s => ?_
    split
    all_goals
      dsimp only
      repeat' split
    all_goals simp only [ih, within_cons, within_nil, within_when, place, peer, closing_tellMember, Bool.not_true, Bool.false_eq_true,
      false_implies, and_self]

theorem closing_groupRelease (i : Nat) : (groupRelease i).Within closingFoot := by
  have tell : (tellRelease i).Within closingFoot := within_look.mpr fun s => within_forEach.mpr fun d _ => closing_tellMember _ _ _
  have retry : retryJoins.Within closingFoot := within_look.mpr fun s => within_forEach.mpr fun q _ => within_look.mpr fun s => closing_enumerate _ _ _
  refine within_cons.mpr ⟨within_look.mpr fun s => within_when.mpr fun _ => within_cons.mpr ⟨tell, within_cons.mpr ⟨within_dev.mpr fun _ => rfl, within_nil⟩⟩,
    within_cons.mpr ⟨retry, within_nil⟩⟩

theorem closing_cancelSwap (c : Nat) : (cancelSwap c).Within closingFoot := by
  have own {d : Nat} : closingFoot.reg (0x10000000 + 0x01000000 * c + d) := by simp only [closingFoot_reg, StateWord, BridgeWord]; omega
  have pending (v : Nat) : (set Live.swapPending v).Within closingFoot := by simp [Live.swapPending]
  simp only [cancelSwap, within_cons, within_nil, within_look, pending, Swap.swapIndexLo, Swap.swapIndexHi, Swap.swapFrom, Swap.swapTo, Swap.suspending]
  simp [own, -closingFoot_reg, setSwaps, setJournal, closingKeeps]

theorem closing_bumpQueue (nid flushes stranded : Nat) : (bumpQueue nid flushes stranded).Within closingFoot := within_dev.mpr fun _ => rfl

theorem closing_flushStream {i : Nat} (hi : i < 16) : (flushStream i).Within closingFoot := by
  have port (n : Nat) : 0x10100000 ≤ portBase n := by unfold portBase; split <;> omega
  have occ (n : Nat) : (noteOcc n).Within closingFoot := by
    have : closingFoot.reg (portBase n + 0x20) := by have := port n; simp only [closingFoot_reg, StateWord, BridgeWord]; omega
    refine within_look.mpr fun s => ?_
    simp only [within_cons, within_nil, within_when, within_set, Port.bufOcc, Port.bufPeak, this, and_true, true_and]
    omega
  have queue (n q : Nat) : (flushPortQueue n q).Within closingFoot :=
    within_cons.mpr ⟨within_dev.mpr fun _ => rfl, within_cons.mpr ⟨occ n, within_cons.mpr ⟨closing_bumpQueue _ _ _, within_nil⟩⟩⟩
  have pipe (p : Nat) (f : PipeSt → PipeSt) : (setPipe p f).Within closingFoot := within_dev.mpr fun _ => rfl
  have flushes (n : Nat) : (bumpBy (Del.flushes i) n).Within closingFoot :=
    closing_bumpBy (by simp only [closingFoot_reg, StateWord, BridgeWord, Del.flushes]; omega)
      (fun _ => by simp only [closingFoot_reg, StateWord, BridgeWord, Del.flushes]; omega)
  refine within_look.mpr fun s => ?_
  simp only [within_cons, within_nil, within_forEach, queue, pipe, closing_bumpQueue, flushes, implies_true, and_self]

theorem closing_noteLatency : noteLatency.Within closingFoot := by
  refine within_look.mpr fun s => within_forEach.mpr fun nid hn => ?_
  have small : nid < 0x140 := by
    obtain rfl | hn := List.mem_cons.mp hn
    · decide
    · obtain ⟨k, hk, rfl⟩ := List.mem_map.mp hn
      have := List.mem_range.mp hk
      simp only [nidCluster]; omega
  have : closingFoot.reg (0x01100000 + 0x40 * nid + 16) := by simp only [closingFoot_reg, StateWord, BridgeWord]; omega
  simpa [Node.latency, -closingFoot_reg] using this

end Sys2Proof.Machine
end


section
/-! Closing a stream and entering Safe-hold end nothing that is calm (R55, R58, R443). -/

namespace Sys2Proof.Machine
open Reg

section
variable {Q : State → Prop} (calm : Calm Q)
include calm

theorem Calm.within {p : Prog} (h : p.Within closingFoot) : Stays Q p := (calm.rest p h).stays

theorem Calm.unlisted : Unlisted Q := fun s l => calm.rest (setJournal fun _ => l) (within_dev.mpr fun _ => rfl) s

theorem Calm.raiseIn (w : Bool) (c k n : Nat) (d : List Byte) (st : Nat) : Stays Q (raiseIn w c k n d st) := (calm.aside.raiseIn w c k n d st).stays
theorem Calm.raise (c k n : Nat) (d : List Byte) : Stays Q (raise c k n d) := (calm.aside.raise c k n d).stays

theorem Calm.finishKey (cls code key v st : Nat) : Stays Q (finishKey cls code key v (fun _ => .skip) st) :=
  (calm.aside.finishKey calm.unlisted fun _ => keeps_skip).stays

theorem Calm.modeChange (new cause : Nat) : Stays Q (modeChange new cause) := by
  have mode : (block [set ModeReg.modeF new, set ModeReg.target new, set ModeReg.pending 0, set ModeReg.cause cause]).Within closingFoot := by
    simp [ModeReg.modeF, ModeReg.target, ModeReg.pending, ModeReg.cause]
  obtain ⟨m1, m2, m3, m4, -⟩ : _ ∧ _ ∧ _ ∧ _ ∧ _ := by simpa only [within_cons] using mode
  exact stays_look fun s => stays_cons (calm.within m1) (stays_cons (calm.within m2) (stays_cons (calm.within m3) (stays_cons (calm.within m4)
    (stays_cons (calm.within (closing_setState 1 _ (by decide))) (stays_cons (calm.raiseIn _ _ _ _ _ _) (stays_cons (calm.within (closing_raiseAlert 2))
      (stays_cons (stays_when fun _ => calm.within (closing_raiseAlert 5)) stays_nil)))))))

theorem Calm.lastStreamEnds : Stays Q lastStreamEnds := stays_look fun _ => stays_when fun _ => calm.modeChange _ _

theorem Calm.dropRow (i n : Nat) : Stays Q (dropRow i n) := by
  have counter : Stays Q (bumpBy (Node.counter 1 none 3) n) := fun s h => by
    have tell : TellFld (Node.counter 1 none 3) := ⟨(told_counter (by decide) (by decide)).1, .inr ⟨(told_counter (by decide) (by decide)).2,
      by simp only [BridgeFlags, Node.counter, nodeBase]; omega⟩, by simp only [BridgeFlags, Node.counter, nodeBase]; omega⟩
    rw [bumpBy, run_look]
    exact (calm.aside.set _ _ tell).stays s h
  exact stays_cons (calm.within (within_dev.mpr fun _ => rfl)) (stays_cons counter stays_nil)

/-- The fields that the release of a stream clears, beside those of the word of its state. -/
def otherFlds (i : Nat) : List Fld := [Del.slots i, Del.egressGranules i, Del.slack i, Asm.admitted i, Asm.storeGranules i, Asm.storeFirst i,
  Asm.openRows i, Trig.armed i]

omit calm in
theorem closing_clears {i : Nat} (hi : i < 16) : ∀ f ∈ otherFlds i, (set f 0).Within closingFoot := by
  have asm {d : Nat} (hd : d < 0x20) : closingFoot.reg (0x01200000 + 0x8000 * i + d) := by simp only [closingFoot_reg, StateWord, BridgeWord]; omega
  have del {d : Nat} (hd : d < 0x20) (h : d ≠ 0) : closingFoot.reg (0x01200200 + 0x8000 * i + d) := by simp only [closingFoot_reg, StateWord, BridgeWord]; omega
  have first : closingFoot.reg (0x01200000 + 0x8000 * i) := asm (d := 0) (by decide)
  have trig : closingFoot.reg (0x01510000 + 0x4000 * i) := by simp only [closingFoot_reg, StateWord, BridgeWord]; omega
  simp [otherFlds, Del.slots, Del.egressGranules, Del.slack, Asm.admitted, Asm.storeGranules, Asm.storeFirst, Asm.openRows, Trig.armed, asm, del, first, trig,
    -closingFoot_reg]

/-- What shows a stream's armed match gains and effort is cleared. -/
theorem Calm.showsOff {i : Nat} (hi : i < 16) : Stays Q (Machine.releaseStream.showMatchOff i) ∧ ∀ f ∈ [Cod.effortPending i, Cod.effortIndexLo i, Cod.effortIndexHi i],
    Stays Q (set f 0) := by
  have asm {d : Nat} (hd : d < 0x200) : closingFoot.reg (0x01200000 + 0x8000 * i + d) := by simp only [closingFoot_reg, StateWord, BridgeWord]; omega
  have cod {d : Nat} (hd : d < 0x100) : closingFoot.reg (0x01200100 + 0x8000 * i + d) := by simp only [closingFoot_reg, StateWord, BridgeWord]; omega
  have first : closingFoot.reg (0x01200100 + 0x8000 * i) := cod (d := 0) (by decide)
  refine ⟨calm.within ?_, fun f hf => calm.within ?_⟩
  · simp [Machine.releaseStream.showMatchOff, Asm.matchPending, Asm.matchIndexLo, Asm.matchIndexHi, asm, -closingFoot_reg]
  · simp only [List.mem_cons, List.not_mem_nil, or_false] at hf
    obtain rfl | rfl | rfl := hf <;> simp [Cod.effortPending, Cod.effortIndexLo, Cod.effortIndexHi, cod, first, -closingFoot_reg]

omit calm in
theorem run_block_append (ps qs : List Prog) (s : State) : run (block (ps ++ qs)) s = run (block qs) (run (block ps) s) := by
  induction ps generalizing s with
  | nil => rfl
  | cons p ps ih => rw [List.cons_append, run_block_cons, run_block_cons, ih]

/-- The fields that the release of a stream clears. -/
def clearsStream (i : Nat) : Prog := forEach (streamFlds i ++ otherFlds i) fun f => set f 0

theorem Calm.clearsStream {i : Nat} (hi : i < 16) : Stays Q (clearsStream i) := by
  refine stays_forEach fun f hf => ?_
  obtain hs | ho : f ∈ streamFlds i ∨ f ∈ otherFlds i := List.mem_append.mp hf
  · exact calm.clears i hi f hs
  · exact calm.within (closing_clears hi f ho)

omit calm in
/-- The release of a stream clears its fields, and ends nothing that is calm before or after. -/
theorem releaseStream_parts {i : Nat} (hi : i < 16) (cause : Nat) (s : State) : ∃ u after,
    run (releaseStream i cause) s = run (block after) (run (Machine.clearsStream i) u) ∧ ∀ Q, Calm Q → (Q s → Q u) ∧ Stays Q (block after) := by
  have shape (before : List Prog) (p : Prog) (after : List Prog) : run (block (before ++ p :: after)) s = run (block after) (run p (run (block before) s)) := by
    rw [run_block_append, run_block_cons]
  refine ⟨_, _, shape [_, _, _, _, _] (Machine.clearsStream i) _, fun Q calm => ⟨?_, ?_⟩⟩
  · have word {f : Fld} (h : closingFoot.reg f.addr) (w : f.width ≤ 32) (v : Nat) : Stays Q (set f v) :=
      calm.within (within_set.mpr ⟨h, fun wide => absurd w (Nat.not_le.mpr wide)⟩)
    have bank (p b : Nat) : Stays Q (set (bankState p b) 1) := by
      unfold bankState
      split <;> exact word (by simp only [Corr.stateA, Corr.stateB, closingFoot_reg, StateWord, BridgeWord]; omega) (by simp [Corr.stateA, Corr.stateB]) _
    have power (f : PwrSt → PwrSt) : Stays Q (setPwr f) := calm.within (within_dev.mpr fun _ => rfl)
    exact stays_cons (stays_forEach fun x _ => calm.within (closing_cancelSwap _)) (stays_cons (calm.within (closing_flushStream hi))
      (stays_cons (stays_forEach fun p _ => stays_forEach fun b _ => stays_look fun _ => stays_when fun _ => bank p b)
      (stays_cons (stays_when fun _ => word (f := Car.fastFlits) (by simp [Car.fastFlits]) (by decide) _) (stays_cons (power _) stays_nil)))) s
  · have parts {f : Dev → Dev} (h : ∀ d, closingKeeps (f d) = closingKeeps d) : Stays Q (dev f) := calm.within (within_dev.mpr h)
    obtain ⟨off, effort⟩ := calm.showsOff hi
    simp only [List.forall_mem_cons] at effort
    obtain ⟨pending, lo, high, -⟩ := effort
    exact stays_cons (parts fun _ => rfl)
      (stays_cons (parts fun _ => rfl) (stays_cons off (stays_cons pending (stays_cons lo (stays_cons high (stays_cons (parts fun _ => rfl)
      (stays_cons (parts fun _ => rfl) (stays_cons (stays_when fun _ => stays_look fun _ => calm.raiseIn _ _ _ _ _ _) (stays_cons (calm.finishKey _ _ _ _ _)
      (stays_cons (calm.finishKey _ _ _ _ _) (stays_cons (parts fun _ => rfl) (stays_cons (calm.within closing_noteLatency) (stays_cons calm.lastStreamEnds
      (stays_cons (calm.within (closing_groupRelease i)) stays_nil))))))))))))))

theorem Calm.releaseStream {i : Nat} (hi : i < 16) (cause : Nat) : Stays Q (releaseStream i cause) := fun s hs => by
  obtain ⟨u, after, shape, calmly⟩ := releaseStream_parts hi cause s
  obtain ⟨before, stays⟩ := calmly Q calm
  rw [shape]
  exact stays _ (calm.clearsStream hi _ (before hs))

theorem Calm.closeNow {i : Nat} (hi : i < 16) (cause : Nat) : Stays Q (closeNow i cause) :=
  stays_look fun _ => stays_when fun _ => stays_cons (stays_when fun _ => calm.dropRow _ _) (stays_cons (calm.releaseStream hi cause) stays_nil)

theorem Calm.abandonModes : Stays Q abandonModes :=
  stays_look fun _ => stays_forEach fun e _ => (calm.aside.completeCmd calm.unlisted e _).stays

end

theorem closing_gateNodes : gateNodes.Within closingFoot := by
  have capture (p : Nat) : (abortCapture p).Within closingFoot := by
    have : closingFoot.reg (0x20000000 + 0x100000 * p + 0xa000) := by simp only [closingFoot_reg, StateWord, BridgeWord]; omega
    have pipe (f : PipeSt → PipeSt) : (setPipe p f).Within closingFoot := within_dev.mpr fun _ => rfl
    simp [abortCapture, Corr.state, this, pipe, -closingFoot_reg]
  have sleep (p v : Nat) : (setSleep p v).Within closingFoot := within_dev.mpr fun _ => rfl
  have pipe {p : Nat} (hp : p ∈ allPipes) (st : Nat) : (setState (nidPipe p) st).Within closingFoot :=
    closing_setState _ _ (by have := List.mem_range.mp hp; simp only [nidPipe]; omega)
  have cluster {c : Nat} (hc : c ∈ allClusters) (st : Nat) : (setState (nidCluster c) st).Within closingFoot :=
    closing_setState _ _ (by have := List.mem_range.mp hc; simp only [nidCluster]; omega)
  refine within_look.mpr fun s => within_cons.mpr ⟨within_forEach.mpr fun p hp => ?_, within_cons.mpr ⟨within_forEach.mpr fun c hc => ?_, within_nil⟩⟩
  · simp only [within_cons, within_nil, within_when, capture, pipe hp, sleep, implies_true, and_self]
  · exact within_when.mpr fun _ => cluster hc _

theorem closing_pinsSafe : pinsSafe.Within closingFoot := within_look.mpr fun _ => within_forEach.mpr fun _ _ => within_emit.mpr trivial

theorem closing_powerRoot : powerRoot.Within closingFoot := by
  have domain {d : Nat} (hd : d < 93) (on ret : Bool) := closing_setDomain on ret hd
  refine within_look.mpr fun s => ?_
  simp only [within_cons, within_nil, within_when, within_forEach, closing_setFwReady, domain (d := 1) (by decide), domain (d := 11) (by decide),
    implies_true, and_true, true_and]
  refine ⟨fun d hd => domain ?_ _ _, fun q hq _ => domain ?_ _ _⟩
  · simp only [List.mem_cons, List.not_mem_nil, or_false] at hd; omega
  · have := List.mem_range.mp hq; omega

theorem closing_debugDomain : debugDomain.Within closingFoot := within_look.mpr fun _ => closing_setDomain _ _ (by decide)

section
variable {Q : State → Prop} (calm : Calm Q)
include calm

theorem Calm.releaseHalt : Stays Q releaseHalt :=
  stays_look fun _ => stays_when fun _ => stays_cons (calm.within (by simp [Dbg.halted])) (stays_cons (calm.within (closing_setFwReady _))
    (stays_cons (calm.raise _ _ _ _) stays_nil))

theorem Calm.safeHoldFor (cause : Nat) (block_ : Bool) : Stays Q (safeHoldFor cause block_) := by
  have power (f : PwrSt → PwrSt) : Stays Q (setPwr f) := calm.within (within_dev.mpr fun _ => rfl)
  have closes : Stays Q (forEach allStreams fun i => Machine.closeNow i closedBySafeHold) :=
    stays_forEach fun i hi => calm.closeNow (List.mem_range.mp hi) _
  exact stays_look fun _ => stays_ite (fun _ => power _) fun _ => stays_cons (power _) (stays_cons closes (stays_cons calm.abandonModes
    (stays_cons (calm.within closing_gateNodes) (stays_cons (calm.within closing_pinsSafe) (stays_cons calm.releaseHalt
      (stays_cons (stays_when fun _ => calm.within closing_powerRoot) (stays_cons (power _) (stays_cons (calm.modeChange _ _)
        (stays_cons (calm.within closing_debugDomain) stays_nil)))))))))

theorem Calm.safeHold (cause : Nat) : Stays Q (safeHold cause) := calm.safeHoldFor _ _

end

end Sys2Proof.Machine
end


section
/-! The modules of the host's link, and the functions that it carries (R107, R109, R117, R128, R131, R177). -/

namespace Sys2Proof.Machine
open Reg

/-! Training. -/

theorem module_wholes (m fn : Fin 2) : (modRate m fn).Whole ∧ (modRepairs m fn).Whole ∧ (Bridge.flitLo fn).Whole ∧ (modDown m fn).Whole
    ∧ (Bridge.replayExcess fn).Whole ∧ (Bridge.replays fn).Whole := by
  revert m fn; decide

/-- What a trained module shows of one function. -/
def showsTrained (m rate repairs : Nat) (lowLat : Bool) (fn : Nat) : Prog :=
  block [set (modRate m fn) rate, set (modRepairs m fn) repairs, set (Bridge.flitLo fn) (boolNat lowLat)]

/-- The three fields of a function that show what a module is trained to. -/
def trainedFlds (m fn : Nat) : List Fld := [modRate m fn, modRepairs m fn, Bridge.flitLo fn]

theorem trainedFlds_at (m fn : Fin 2) : ∀ f ∈ trainedFlds m fn, f.Whole ∧ f.width ≤ 32 ∧ f.addr = 0x01300000 + 0x10000 * fn.val := by
  revert m fn; decide

theorem showsTrained_shows (m fn : Fin 2) {rate repairs : Nat} (hr : rate < 8) (hp : repairs < 16) (lowLat : Bool) (s : State) :
    let t := run (showsTrained m rate repairs lowLat fn) s
    t.get (modRate m fn) = rate ∧ t.get (modRepairs m fn) = repairs ∧ t.get (Bridge.flitLo fn) = boolNat lowLat := by
  obtain ⟨wr, wp, wf, -⟩ := module_wholes m fn
  have low : boolNat lowLat < 2 := by cases lowLat <;> decide
  obtain ⟨rate_, repairs_, flit⟩ : (modRate m fn).lo + (modRate m fn).width ≤ 6 ∧ 8 ≤ (modRepairs m fn).lo
      ∧ (Bridge.flitLo fn).lo = 6 ∧ (Bridge.flitLo fn).width = 1 := by clear wr wp wf; revert m fn; decide
  have narrow : (modRate m fn).width = 3 ∧ (modRepairs m fn).width = 4 := by clear wr wp wf rate_ repairs_ flit; revert m fn; decide
  have w3 : (Bridge.flitLo fn).width ≤ 32 ∧ (modRepairs m fn).width ≤ 32 := by omega
  simp only [showsTrained, run_block_cons, run_block_nil]
  refine ⟨?_, ?_, ?_⟩
  · rw [get_set_apart w3.1 wr (.inr (by omega)), get_set_apart w3.2 wr (.inr (by omega)), get_set_same _ _ _ wr, narrow.1]
    exact Nat.mod_eq_of_lt hr
  · rw [get_set_apart w3.1 wp (.inr (by omega)), get_set_same _ _ _ wp, narrow.2]
    exact Nat.mod_eq_of_lt hp
  · rw [get_set_same _ _ _ wf]
    exact Nat.mod_eq_of_lt low

/-- What follows in the row of a trained module. -/
def afterTraining (m rate repairs roundTrip : Nat) (s : State) : Prog := block [
  set Car.replayTerm (satNat (roundTrip + 32) 0xFFFF), setFails m 0,
  when (s.everTrained m) (bridgeFlagBoth Bridge.modUp),
  setHost fun h => if m = 0 then { h with trained0 := true } else { h with trained1 := true },
  raise 1 0x22 1 [BitVec.ofNat 8 m, BitVec.ofNat 8 rate, BitVec.ofNat 8 repairs],
  setPwr fun x => { x with linkLost := false },
  sendHeld 0, sendHeld 1, drainHost,
  forEach allStreams fun i => look fun s => when ((s.stream i).suspendedBy.contains byCapacity && !(s.stream i).lifting.contains byCapacity)
    (setStream i fun t => { t with lifting := byCapacity :: t.lifting })]

theorem afterTraining_keeps {f : Fld} (w : f.width ≤ 32) {fn : Nat} (hfn : fn < 2) (at_ : f.addr = 0x01300000 + 0x10000 * fn) (m rate repairs roundTrip : Nat)
    (s : State) : Keeps (fun s => s.get f) (afterTraining m rate repairs roundTrip s) := by
  have tells : (sparing f).Tells := sparing_tells (by simp only [Told]; omega) (.inl w)
  have term : (set Car.replayTerm (satNat (roundTrip + 32) 0xFFFF)).Within (sparing f) :=
    within_set.mpr ⟨(sparing_narrow w _).mpr (by simp only [Car.replayTerm]; omega), fun wide => absurd wide (by decide)⟩
  have up {fn : Nat} (hfn : fn < 2) : (bridgeFlag fn Bridge.modUp).Within (sparing f) :=
    tells.bridgeFlag hfn (by simp [Bridge.modUp]) (by simp only [Told, Bridge.modUp]; omega) (by simp only [Told, Bridge.modUp]; omega)
  refine Prog.Within.keepsGet ?_
  simp only [afterTraining, bridgeFlagBoth, setFails, setPwr, setStream, within_cons, within_nil, within_when, within_look, within_forEach, within_dev, sparing_dev, term,
    up (fn := 0) (by decide), up (fn := 1) (by decide), tells.setHost, tells.raise, tells.sendHeld (fn := 0) (by decide), tells.sendHeld (fn := 1) (by decide),
    drainHost, tells.drainFrom, implies_true, and_self]

theorem ucieModuleTrained_trains {m : Fin 2} {rate : Fin 7} {repairs : Fin 16} {s : State} (powered : s.domainOn (4 + m.val) = true)
    (down : s.get (modRate m.val 0) = 0) (some_ : rate ≠ 0) (cap : s.get (Bridge.rateCap 0) ≠ 0) (lowLat : Bool) (rt : BitVec 16) :
    Answers (.ucieModuleTrained m rate lowLat repairs rt) s fun t => ∀ fn : Fin 2, t.get (modRate m.val fn.val) = min rate.val (s.get (Bridge.rateCap 0))
      ∧ t.get (modRepairs m.val fn.val) = repairs.val ∧ t.get (Bridge.flitLo fn.val) = boolNat lowLat := by
  have least : min rate.val (s.get (Bridge.rateCap 0)) ≠ 0 := by
    have : rate.val ≠ 0 := fun e => some_ (Fin.ext e)
    omega
  have small : min rate.val (s.get (Bridge.rateCap 0)) < 8 := by have := rate.isLt; omega
  have shape : exec (.ucieModuleTrained m rate lowLat repairs rt) s
      = .next (run (afterTraining m (min rate.val (s.get (Bridge.rateCap 0))) repairs rt.toNat s)
          (run (showsTrained m (min rate.val (s.get (Bridge.rateCap 0))) repairs lowLat 1)
            (run (showsTrained m (min rate.val (s.get (Bridge.rateCap 0))) repairs lowLat 0) s))) := by
    show execUcieModuleTrained m rate lowLat repairs rt s = _
    simp only [execUcieModuleTrained, run_look', powered, down, least, decide_true, Bool.true_and, ne_eq, not_false_eq_true, run_when_true,
      run_block_cons, run_block_nil, run_forEach_cons, run_forEach_nil, showsTrained, afterTraining]
  refine answers_next shape fun fn => ?_
  have kept {f : Fld} (hf : f ∈ trainedFlds m fn) (u : State) :
      (run (afterTraining m (min rate.val (s.get (Bridge.rateCap 0))) repairs rt.toNat s) u).get f = u.get f :=
    have ⟨_, narrow, at_⟩ := trainedFlds_at m fn f hf
    afterTraining_keeps narrow fn.isLt at_ _ _ _ _ s u
  rw [kept (by simp [trainedFlds]), kept (by simp [trainedFlds]), kept (by simp [trainedFlds])]
  by_cases second : fn = 1
  · subst second
    exact showsTrained_shows m 1 small repairs.isLt lowLat _
  · obtain rfl : fn = 0 := by omega
    have other {f : Fld} (hf : f ∈ trainedFlds m 0) (u : State) :
        (run (showsTrained m (min rate.val (s.get (Bridge.rateCap 0))) repairs lowLat 1) u).get f = u.get f := by
      obtain ⟨whole, narrow, at_⟩ := trainedFlds_at m 0 f hf
      have at1 := trainedFlds_at m 1
      simp only [trainedFlds, List.forall_mem_cons] at at1
      obtain ⟨⟨-, n1, a1⟩, ⟨-, n2, a2⟩, ⟨-, n3, a3⟩, -⟩ := at1
      have apart {g : Fld} (a : g.addr = 0x01300000 + 0x10000 * (1 : Fin 2).val) : f.addr ≠ g.addr := by rw [at_, a]; decide
      simp only [showsTrained, run_block_cons, run_block_nil]
      refine (get_set_apart n3 whole (.inl (apart a3))).trans ((get_set_apart n2 whole (.inl (apart a2))).trans (get_set_apart n1 whole (.inl (apart a1))))
    have shown := showsTrained_shows m 0 small repairs.isLt lowLat s
    exact ⟨(other (by simp [trainedFlds]) _).trans shown.1, (other (by simp [trainedFlds]) _).trans shown.2.1, (other (by simp [trainedFlds]) _).trans shown.2.2⟩

theorem ucieTrainingFailure_counts {m : Fin 2} {s : State} (powered : s.domainOn (4 + m.val) = true) (down : s.get (modRate m.val 0) = 0) :
    Answers (.ucieTrainingFailure m) s fun t =>
      (m = 0 → t.dev.host.fails0 = s.dev.host.fails0 + 1 ∧ t.dev.host.fails1 = s.dev.host.fails1)
      ∧ (m = 1 → t.dev.host.fails1 = s.dev.host.fails1 + 1 ∧ t.dev.host.fails0 = s.dev.host.fails0) := by
  refine answers_next rfl ?_
  simp only [run_look', powered, down, decide_true, Bool.and_self, run_when_true]
  exact ⟨fun e => by subst e; exact ⟨rfl, rfl⟩, fun e => by subst e; exact ⟨rfl, rfl⟩⟩

theorem ucieTrainingRetry_asks {m : Fin 2} {s : State} (powered : s.domainOn (4 + m.val) = true) (down : s.get (modRate m.val 0) = 0)
    (failed : (if m = 0 then s.dev.host.fails0 else s.dev.host.fails1) ≠ 0) (few : (if m = 0 then s.dev.host.fails0 else s.dev.host.fails1) ≤ 3) :
    Answers (.ucieTrainingRetry m) s fun t => t.out = .uncoreLink m.val (s.get (Bridge.rateCap 0)) :: s.out := by
  have same : (if m = 0 then s.dev.host.fails0 else s.dev.host.fails1) = if m.val = 0 then s.dev.host.fails0 else s.dev.host.fails1 := by
    simp only [Fin.ext_iff, Fin.val_zero]
  rw [same] at failed few
  refine answers_next rfl ?_
  simp only [run_look', powered, down, failed, few, decide_true, ne_eq, not_false_eq_true, Bool.true_or, Bool.and_self, run_when_true]
  rfl

end Sys2Proof.Machine
end


section
/-! A module that goes down, replays, and the resets and settings of functions (R109, R117, R128, R131, R177). -/

namespace Sys2Proof.Machine
open Reg

/-! What is calm of the bridge. -/

theorem Aside.comp {β γ : Type} {g : State → β} (h : Aside g) (φ : β → γ) : Aside (fun s => φ (g s)) where
  dev s f t := congrArg φ (h.dev s f t)
  quad q f t s := congrArg φ (h.quad q f t s)
  emit s o := congrArg φ (h.emit s o)
  set f v t s := congrArg φ (h.set f v t s)

/-- A field of the bridge that telling leaves alone keeps its value. -/
theorem calm_bridge {f : Fld} (w : f.width ≤ 32) (here : BridgeWord f.addr) (aside : Aside fun s => s.get f) (v : Nat) : Calm fun s => s.get f = v where
  aside := aside.comp fun x => x = v
  rest _ h s := congrArg (fun x => x = v) (h.get (fun x => x.2 here) (.inl w) s)
  clears i hi g hg := by
    have apart : g.width ≤ 32 ∧ g.addr ≠ f.addr := by
      simp only [streamFlds, List.mem_cons, List.not_mem_nil, or_false] at hg
      obtain rfl | rfl | rfl := hg <;> exact ⟨by simp [Del.state, Del.suspended, Del.fast], by simp only [Del.state, Del.suspended, Del.fast]; omega⟩
    have spare : (set g 0).Within (sparing f) := within_set.mpr ⟨(sparing_narrow w _).mpr apart.2, fun wide => absurd apart.1 (by omega)⟩
    exact fun s h => (spare.spared s).trans h

/-- What the host has set of its functions keeps its value. -/
theorem calm_settings {β : Type} {v : HostIf → β} (h : ∀ x y : HostIf, x.settings = y.settings → v x = v y) (b : β) : Calm fun s => v s.dev.host = b where
  aside := (aside_settings h).comp fun x => x = b
  rest _ h s := congrArg (fun x => v x = b) (h.dev (g := Dev.host) (fun _ d hf => congrArg Prod.fst (hf d)) s)
  clears i _ g _ s hs := by dsimp only; rw [set_dev]; exact hs

/-- A flag that the bridge shows on both functions, other than BME_DISCARD. -/
def SharedFlag (f : Nat → Fld) : Prop := ∀ fn < 2, (f fn).Whole ∧ (f fn).width = 1 ∧ (f fn).addr = 0x01300004 + 0x10000 * fn
  ∧ (f fn).cnt = 0x01300080 + 0x10000 * fn + 4 * (f fn).lo ∧ (f fn).lo < 5

theorem SharedFlag.aside {f : Nat → Fld} (flag : SharedFlag f) {fn : Nat} (h : fn < 2) : Aside fun s => s.get (f fn) := by
  obtain ⟨whole, w, at_, -, lo⟩ := flag fn h
  exact aside_flag whole (by omega) (by simp only [BridgeFlags]; omega) (.inl (by omega))

/-- A flag that both functions show is set on both. -/
theorem bridgeFlagBoth_sets {f : Nat → Fld} (flag : SharedFlag f) (s : State) : ∀ fn < 2, (run (bridgeFlagBoth f) s).get (f fn) = 1 := by
  have msix {fn x : Nat} (h : fn < 2) (hx : x < 2) (u : State) : (run (sendMsix x 0) u).get (f fn) = u.get (f fn) :=
    (flag.aside h).sendMsix hx (by decide) u
  have bumped {fn x : Nat} (h : fn < 2) (hx : x < 2) (u : State) : (run (bump ⟨(f x).cnt, 0, 16, 0⟩) u).get (f fn) = u.get (f fn) := by
    obtain ⟨-, w, at_, -, lo⟩ := flag fn h
    obtain ⟨-, -, -, cnt, lo'⟩ := flag x hx
    exact get_bump_other _ _ _ (by omega) (by dsimp only; omega) (.inl (by simp))
  obtain ⟨whole0, w0, at0, -⟩ := flag 0 (by decide)
  obtain ⟨whole1, w1, at1, -⟩ := flag 1 (by decide)
  have shape : run (bridgeFlagBoth f) s = run (sendMsix 1 0) (run (bump ⟨(f 1).cnt, 0, 16, 0⟩) (run (set (f 1) 1) (run (sendMsix 0 0)
      (run (bump ⟨(f 0).cnt, 0, 16, 0⟩) (run (set (f 0) 1) s))))) := by
    simp only [bridgeFlagBoth, bridgeFlag, setFlag, run_block_cons, run_block_nil]
  intro fn h
  rw [shape, msix h (by decide), bumped h (by decide)]
  obtain rfl | rfl : fn = 0 ∨ fn = 1 := by omega
  · rw [get_set_apart (by omega) whole0 (.inl (by omega)), msix h h, bumped h h, get_set_same _ _ _ whole0, w0]
    rfl
  · rw [get_set_same _ _ _ whole1, w1]
    rfl

/-- A flag that both functions show, and the message of it, leave the rest of the bridge alone. -/
theorem bridgeFlagBoth_keeps {f : Nat → Fld} {g : Fld} (w : g.width ≤ 32) (untold : ¬ Told g.addr)
    (flag : ∀ fn < 2, (f fn).width ≤ 32 ∧ Told (f fn).addr ∧ Told (f fn).cnt) : Keeps (fun s => s.get g) (bridgeFlagBoth f) := by
  have tells : (sparing g).Tells := sparing_tells untold (.inl w)
  have each {fn : Nat} (h : fn < 2) : (bridgeFlag fn f).Within (sparing g) := tells.bridgeFlag h (flag fn h).1 (flag fn h).2.1 (flag fn h).2.2
  exact Prog.Within.keepsGet (within_cons.mpr ⟨each (by decide), within_cons.mpr ⟨each (by decide), within_nil⟩⟩)

/-! A module goes down. -/

/-- What follows in the row of a module that has gone down. -/
def afterDown (m rate : Nat) (ltsm : BitVec 8) : Prog := block [countCorrected 1,
  raise 1 0x21 1 [BitVec.ofNat 8 m, BitVec.ofNat 8 rate, ltsm],
  look fun s => when (s.mode = mArmed || s.mode = mAcquire || s.mode = mMaintenance)
    (if s.linkUp then forEach s.overCapacity fun i => suspend i byCapacity
      else block [setPwr fun x => { x with linkLost := true }, safeHoldFor byFault false])]

theorem afterDown_stays {f : Fld} {v : Nat} (w : f.width ≤ 32) (here : BridgeWord f.addr) (place : f.addr % 0x8000 < 0x200) (aside : Aside fun s => s.get f)
    (m rate : Nat) (ltsm : BitVec 8) : Stays (fun s => s.get f = v) (afterDown m rate ltsm) := by
  have calm := calm_bridge w here aside v
  have shown (i : Nat) : Stays (fun s => s.get f = v) (set (Del.suspended i) 1) := by
    have spare : (set (Del.suspended i) 1).Within (sparing f) :=
      within_set.mpr ⟨(sparing_narrow w _).mpr (by simp only [Del.suspended]; omega), fun wide => absurd wide (by simp [Del.suspended])⟩
    exact fun s h => (spare.spared s).trans h
  have suspends (i : Nat) : Stays (fun s => s.get f = v) (suspend i byCapacity) := by
    have stream (g : StreamSt → StreamSt) : Stays (fun s => s.get f = v) (setStream i g) := fun _ h => h
    exact stays_look fun _ => stays_ite (fun _ => stream _) fun _ => stays_cons (stream _)
      (stays_cons (stays_when fun _ => stays_cons (shown i) (stays_cons (calm.raiseIn _ _ _ _ _ _) stays_nil)) stays_nil)
  have counter : Stays (fun s => s.get f = v) (countCorrected 1) := (calm.aside.counter (by decide) (by decide)).stays
  exact stays_cons counter (stays_cons (calm.raise _ _ _ _) (stays_cons (stays_look fun s => stays_when fun _ => stays_ite
    (fun _ => stays_forEach fun i _ => suspends i) (fun _ => stays_cons (fun _ h => h) (stays_cons (calm.safeHoldFor _ _) stays_nil))) stays_nil))

theorem modDown_shared (m : Fin 2) : SharedFlag (modDown m) := by
  unfold SharedFlag
  revert m; decide

theorem modRate_at (m : Fin 2) : ∀ fn < 2, (modRate m fn).Whole ∧ (modRate m fn).width = 3 ∧ (modRate m fn).addr = 0x01300000 + 0x10000 * fn := by
  revert m; decide

theorem ucieModuleDown_shows {m : Fin 2} {l : BitVec 8} {s : State} (up : s.get (modRate m.val 0) ≠ 0) :
    Answers (.ucieModuleDown m l) s fun t => ∀ fn : Fin 2, t.get (modRate m.val fn.val) = 0 ∧ t.on (modDown m.val fn.val) = true := by
  obtain ⟨u, lowered⟩ : ∃ u, run (set (modRate m.val 1) 0) (run (set (modRate m.val 0) 0) s) = u := ⟨_, rfl⟩
  have shape : exec (.ucieModuleDown m l) s = .next (run (afterDown m (s.get (modRate m.val 0)) l) (run (bridgeFlagBoth (modDown m.val)) u)) := by
    show execUcieModuleDown m l s = _
    simp only [execUcieModuleDown, run_look', up, decide_true, ne_eq, not_false_eq_true, run_when_true, run_block_cons, run_block_nil,
      run_forEach_cons, run_forEach_nil, afterDown, ← lowered]
  have rates : ∀ fn < 2, u.get (modRate m.val fn) = 0 := by
    obtain ⟨whole0, w0, at0⟩ := modRate_at m 0 (by decide)
    obtain ⟨whole1, w1, at1⟩ := modRate_at m 1 (by decide)
    intro fn h
    rw [← lowered]
    obtain rfl | rfl : fn = 0 ∨ fn = 1 := by omega
    · rw [get_set_apart (by omega) whole0 (.inl (by omega)), get_set_same _ _ _ whole0, Nat.zero_mod]
    · rw [get_set_same _ _ _ whole1, Nat.zero_mod]
  have flag := modDown_shared m
  refine answers_next shape fun fn => ⟨?_, ?_⟩
  · obtain ⟨-, w, at_⟩ := modRate_at m fn fn.isLt
    have untold : ¬ Told (modRate m fn).addr := by simp only [Told]; omega
    have kept := bridgeFlagBoth_keeps (f := modDown m.val) (g := modRate m fn) (by omega) untold fun x hx => by
      obtain ⟨-, w, at_, cnt, lo⟩ := flag x hx
      exact ⟨by omega, by simp only [Told]; omega, by simp only [Told]; omega⟩
    exact afterDown_stays (by omega) (by simp only [BridgeWord]; omega) (by omega) (aside_untold (untold_get untold (.inl (by omega)))) _ _ _ _
      ((kept u).trans (rates fn fn.isLt))
  · obtain ⟨-, w, at_, -⟩ := flag fn fn.isLt
    have set_ := afterDown_stays (f := modDown m fn) (v := 1) (by omega) (by simp only [BridgeWord]; omega) (by omega) (flag.aside fn.isLt) m
      (s.get (modRate m.val 0)) l _ (bridgeFlagBoth_sets flag u fn fn.isLt)
    exact (congrArg (· == 1) set_).trans rfl

end Sys2Proof.Machine
end


section
/-! Replays, resets and settings of the bridge's functions. -/

namespace Sys2Proof.Machine
open Reg

/-! Replays of the link (R109). -/

theorem replays_at : ∀ fn < 2, (Bridge.replays fn).Whole ∧ (Bridge.replays fn).width = 32 ∧ (Bridge.replays fn).addr = 0x01300040 + 0x10000 * fn := by
  decide

theorem ucieLinkReplay_counts {s : State} :
    Answers (.ucieLinkReplay none) s fun t => ∀ fn : Fin 2, t.get (Bridge.replays fn.val) = satNat (s.get (Bridge.replays fn.val) + 1) 0xFFFFFFFF := by
  have shape : exec (.ucieLinkReplay none) s = .next (run (bump (Bridge.replays 1)) (run (bump (Bridge.replays 0)) s)) := by
    show execUcieLinkReplay none s = _
    simp only [execUcieLinkReplay, run_look', run_block_cons, run_block_nil, run_forEach_cons, run_forEach_nil, run_skip]
  obtain ⟨whole0, w0, at0⟩ := replays_at 0 (by decide)
  obtain ⟨whole1, w1, at1⟩ := replays_at 1 (by decide)
  refine answers_next shape fun fn => ?_
  obtain rfl | rfl : fn = 0 ∨ fn = 1 := by omega
  · refine (get_bump_other _ _ _ (by decide) (by decide) (.inl (by decide))).trans ((get_bump_same _ _ whole0).trans ?_)
    rw [w0]; rfl
  · refine (get_bump_same _ _ whole1).trans ?_
    rw [w1, get_bump_other _ _ _ (by decide) (by decide) (.inl (by decide))]; rfl

theorem replayExcess_shared : SharedFlag Bridge.replayExcess := by unfold SharedFlag; decide

/-- What follows the note of a record that has been replayed more than once. -/
def tellsReplayed (i : Nat) (seq n : Nat) : Prog := when (2 ≤ n) (block [bridgeFlagBoth Bridge.replayExcess, countCorrected 1,
  raise 1 0x23 1 (leBytes 1 i ++ leBytes 6 seq ++ leBytes 1 (satNat n 255))])

theorem replayed_settings (x y : HostIf) (h : x.settings = y.settings) : x.replayed = y.replayed := congrArg (fun z => z.2.2.2.2.2.2) h

theorem tellsReplayed_keeps (i seq n : Nat) : Keeps (fun s => s.dev.host.replayed) (tellsReplayed i seq n) := by
  have aside := aside_settings replayed_settings
  have flag {fn : Nat} (h : fn < 2) : Keeps (fun s => s.dev.host.replayed) (bridgeFlag fn Bridge.replayExcess) := by
    obtain ⟨-, -, at_, cnt, lo⟩ := replayExcess_shared fn h
    have dev (f : Fld) (v : Nat) : Keeps (fun s => s.dev.host.replayed) (set f v) := fun s => by dsimp only; rw [set_dev]
    exact keeps_cons (keeps_cons (dev _ _) (keeps_cons (fun s => dev _ _ s) keeps_nil)) (keeps_cons (aside.sendMsix h (by decide)) keeps_nil)
  exact keeps_when (keeps_cons (keeps_cons (flag (by decide)) (keeps_cons (flag (by decide)) keeps_nil))
    (keeps_cons (aside.counter (by decide) (by decide)) (keeps_cons (aside.raise _ _ _ _) keeps_nil)))

theorem ucieLinkReplay_notes {i : Fin 16} {seq : BitVec 48} {n : Nat} {s : State}
    (before : (s.dev.host.replayed.find? fun x => x.1 = i.val && x.2.1 = seq.toNat).elim 0 (fun x => x.2.2) = n) :
    Answers (.ucieLinkReplay (some (i, seq))) s fun t => (i.val, seq.toNat, n + 1) ∈ t.dev.host.replayed
      ∧ (1 ≤ n → ∀ fn : Fin 2, t.on (Bridge.replayExcess fn.val) = true) := by
  obtain ⟨u, noted⟩ : ∃ u, run (setHost fun h => { h with replayed := (i.val, seq.toNat, n + 1) :: h.replayed.filter fun x =>
      !(x.1 = i.val && x.2.1 = seq.toNat) && ((s.stream x.1).flight.any fun e => e.seq = x.2.1) })
      (run (bump (Bridge.replays 1)) (run (bump (Bridge.replays 0)) s)) = u := ⟨_, rfl⟩
  have shape : exec (.ucieLinkReplay (some (i, seq))) s = .next (run (tellsReplayed i.val seq.toNat (n + 1)) u) := by
    show execUcieLinkReplay (some (i, seq)) s = _
    simp only [execUcieLinkReplay, run_look', run_block_cons, run_block_nil, run_forEach_cons, run_forEach_nil, before, Nat.add_comm 1 n, tellsReplayed, ← noted]
  refine answers_next shape ⟨?_, fun some_ fn => ?_⟩
  · have kept : (run (tellsReplayed i.val seq.toNat (n + 1)) u).dev.host.replayed = u.dev.host.replayed := tellsReplayed_keeps _ _ _ u
    rw [kept, ← noted]
    exact List.mem_cons_self ..
  · have flag := bridgeFlagBoth_sets replayExcess_shared u fn fn.isLt
    have aside := replayExcess_shared.aside fn.isLt
    have tells : run (tellsReplayed i.val seq.toNat (n + 1)) u = run (raise 1 0x23 1 (leBytes 1 i.val ++ leBytes 6 seq.toNat ++ leBytes 1 (satNat (n + 1) 255)))
        (run (countCorrected 1) (run (bridgeFlagBoth Bridge.replayExcess) u)) := by
      simp only [tellsReplayed, show 2 ≤ n + 1 by omega, decide_true, run_when_true, run_block_cons, run_block_nil]
    have kept := (aside.raise 1 0x23 1 (leBytes 1 i.val ++ leBytes 6 seq.toNat ++ leBytes 1 (satNat (n + 1) 255)) _).trans
      ((aside.counter (nid := 1) (i := 4) (by decide) (by decide) (run (bridgeFlagBoth Bridge.replayExcess) u)).trans flag)
    rw [tells, State.on]
    exact (congrArg (· == 1) kept).trans rfl

/-! Resets of functions (R177). -/

/-- What the host finds of a function that is reset. -/
def functionShown (fn : Nat) (h : HostIf) : PciFn × Bool := if fn = 0 then (h.pf0, h.flr0) else (h.pf1, h.flr1)

theorem functionShown_settings (fn : Nat) (x y : HostIf) (h : x.settings = y.settings) : functionShown fn x = functionShown fn y := by
  have e : x.pf0 = y.pf0 ∧ x.pf1 = y.pf1 ∧ x.flr0 = y.flr0 ∧ x.flr1 = y.flr1 := by
    simp only [HostIf.settings, Prod.mk.injEq] at h
    exact ⟨h.1, h.2.1, h.2.2.1, h.2.2.2.1⟩
  simp only [functionShown, e.1, e.2.1, e.2.2.1, e.2.2.2]

theorem resetFunction_shown (fn : Nat) (s : State) : functionShown fn (run (resetFunction fn) s).dev.host = (PciFn.reset, true) := by
  have reg : ∀ a, ResetWord fn a → ({ dev := fun _ => False } : Foot).reg a := fun _ _ => trivial
  have cleared (lo len : Nat) : (clearMem lo len).Within { dev := fun _ => False } := within_clearMem (fun _ => trivial) lo len
  rw [run_resetFunction, resetAfter, run_block_cons]
  generalize run (dev (resetQueues fn)) (run (resetBefore fn s) s) = u
  have rest (u : State) : (run (block [resetRegs (hostKey fn 0x3000) 0x6000, clearMem (hostKey fn 0x3000) 0x6000,
      forEach [0, 1] fun k => clearMem (prefetchBase fn k) 0x1000, resetRegs (0x01300000 + 0x10000 * fn) 0x100,
      forEach ((Bridge.replays fn :: [Bridge.mod0Rate fn, Bridge.mod1Rate fn, Bridge.flitLo fn, Bridge.mod0Repairs fn, Bridge.mod1Repairs fn,
        Bridge.rateCap fn]).map fun f => (f, s.get f)) fun x => set x.1 x.2,
      when s.fwReady (forEach (allMailboxes.filter fun m => m.fn = fn) fun m => set (Mbx.fwReady m.base) 1)]) u).dev = u.dev := by
    refine Prog.Within.dev (F := { dev := fun _ => False }) (g := id) ?_ (fun _ _ no => no.elim) u
    simp only [within_cons, within_nil, within_when, within_resetPage reg, within_resetBridge reg, within_showReady reg, cleared,
      within_putShared reg, within_forEach, implies_true, and_self]
  rw [rest, setHost, run_dev]
  by_cases first : fn = 0
  · subst first; rfl
  · simp only [functionShown, first, if_false]; rfl

theorem closeWorld_stays {Q : State → Prop} (calm : Calm Q) (worldS : Bool) (cause : Nat) : Stays Q (closeWorld worldS cause) := by
  have ring (k : Nat) : (set (Ring.enable k) 0).Within closingFoot := by
    have : closingFoot.reg (0x01320000 + 0x40 * k) := by simp only [closingFoot_reg, StateWord, BridgeWord]; omega
    simpa [Ring.enable, -closingFoot_reg] using this
  exact stays_look fun s => stays_forEach fun i hi => stays_cons (calm.closeNow (List.mem_range.mp (List.mem_filter.mp hi).1) _)
    (stays_cons (stays_forEach fun k _ => calm.within (ring k)) stays_nil)

theorem functionLevelReset_resets {fn : Fin 2} {s : State} (idle : (s.pendingCmd 0xF 3 1).isSome = false) :
    Answers (.functionLevelReset fn) s fun t => t.get BootReg.resetCause = 4 + fn.val ∧ (if fn = 0 then t.dev.host.flr0 = true else t.dev.host.flr1 = true)
      ∧ (if fn = 0 then t.dev.host.pf0 = PciFn.reset else t.dev.host.pf1 = PciFn.reset) := by
  have shape : exec (.functionLevelReset fn) s = .next (run (set BootReg.resetCause (4 + fn.val))
      (run (closeWorld (fn.val = 1) closedByReset) (run (resetFunction fn) s))) := by
    show execFunctionLevelReset fn s = _
    simp only [execFunctionLevelReset, run_look', idle, Bool.and_false, Bool.not_false, run_when_true, run_block_cons, run_block_nil]
  have shown : functionShown fn (run (closeWorld (fn.val = 1) closedByReset) (run (resetFunction fn) s)).dev.host = (PciFn.reset, true) :=
    closeWorld_stays (calm_settings (functionShown_settings fn) (PciFn.reset, true)) (fn.val = 1) closedByReset _ (resetFunction_shown fn s)
  refine answers_next shape ⟨(get_set_same _ _ _ (by decide)).trans ?_, ?_⟩
  · obtain rfl | rfl : fn = 0 ∨ fn = 1 := by omega
    · rfl
    · rfl
  · rw [set_dev]
    generalize (run (closeWorld (fn.val = 1) closedByReset) (run (resetFunction fn) s)).dev.host = host at *
    obtain rfl | rfl : fn = 0 ∨ fn = 1 := by omega
    · exact ⟨congrArg Prod.snd shown, congrArg Prod.fst shown⟩
    · exact ⟨congrArg Prod.snd shown, congrArg Prod.fst shown⟩

theorem flrDone_ends {fn : Fin 2} {s : State} (resets : (if fn = 0 then s.dev.host.flr0 else s.dev.host.flr1) = true) :
    Answers (.flrDone fn) s fun t => (if fn = 0 then t.dev.host.flr0 = false else t.dev.host.flr1 = false)
      ∧ (fn = 0 → t.dev.host.flr1 = s.dev.host.flr1) ∧ (fn = 1 → t.dev.host.flr0 = s.dev.host.flr0) := by
  have told (u : State) : (fun x : HostIf => (x.flr0, x.flr1)) (run (raise 1 0x25 1 [BitVec.ofNat 8 fn.val]) u).dev.host = (u.dev.host.flr0, u.dev.host.flr1) :=
    (aside_settings (v := fun x => (x.flr0, x.flr1)) fun x y h => by simp only [HostIf.settings, Prod.mk.injEq] at h; simp only [h.2.2.1, h.2.2.2.1]).raise _ _ _ _ u
  have asked : (if fn.val = 0 then s.dev.host.flr0 else s.dev.host.flr1) = true := by simpa only [Fin.ext_iff, Fin.val_zero] using resets
  have shape : exec (.flrDone fn) s = .next (run (raise 1 0x25 1 [BitVec.ofNat 8 fn.val])
      (run (setHost fun h => if fn.val = 0 then { h with flr0 := false } else { h with flr1 := false }) s)) := by
    show execFlrDone fn s = _
    simp only [execFlrDone, run_look', asked, run_when_true, run_block_cons, run_block_nil]
  have flags := told (run (setHost fun h => if fn.val = 0 then { h with flr0 := false } else { h with flr1 := false }) s)
  refine answers_next shape ?_
  simp only [Prod.mk.injEq] at flags
  rw [flags.1, flags.2]
  obtain rfl | rfl : fn = 0 ∨ fn = 1 := by omega
  · exact ⟨rfl, fun _ => rfl, fun other => absurd other (by decide)⟩
  · exact ⟨rfl, fun other => absurd other (by decide), fun _ => rfl⟩

/-! Credits, completions and settings (R117, R128, R131). -/

theorem hostCreditReturn_adds {n : Nat} {s : State} (none_ : s.dev.host.waiting = []) :
    Answers (.hostCreditReturn n) s fun t => t.dev.host.credit = s.dev.host.credit + n ∧ t.out = s.out := by
  have empty : (run (setHost fun h => { h with credit := h.credit + n }) s).dev.host.waiting = [] := none_
  have shape : exec (.hostCreditReturn n) s = .next (run (setHost fun h => { h with waiting := [] }) (run (setHost fun h => { h with credit := h.credit + n }) s)) := by
    show execHostCreditReturn n s = _
    simp only [execHostCreditReturn, run_block_cons, run_block_nil, drainHost, run_look', empty, drainFrom]
  exact answers_next shape ⟨rfl, rfl⟩

theorem outboundReadCompletion_completes {tag id off n : Nat} {d : List Byte} {s : State}
    (read : (s.dev.host.reads.find? fun r => r.1 = tag) = some (tag, .window id off n)) :
    Answers (.outboundReadCompletion tag true d) s fun t => (∀ x ∈ t.dev.host.reads, x.1 ≠ tag)
      ∧ ∀ r ∈ s.dev.remoteReads.head?, r.id = id → r.waits = 1 →
        t.out = .completion r.fn .success (r.data.take off ++ slice d 0 n ++ r.data.drop (off + n)) :: s.out := by
  obtain ⟨u, dropped⟩ : ∃ u, run (setHost fun h => { h with reads := h.reads.filter fun x => x.1 ≠ tag }) s = u := ⟨_, rfl⟩
  have shape : exec (.outboundReadCompletion tag true d) s = .next (run (fillRead id off (slice d 0 n)) u) := by
    show execOutboundReadCompletion tag true d s = _
    simp only [execOutboundReadCompletion, run_look', read, run_block_cons, run_block_nil, if_true, dropped]
  have host : (run (fillRead id off (slice d 0 n)) u).dev.host = u.dev.host := by
    refine Prog.Within.sparedDev (g := Dev.host) (within_look.mpr fun v => ?_) u
    split
    · trivial
    · exact within_ite.mpr ⟨fun _ => within_cons.mpr ⟨within_dev.mpr fun _ => rfl, within_cons.mpr ⟨within_emit.mpr trivial, within_nil⟩⟩,
        fun _ => within_dev.mpr fun _ => rfl⟩
  refine answers_next shape ⟨?_, fun r first same last => ?_⟩
  · rw [host, ← dropped]
    exact fun x hx => by simpa using (List.mem_filter.mp hx).2
  · have found : u.dev.remoteReads.find? (fun r => r.id = id) = some r := by
      obtain ⟨rest, reads⟩ := List.head?_eq_some_iff.mp first
      have same_ : u.dev.remoteReads = s.dev.remoteReads := by rw [← dropped]; rfl
      rw [same_, reads]
      exact List.find?_cons_of_pos (by simpa using same)
    rw [fillRead, run_look']
    simp only [found, last, Nat.le_refl, if_true, run_block_cons, run_block_nil, slice_length, run_emit, run_dev]
    rw [← dropped]
    rfl

theorem configurationWrite_busMaster {fn : Fin 2} {b : Bool} {s : State} :
    Answers (.configurationWrite fn (.busMaster b)) s fun t => (if fn = 0 then t.dev.host.pf0 else t.dev.host.pf1).busMaster = b
      ∧ (if fn = 0 then t.dev.host.pf1 else t.dev.host.pf0) = (if fn = 0 then s.dev.host.pf1 else s.dev.host.pf0) ∧ t.regs = s.regs := by
  refine answers_next rfl ?_
  obtain rfl | rfl : fn = 0 ∨ fn = 1 := by omega
  · exact ⟨rfl, rfl, rfl⟩
  · exact ⟨rfl, rfl, rfl⟩

theorem configurationWrite_msix {fn : Fin 2} {a b : Bool} {s : State} :
    Answers (.configurationWrite fn (.msixControl a b)) s fun t => (if fn = 0 then t.dev.host.pf0 else t.dev.host.pf1).msixEnable = a
      ∧ (if fn = 0 then t.dev.host.pf0 else t.dev.host.pf1).msixMask = b := by
  obtain ⟨u, written⟩ : ∃ u, run (setPci fn.val fun p => { p with msixEnable := a, msixMask := b }) s = u := ⟨_, rfl⟩
  have shape : exec (.configurationWrite fn (.msixControl a b)) s = .next (run (sendHeld fn) u) := by
    show execConfigurationWrite fn (.msixControl a b) s = _
    simp only [execConfigurationWrite, run_block_cons, run_block_nil, written]
  have aside := aside_settings (functionShown_settings fn)
  have kept : functionShown fn (run (sendHeld fn) u).dev.host = functionShown fn u.dev.host :=
    (keeps_forEach fun v hv => keeps_look' fun _ => keeps_ite (aside.sendMsix fn.isLt (List.mem_range.mp hv)) keeps_skip :
      Keeps (fun s => functionShown fn s.dev.host) (sendHeld fn)) u
  refine answers_next shape ?_
  generalize (run (sendHeld fn) u).dev.host = host at *
  obtain rfl | rfl : fn = 0 ∨ fn = 1 := by omega
  · have pf := congrArg Prod.fst kept
    simp only [functionShown] at pf
    rw [← written] at pf
    simp only [if_true]
    rw [show host.pf0 = _ from pf]
    exact ⟨rfl, rfl⟩
  · have pf := congrArg Prod.fst kept
    rw [← written] at pf
    rw [show (if (1 : Fin 2) = 0 then host.pf0 else host.pf1) = host.pf1 from rfl, show host.pf1 = _ from pf]
    exact ⟨rfl, rfl⟩

/-- Settles O13. -/
theorem ucieAndFunctionsFollow : Obligations.UcieAndFunctionsFollow := by
  unfold Obligations.UcieAndFunctionsFollow
  exact ⟨fun _ _ lowLat _ rt _ powered down some_ cap => ucieModuleTrained_trains powered down some_ cap lowLat rt,
    fun _ _ powered down => ucieTrainingFailure_counts powered down, fun _ _ powered down failed few => ucieTrainingRetry_asks powered down failed few,
    fun _ _ _ up => ucieModuleDown_shows up, fun _ => ucieLinkReplay_counts, fun _ _ _ _ before => ucieLinkReplay_notes before,
    fun _ _ idle => functionLevelReset_resets idle, fun _ _ resets => flrDone_ends resets, fun _ _ none_ => hostCreditReturn_adds none_,
    fun _ _ _ _ _ _ read => outboundReadCompletion_completes read, fun _ _ _ => configurationWrite_busMaster, fun _ _ _ _ => configurationWrite_msix⟩

end Sys2Proof.Machine
end


section
/-! Integrity faults: what is noted of an error in memory, and what a mismatch of the control complex does (R507 to R519). -/

namespace Sys2Proof.Machine
open Reg

/-! Errors in memory (R507, R508). -/

theorem flt_wholes : Flt.ce.Whole ∧ Flt.ceCount.Whole ∧ Flt.ue.Whole ∧ Flt.ueCount.Whole ∧ Flt.ueAddrLo.Whole ∧ Flt.patrol.Whole
    ∧ Flt.lockstep.Whole ∧ Flt.lockstepCount.Whole := by decide

/-- The words in which faults are noted. -/
abbrev FaultWord (f : Fld) : Prop := 0x01701000 ≤ f.addr ∧ f.addr < 0x01702000 ∧ f.width ≤ 32

theorem faultWord_tells {f : Fld} (h : FaultWord f) : (sparing f).Tells := sparing_tells (by simp only [Told]; omega) (.inl h.2.2)

theorem ownerOf_lt (a : Nat) : ownerOf a < 0x400 := by
  have small : ∀ n ∈ nodeOfAddr a, n < 0x400 := by
    unfold nodeOfAddr
    intro n hn
    split at hn
    · cases hn; omega
    split at hn
    · cases hn; omega
    split at hn
    · cases hn; omega
    split at hn
    · cases hn; omega
    split at hn
    · cases hn; omega
    split at hn
    · cases hn; omega
    · cases hn
  unfold ownerOf
  split
  next n e => exact small n e
  · decide

/-- Nodes count apart from the words of faults. -/
theorem keeps_counted {f : Fld} (h : FaultWord f) (a : Nat) : Keeps (fun s => s.get f) (countCorrected (ownerOf a)) := by
  have := ownerOf_lt a
  refine Prog.Within.keepsGet (within_bump.mpr ⟨(sparing_narrow h.2.2 _).mpr ?_, fun _ => (sparing_narrow h.2.2 _).mpr ?_⟩)
  · simp only [Node.counter, nodeBase]; omega
  · simp only [Node.counter, nodeBase]; omega

/-- What is told of a corrected error, when it has been flagged and counted. -/
def tellsCe (a : Nat) (s : State) : Prog := block [countCorrected (ownerOf a), raiseLimitedIn (s.addrS a) 0x0E 1 (ownerOf a) 0 fun n => leBytes 8 a ++ leBytes 4 n]

theorem tellsCe_keeps {f : Fld} (h : FaultWord f) (a : Nat) (s : State) : Keeps (fun s => s.get f) (tellsCe a s) :=
  keeps_cons (keeps_counted h a) (keeps_cons (Prog.Within.keepsGet ((faultWord_tells h).raiseLimitedIn _ _ _ _ _ _ _ _)) keeps_nil)

theorem noteCe_notes (a : Nat) (s : State) :
    let t := run (noteCe a) s
    t.get Flt.ce = 1 ∧ t.get Flt.ceCount = satNat (s.get Flt.ceCount + 1) 0xFFFFFFFF ∧ t.dev.ecc = s.dev.ecc := by
  obtain ⟨wCe, wCount, -⟩ := flt_wholes
  have shape : run (noteCe a) s = run (tellsCe a s) (run (bump Flt.ceCount) (run (setFlag Flt.ce) s)) := by
    simp only [noteCe, run_look', run_block_cons, run_block_nil, tellsCe]
  rw [shape]
  refine ⟨?_, ?_, ?_⟩
  · rw [(tellsCe_keeps (f := Flt.ce) (by decide) a s).get, get_bump_apart (by decide) wCe (.inl (by decide)), get_setFlag_same wCe (by decide)]
    rfl
  · rw [(tellsCe_keeps (f := Flt.ceCount) (by decide) a s).get, get_bump_same _ _ wCount, get_setFlag_apart (by decide) wCount (.inl (by decide)) (by decide)]
    rfl
  · have tells : (sparingDev Dev.ecc).Tells := sparingDev_tells fun _ _ _ _ _ _ => rfl
    refine Eq.trans (Prog.Within.sparedDev ?_ _) ?_
    · simp [tellsCe, countCorrected, tells.raiseLimitedIn]
    · simp [setFlag]

/-- What is left to do of an uncorrectable error that the patrol found, when it has been noted, flagged and counted. -/
def tellsUe (a row cls : Nat) (s : State) : Prog := raiseIn (s.addrS a) 0x0E 2 (ownerOf a) (leBytes 8 a ++ [BitVec.ofNat 8 row, BitVec.ofNat 8 cls])

/-- What the first uncorrectable error notes. -/
def notesUe (a row syn : Nat) : Prog := block [set Flt.ueAddrLo a, set Flt.ueAddrHi (a / 0x100000000), set Flt.content row, set Flt.syndrome syn,
    set Flt.patrol 1, set Flt.ueNid (ownerOf a)]

theorem notesUe_notes (a row syn : Nat) (s : State) :
    let t := run (notesUe a row syn) s
    t.get Flt.ueAddrLo = a % 0x100000000 ∧ t.get Flt.patrol = 1 ∧ t.get Flt.ueCount = s.get Flt.ueCount := by
  obtain ⟨-, -, -, wCount, wAddr, wPatrol, -⟩ := flt_wholes
  simp only [notesUe, run_block_cons, run_block_nil]
  simp (disch := first | assumption | (refine id ?_; dsimp only [Flt.ueAddrLo, Flt.ueAddrHi, Flt.content, Flt.syndrome, Flt.patrol, Flt.ueNid, Flt.ueCount]; omega) | fail)
    only [get_set_apart, get_set_same]
  exact ⟨rfl, rfl, trivial⟩

theorem noteUe_notes (a row cls : Nat) (s : State) :
    let t := run (noteUe a row cls true) s
    t.get Flt.ue = 1 ∧ t.get Flt.ueCount = satNat (s.get Flt.ueCount + 1) 0xFFFFFFFF
      ∧ (s.on Flt.ue = false → t.get Flt.ueAddrLo = a % 0x100000000 ∧ t.get Flt.patrol = 1) := by
  obtain ⟨-, -, wUe, wCount, wAddr, wPatrol, -⟩ := flt_wholes
  obtain ⟨syn, u, same, shape⟩ : ∃ syn u, (∀ f, u.get f = s.get f) ∧ run (noteUe a row cls true) s
      = run (tellsUe a row cls u) (run (bump Flt.ueCount) (run (setFlag Flt.ue) (run (when (!u.on Flt.ue) (notesUe a row syn)) u))) := by
    refine ⟨Config.freeValue s.free, Act.fresh.apply s, fun _ => rfl, ?_⟩
    simp only [noteUe, run_fresh, run_look', run_block_cons, run_block_nil, Bool.not_true, run_when_false, tellsUe, notesUe, boolNat, if_true]
  have tells {f : Fld} (h : FaultWord f) : Keeps (fun s => s.get f) (tellsUe a row cls u) := Prog.Within.keepsGet ((faultWord_tells h).raiseIn _ _ _ _ _ _)
  have noted : (run (when (!u.on Flt.ue) (notesUe a row syn)) u).get Flt.ueCount = s.get Flt.ueCount := by
    rw [run_when]
    split
    · rw [(notesUe_notes a row syn u).2.2, same]
    · exact same _
  rw [shape]
  refine ⟨?_, ?_, fun first => ?_⟩
  · rw [(tells (f := Flt.ue) (by decide)).get, get_bump_apart (by decide) wUe (.inl (by decide)), get_setFlag_same wUe (by decide)]
    rfl
  · rw [(tells (f := Flt.ueCount) (by decide)).get, get_bump_same _ _ wCount, get_setFlag_apart (by decide) wCount (.inl (by decide)) (by decide), noted]
    rfl
  · have first : (!u.on Flt.ue) = true := by rw [State.on, same, ← State.on, first]; rfl
    obtain ⟨addr, patrol, -⟩ := notesUe_notes a row syn u
    rw [(tells (f := Flt.ueAddrLo) (by decide)).get, (tells (f := Flt.patrol) (by decide)).get, get_bump_apart (by decide) wAddr (.inl (by decide)),
      get_bump_apart (by decide) wPatrol (.inl (by decide)), get_setFlag_apart (by decide) wAddr (.inl (by decide)) (by decide),
      get_setFlag_apart (by decide) wPatrol (.inl (by decide)) (by decide), first, run_when_true]
    exact ⟨addr, patrol⟩

/-- The patrol counts its passes and changes nothing else of what faults show. -/
theorem passes_keep {f : Fld} (whole : f.Whole) (apart : f.addr ≠ Flt.patrolPasses.addr) (pass : Bool) : Keeps (fun s => s.get f) (when pass (bump Flt.patrolPasses)) :=
  keeps_when fun _ => get_bump_apart (by decide) whole (.inl apart)

section
variable {a : BitVec 40} {pass : Bool} {w : Nat} {s : State} (owned : s.patrolled a.toNat = true)
include owned

theorem patrolRead_corrects (ce : s.eccIn (a.toNat / 8 * 8) 8 1 = [w]) (none_ : s.eccIn (a.toNat / 8 * 8) 8 2 = []) :
    Answers (.patrolRead a pass) s fun t => t.on Flt.ce = true ∧ t.get Flt.ceCount = satNat (s.get Flt.ceCount + 1) 0xFFFFFFFF ∧ (w, 3) ∈ t.dev.ecc := by
  obtain ⟨wCe, wCount, -⟩ := flt_wholes
  obtain ⟨flagged, counted, ecc⟩ := noteCe_notes w s
  have shape : exec (.patrolRead a pass) s = .next (run (when pass (bump Flt.patrolPasses)) (run (setEcc fun l => l.map fun e => if e.1 = w then (w, 3) else e)
      (run (noteCe w) s))) := by
    show execPatrolRead a pass s = _
    simp only [execPatrolRead, run_look', owned, run_when_true, ce, none_, run_block_cons, run_block_nil, run_forEach_cons, run_forEach_nil]
  refine answers_next shape ⟨?_, ?_, ?_⟩
  · rw [State.on, (passes_keep wCe (by decide) pass).get, setEcc, run_dev, get_dev, flagged]
    rfl
  · rw [(passes_keep wCount (by decide) pass).get, setEcc, run_dev, get_dev, counted]
  · have kept (u : State) : (run (when pass (bump Flt.patrolPasses)) u).dev = u.dev := by
      rw [run_when]
      split
      · exact bump_dev ..
      · rfl
    obtain ⟨e, listed, hit⟩ : ∃ e ∈ s.dev.ecc, e.1 = w := by
      have : w ∈ s.eccIn (a.toNat / 8 * 8) 8 1 := by rw [ce]; exact List.mem_singleton_self w
      obtain ⟨e, he, hw⟩ := List.mem_map.mp this
      exact ⟨e, (List.mem_filter.mp he).1, hw⟩
    rw [kept]
    show (w, 3) ∈ (run (noteCe w) s).dev.ecc.map _
    rw [ecc]
    exact List.mem_map.mpr ⟨e, listed, if_pos hit⟩

theorem patrolRead_finds (none_ : s.eccIn (a.toNat / 8 * 8) 8 1 = []) (ue : s.eccIn (a.toNat / 8 * 8) 8 2 = [w]) :
    Answers (.patrolRead a pass) s fun t => t.on Flt.ue = true ∧ t.get Flt.ueCount = satNat (s.get Flt.ueCount + 1) 0xFFFFFFFF
      ∧ (s.on Flt.ue = false → t.get Flt.ueAddrLo = w % 0x100000000 ∧ t.get Flt.patrol = 1) := by
  obtain ⟨-, -, wUe, wCount, wAddr, wPatrol, -⟩ := flt_wholes
  obtain ⟨flagged, counted, first⟩ := noteUe_notes w (s.content w false) (contentClass (s.content w false)) s
  have shape : exec (.patrolRead a pass) s = .next (run (when pass (bump Flt.patrolPasses))
      (run (noteUe w (s.content w false) (contentClass (s.content w false)) true) s)) := by
    show execPatrolRead a pass s = _
    simp only [execPatrolRead, run_look', owned, run_when_true, ue, none_, run_block_cons, run_block_nil, run_forEach_cons, run_forEach_nil]
  refine answers_next shape ?_
  rw [State.on, (passes_keep wUe (by decide) pass).get, flagged, (passes_keep wCount (by decide) pass).get, (passes_keep wAddr (by decide) pass).get,
    (passes_keep wPatrol (by decide) pass).get]
  exact ⟨rfl, counted, first⟩

end

end Sys2Proof.Machine
end


section
/-! A mismatch of the control complex, and what ends an error in memory (R507, R510, R511, R519, R548). -/

namespace Sys2Proof.Machine
open Reg

/-! A mismatch of the control complex (R511). -/

/-- What a mismatch notes before the control complex starts again. -/
def notesMismatch : Prog := block [setFlag Flt.lockstep, bump Flt.lockstepCount, countCorrected 1,
    dev fun d => { d with sec := { d.sec with injected := if d.sec.injected = some 5 then none else d.sec.injected } }]

theorem notesMismatch_notes (s : State) :
    let t := run notesMismatch s
    t.get Flt.lockstep = 1 ∧ t.get Flt.lockstepCount = satNat (s.get Flt.lockstepCount + 1) 0xFFFFFFFF ∧ t.dev.boot = s.dev.boot := by
  obtain ⟨-, -, -, -, -, -, wFlag, wCount⟩ := flt_wholes
  have counted {f : Fld} (h : FaultWord f) (u : State) : (run (countCorrected 1) u).get f = u.get f :=
    get_countCorrected (by decide) h.2.2 (by simp only [Told]; omega)
  simp only [notesMismatch, run_block_cons, run_block_nil, run_dev, get_dev]
  refine ⟨?_, ?_, ?_⟩
  · rw [counted (by decide), get_bump_apart (by decide) wFlag (.inl (by decide)), get_setFlag_same wFlag (by decide)]
    rfl
  · rw [counted (by decide), get_bump_same _ _ wCount, get_setFlag_apart (by decide) wCount (.inl (by decide)) (by decide)]
    rfl
  · simp [setFlag, countCorrected]

section
variable {cclk : BitVec 64} {s : State} (cool : s.get Therm.state ≠ 4) (started : 1 ≤ s.get BootReg.step)
include cool started

theorem lockstepMismatch_boot (boot : s.mode = mBoot) :
    Answers (.lockstepMismatch cclk) s fun t => t.get BootReg.step = 1 ∧ t.on Flt.lockstep = true
      ∧ t.get Flt.lockstepCount = satNat (s.get Flt.lockstepCount + 1) 0xFFFFFFFF := by
  obtain ⟨-, -, -, -, -, -, wFlag, wCount⟩ := flt_wholes
  obtain ⟨wStep, wWait, wFailed, -⟩ := boot_wholes
  obtain ⟨flagged, counted, -⟩ := notesMismatch_notes s
  have shape : exec (.lockstepMismatch cclk) s = .next (run (set BootReg.failed 0) (run (set BootReg.waiting 0) (run (set BootReg.step 1) (run notesMismatch s)))) := by
    show execLockstepMismatch cclk s = _
    simp only [execLockstepMismatch, run_look', boot, cool, started, decide_true, ne_eq, not_false_eq_true, Bool.and_self, if_true, run_when_true,
      show mBoot ≠ mStandby by decide, run_block_cons, run_block_nil, notesMismatch]
  refine answers_next shape ⟨?_, ?_, ?_⟩
  · simp (disch := first | assumption | (refine id ?_; dsimp only [BootReg.step, BootReg.waiting, BootReg.failed]; omega) | fail) only [get_set_apart, get_set_same]
    rfl
  · rw [State.on, get_set_apart (by decide) wFlag (.inl (by decide)), get_set_apart (by decide) wFlag (.inl (by decide)),
      get_set_apart (by decide) wFlag (.inl (by decide)), flagged]
    rfl
  · rw [get_set_apart (by decide) wCount (.inl (by decide)), get_set_apart (by decide) wCount (.inl (by decide)),
      get_set_apart (by decide) wCount (.inl (by decide)), counted]

theorem lockstepMismatch_restarts (up : s.mode ≠ mBoot) (awake : s.mode ≠ mStandby) (first : s.dev.boot.expiries = []) (still : s.dev.boot.swapStep = false) :
    Answers (.lockstepMismatch cclk) s fun t => t.fwReady = false ∧ t.on Flt.lockstep = true ∧ t.on BootReg.wdogSeen = true ∧ t.get BootReg.resetCause = 3 := by
  obtain ⟨-, -, -, -, -, -, wFlag, -⟩ := flt_wholes
  obtain ⟨flagged, -, boot⟩ := notesMismatch_notes s
  obtain ⟨u, told⟩ : ∃ u, run (raise 0x0E 4 1 (leBytes 8 cclk.toNat)) (run notesMismatch s) = u := ⟨_, rfl⟩
  have shape : exec (.lockstepMismatch cclk) s = .next (run (expiry byLockstep) u) := by
    show execLockstepMismatch cclk s = _
    simp only [execLockstepMismatch, run_look', up, awake, cool, started, decide_true, ne_eq, not_false_eq_true, Bool.and_self, if_false, run_when_true,
      run_block_cons, run_block_nil, ← told, notesMismatch]
  have noted : u.on Flt.lockstep = true := by
    rw [← told, State.on, raise_get _ _ _ _ _ (by decide) (.inl (by decide)), flagged]
    rfl
  have kept : u.dev.boot = s.dev.boot := by
    rw [← told]
    exact (((sparingDev_tells fun _ _ _ _ _ _ => rfl).raise _ _ _ _).sparedDev (g := Dev.boot) _).trans boot
  obtain ⟨seen, why, -, down, same⟩ := expiry_restarts (s := u) (by rw [kept, first]) (by rw [kept, still]) byLockstep
  refine answers_next shape ⟨down, ?_, seen, why⟩
  rw [State.on, same Flt.lockstep ⟨offMailbox_at (by decide) (by decide) (by decide), wFlag, by decide⟩ (by decide)]
  exact noted

end

/-! What ends an error in memory. -/

theorem eccWriteback_mends (a : BitVec 40) (s : State) :
    Answers (.eccWriteback a) s fun t => (∀ e ∈ t.dev.ecc, ¬(e.1 = a.toNat / 8 * 8 ∧ e.2 = 3))
      ∧ (∀ e ∈ s.dev.ecc, e.1 ≠ a.toNat / 8 * 8 → e ∈ t.dev.ecc) ∧ t.regs = s.regs ∧ t.mem = s.mem := by
  refine answers_next rfl ⟨fun e he => ?_, fun e he apart => List.mem_filter.mpr ⟨he, by simp [apart]⟩, rfl, rfl⟩
  have unmended := (List.mem_filter.mp he).2
  simp only [Bool.not_eq_true', Bool.and_eq_false_iff, decide_eq_false_iff_not] at unmended
  exact not_and_or.mpr unmended

theorem headerWordRepair_mends {a : BitVec 40} {s : State} (ready : s.fwReady = true) (lo : 0x01100000 ≤ a.toNat) (hi : a.toNat < 0x01140000) :
    Answers (.headerWordRepair a) s fun t => ∀ e ∈ t.dev.ecc, e.1 ≠ a.toNat / 8 * 8 := by
  refine answers_next rfl ?_
  rw [run_look', ready, decide_eq_true lo, decide_eq_true hi, Bool.and_self, Bool.and_self, run_when_true]
  intro e he
  simpa using (List.mem_filter.mp he).2

theorem bistRunDone_completes {nid : Fin 0x140} {pass : Bool} {m : BitVec 16} {e : Cmd} {s : State} (pending : s.pendingCmd 17 6 nid.val = some e)
    (alone : s.awaited e.seq = false) : Answers (.bistRunDone nid pass m) s fun t => ∀ x ∈ t.dev.journal, x.seq ≠ e.seq :=
  answers_next rfl (finish_drops pending (((waits_completes.raise _ _ _ _).awaited s e.seq).trans alone))

end Sys2Proof.Machine
end


section
/-! The work of pipelines and of row assembly makes no member awaited and notes no wake-up: a footprint of all registers and all memory that leaves
the waits for members, and the wake-up that waits for Standby, as they are. -/

namespace Sys2Proof.Machine
open Reg

/-- The footprint of what waits for no member and notes no wake-up. -/
abbrev steady : Foot := sparingDev fun d => (d.pwr.wakeNext, d.ctlWaits)

theorem steady_completes : steady.Completes := sparingDev_completes (fun _ _ _ _ _ _ => rfl) fun _ _ => rfl

/-- A change of the device that keeps both is within the footprint. -/
theorem steady_dev {f : Dev → Dev} (wake : ∀ d, (f d).pwr.wakeNext = d.pwr.wakeNext) (waits : ∀ d, (f d).ctlWaits = d.ctlWaits) : (dev f).Within steady :=
  within_dev.mpr fun d => congrArg₂ Prod.mk (wake d) (waits d)

theorem steady_setPipe (p : Nat) (f : PipeSt → PipeSt) : (setPipe p f).Within steady := steady_dev (fun _ => rfl) fun _ => rfl
theorem steady_setAsm (i : Nat) (f : AsmSt → AsmSt) : (setAsm i f).Within steady := steady_dev (fun _ => rfl) fun _ => rfl
theorem steady_setStream (i : Nat) (f : StreamSt → StreamSt) : (setStream i f).Within steady := steady_dev (fun _ => rfl) fun _ => rfl
theorem steady_setSwaps (f : List (Nat × SwapSt) → List (Nat × SwapSt)) : (setSwaps f).Within steady := steady_dev (fun _ => rfl) fun _ => rfl
theorem steady_setEcc (f : List (Nat × Nat) → List (Nat × Nat)) : (setEcc f).Within steady := steady_dev (fun _ => rfl) fun _ => rfl
theorem steady_setBoot (f : BootSt → BootSt) : (setBoot f).Within steady := steady_dev (fun _ => rfl) fun _ => rfl
theorem steady_setTw (f : TwMail → TwMail) : (setTw f).Within steady := steady_dev (fun _ => rfl) fun _ => rfl

theorem steady_setPwr {f : PwrSt → PwrSt} (h : ∀ x, (f x).wakeNext = x.wakeNext) : (setPwr f).Within steady :=
  steady_dev (fun d => h d.pwr) fun _ => rfl

theorem steady_set (f : Fld) (v : Nat) : (set f v).Within steady := by simp
theorem steady_bumpBy (f : Fld) (n : Nat) : (bumpBy f n).Within steady := by simp
theorem steady_bump (f : Fld) : (bump f).Within steady := by simp
theorem steady_setFlag (f : Fld) : (setFlag f).Within steady := by simp
theorem steady_setBytes (a : Nat) (bs : List Byte) : (setBytes a bs).Within steady := within_setBytes (fun _ => trivial) bs a
theorem steady_clearMem (lo len : Nat) : (clearMem lo len).Within steady := within_clearMem (fun _ => trivial) lo len
theorem steady_resetRegs (lo len : Nat) : (resetRegs lo len).Within steady := within_resetRegs fun _ _ _ => trivial
theorem steady_setJournal (f : List Cmd → List Cmd) : (setJournal f).Within steady := steady_completes.setJournal f
theorem steady_raise (c k n : Nat) (d : List Byte) : (raise c k n d).Within steady := steady_completes.raise c k n d
theorem steady_raiseStage (c k n st : Nat) (d : List Byte) : (raiseStage c k n st d).Within steady := steady_completes.raiseStage c k n st d
theorem steady_raiseLimited (c k n b : Nat) (d : Nat → List Byte) (f : Nat → Nat) : (raiseLimited c k n b d f).Within steady :=
  steady_completes.raiseLimited c k n b d f

/-- What a node counts is told, whichever node it is. -/
theorem steady_count (n : Nat) : (countCorrected n).Within steady ∧ (countMarked n).Within steady ∧ (countDropped n).Within steady
    ∧ (countContained n).Within steady := ⟨steady_bump _, steady_bump _, steady_bump _, steady_bump _⟩

theorem steady_countClass (cls nid : Nat) : (countClass cls nid).Within steady := by
  obtain ⟨corrected, marked, dropped, contained⟩ := steady_count nid
  simp only [countClass, within_ite, within_skip, corrected, marked, dropped, contained, implies_true, and_self]

theorem steady_setState (nid st : Nat) : (setState nid st).Within steady :=
  within_look'.mpr fun s => by simp only [within_ite, within_skip, within_cons, within_nil, steady_set, implies_true, and_self]

theorem steady_setDomain (d : Nat) (on ret : Bool) : (setDomain d on ret).Within steady :=
  within_look'.mpr fun _ => by simp only [within_cons, within_nil, steady_set, and_self]

theorem steady_store (a : Nat) (bs : List Byte) : (store a bs).Within steady :=
  within_cons.mpr ⟨steady_setBytes _ _, within_cons.mpr ⟨steady_setEcc _, within_nil⟩⟩

theorem steady_setSleep (p v : Nat) : (setSleep p v).Within steady := steady_setPwr fun _ => rfl

/-! Pipelines, their latencies and their swaps. -/

theorem steady_abortCapture (p : Nat) : (abortCapture p).Within steady :=
  within_look.mpr fun _ => by simp only [within_when, within_cons, within_nil, steady_set, steady_setPipe, implies_true, and_self]

theorem steady_writeLatency (p dt : Nat) : (writeLatency p dt).Within steady :=
  within_look.mpr fun _ => by simp only [within_cons, within_nil, within_forEach, steady_set, implies_true, and_self]

theorem steady_updateLatency (p : Nat) : (updateLatency p).Within steady := within_look.mpr fun _ => steady_writeLatency _ _

theorem steady_cancelSwap (c : Nat) : (cancelSwap c).Within steady := by
  simp only [cancelSwap, within_cons, within_nil, within_look, steady_setSwaps, steady_set, steady_setJournal, implies_true, and_self]

theorem steady_handover (c : Nat) : (handover c).Within steady := by
  have bist (nid : Nat) : (dev fun d => { d with pwr := { d.pwr with bist := nid :: d.pwr.bist } }).Within steady := steady_dev (fun _ => rfl) fun _ => rfl
  have swaps (f : List (Nat × SwapSt) → List (Nat × SwapSt)) : (dev fun d => { d with swaps := f d.swaps }).Within steady := steady_setSwaps f
  refine within_look.mpr fun s => ?_
  split
  · trivial
  · simp only [within_when, within_cons, within_nil, within_ite, bist, swaps (List.filter _), steady_set, steady_setState, steady_setJournal, steady_setFlag, steady_raise,
      steady_setPipe, implies_true, and_self]

theorem steady_powerPipe (p : Nat) : (powerPipe p).Within steady := by
  have cluster (c : Nat) : (powerCluster c).Within steady := within_look'.mpr fun _ => by
    simp only [within_ite, within_skip, within_cons, within_nil, within_when, steady_setDomain, steady_setState, implies_true, and_self]
  refine within_cons.mpr ⟨cluster _, within_cons.mpr ⟨within_look.mpr fun s => ?_, within_nil⟩⟩
  simp only [within_ite, within_skip, within_cons, within_nil, steady_setDomain, steady_setState, implies_true, and_self]

theorem steady_armSwap (c i n old spare : Nat) (auto : Bool) (guard : Nat) : (armSwap c i n old spare auto guard).Within steady := by
  have policies (f : PwrSt → List (Nat × Nat)) (g : PwrSt → List (Nat × Nat)) : (setPwr fun x => { x with policies := f x, resolved := g x }).Within steady :=
    steady_setPwr fun _ => rfl
  refine within_look.mpr fun s => ?_
  simp only [within_cons, within_nil, policies, steady_set, steady_writeLatency, steady_setSwaps, and_self]

theorem steady_autoSpare (p : Nat) : (autoSpare p).Within steady := by
  have words (old new : Nat) : (copyWords old new).Within steady := within_look.mpr fun s => by
    simp only [within_cons, within_nil, within_forEach, within_setReg, sparingDev_reg, steady_set, steady_updateLatency, implies_true, and_self]
  have bank (old new : Nat) : (copyBank old new).Within steady := within_look.mpr fun s => by
    simp only [within_cons, within_nil, within_look, steady_store, steady_set, implies_true, and_self]
  refine within_look.mpr fun s => ?_
  dsimp only
  split
  · trivial
  · simp only [within_ite, within_skip, within_cons, within_nil, within_when, within_look, steady_powerPipe, words, bank, steady_armSwap, steady_raise,
      implies_true, and_self]

/-! Rows that are assembled. -/

theorem steady_updRow (i n y : Nat) (f : RowSt → RowSt) : (updRow i n y f).Within steady := steady_setAsm _ _

theorem steady_dropLate (i h n y : Nat) : (dropLate i h n y).Within steady := by
  refine within_look.mpr fun s => ?_
  split
  · trivial
  · simp only [within_cons, within_nil, lateEvent, steady_setPipe, steady_bump, (steady_count _).2.2.1, steady_raiseLimited, and_self]

theorem steady_closeRow (i n y : Nat) (deadline : Bool) : (closeRow i n y deadline).Within steady := by
  have gone (d : Nat) : (remoteGone i d n).Within steady := by
    simp only [remoteGone, within_cons, within_nil, steady_setFlag, steady_bump, (steady_count _).2.1, steady_raiseLimited, and_self]
  have banks : (releaseBanks i).Within steady := within_look.mpr fun s => within_forEach.mpr fun p _ => within_when.mpr fun _ => steady_set _ _
  refine within_look.mpr fun s => ?_
  split
  · trivial
  · simp only [within_ite, within_skip, within_cons, within_nil, within_forEach, within_when, within_look, steady_updRow, steady_bump, steady_dropLate, gone,
      steady_setFlag, (steady_count _).2.1, steady_raiseLimited, steady_set, banks, steady_handover, implies_true, and_self]

theorem steady_closeIfResolved (i n y : Nat) : (closeIfResolved i n y).Within steady := by
  refine within_look.mpr fun s => ?_
  split
  · exact within_when.mpr fun _ => steady_closeRow _ _ _ _
  · trivial

theorem steady_headMissing (i h : Nat) : (headMissing i h).Within steady := within_look.mpr fun s => by
  simp only [within_cons, within_nil, within_forEach, steady_bump, steady_updRow, steady_closeIfResolved, implies_true, and_self]

/-! A node that fails (R64, R559). -/

theorem steady_nodeFault (nid cause : Nat) : (nodeFault nid cause).Within steady := within_look.mpr fun s => by
  simp only [within_ite, within_skip, within_cons, within_nil, within_forEach, within_when, steady_setState, (steady_count _).2.2.2, steady_raise,
    steady_abortCapture, steady_setPipe, steady_headMissing, steady_set, steady_cancelSwap, steady_autoSpare, implies_true, and_self]

end Sys2Proof.Machine
end


section
/-! The check of a region reads it, with what its errors do, and completes (R508, R519). -/

namespace Sys2Proof.Machine
open Reg

/-! The control complex starts again. -/

theorem steady_hwBusy (m : MbId) : (hwBusy m).Within steady :=
  within_hwBusy (fun m _ => sparingDev_serves ⟨fun _ _ _ _ _ _ => rfl, fun _ _ => rfl, fun _ _ _ => rfl⟩ m) (fun _ _ _ => rfl) (fun _ _ => rfl) m

theorem steady_setFwReady (v : Bool) : (setFwReady v).Within steady := within_forEach.mpr fun _ _ => steady_set _ _

theorem steady_restartComplex (slot : Nat) : (restartComplex slot).Within steady := within_look.mpr fun s => by
  simp only [within_cons, within_nil, within_look, within_forEach, steady_setFwReady, steady_set, steady_clearMem, steady_setBytes, eccMend, steady_setEcc,
    steady_setBoot, steady_hwBusy, implies_true, and_self]

theorem steady_watchdogRestart (cause : Nat) : (watchdogRestart cause).Within steady := by
  have slot (k : Nat) (v : Slot) : (setSlot k v).Within steady := steady_setBoot _
  have running (k : Nat) : (showRunning k).Within steady := within_look.mpr fun s => by simp only [within_cons, within_nil, steady_set, and_self]
  have other : showOther.Within steady := within_look.mpr fun s => steady_set _ _
  have reverts : (revertSwap cause).Within steady := within_look.mpr fun s => by
    simp only [within_cons, within_nil, slot, running, other, steady_setBoot, steady_set, steady_setFlag, steady_restartComplex, and_self]
  exact within_look.mpr fun s => by
    simp only [within_cons, within_nil, within_ite, steady_setFlag, steady_set, (steady_count _).1, reverts, steady_restartComplex, implies_true, and_self]

/-! No member is awaited for a command anew. -/

/-- A meaning within the footprint makes no member awaited. -/
theorem steady_awaited {p : Prog} (h : p.Within steady) (seq : Nat) : Keeps (fun s => s.awaited seq) p := fun s => by
  have kept : (run p s).dev.ctlWaits = s.dev.ctlWaits := congrArg Prod.snd (h.sparedDev s)
  simp only [State.awaited, kept]

theorem awaited_of_closing {d d' : Dev} (h : closingKeeps d' = closingKeeps d) (seq : Nat) :
    (d'.ctlWaits.any fun w => w.use = .completion seq) = d.ctlWaits.any fun w => w.use = .completion seq := by
  have filtered (l : List CtlWait) : (l.any fun w => w.use = .completion seq) = (l.filter fun w => w.use.completes).any fun w => w.use = .completion seq := by
    rw [List.any_filter]
    congr 1
    funext w
    cases e : w.use <;> simp [CtlFor.completes]
  have kept : (d'.ctlWaits.filter fun w => w.use.completes) = d.ctlWaits.filter fun w => w.use.completes := congrArg Prod.snd h
  rw [filtered, kept, ← filtered]

/-- Closing streams makes no member awaited for a command. -/
theorem calm_awaited (seq : Nat) : Calm fun s => s.awaited seq = false where
  aside := (aside_untold (untold_dev (g := fun d => d.ctlWaits.any fun w => w.use = .completion seq) fun _ _ _ _ _ _ => rfl)).comp fun x => x = false
  rest _ h s := congrArg (fun x => x = false)
    (h.dev (g := fun d => d.ctlWaits.any fun w => w.use = .completion seq) (fun _ d hf => awaited_of_closing (hf d) seq) s)
  clears _ _ f _ s hs := by
    show (run (set f 0) s).awaited seq = false
    rw [State.awaited, set_dev]
    exact hs

/-! A region that is read (R508). -/

theorem steady_noteCe (a : Nat) : (noteCe a).Within steady := within_look.mpr fun s => by
  simp only [within_cons, within_nil, steady_setFlag, steady_bump, (steady_count _).1, steady_completes.raiseLimitedIn, and_self]

theorem steady_noteUe (a row cls : Nat) (patrol : Bool) : (noteUe a row cls patrol).Within steady := within_fresh fun syn => within_look.mpr fun s => by
  simp only [within_cons, within_nil, within_when, steady_set, steady_setFlag, steady_bump, steady_countClass, steady_completes.raiseIn, implies_true, and_self]

theorem steady_eccRead (a len : Nat) (job : Bool) : (eccRead a len job).Within steady := within_look.mpr fun s => by
  simp only [within_cons, within_nil, within_forEach, within_look, steady_noteCe, steady_setEcc, steady_noteUe, implies_true, and_self]

theorem ueOutcome_alone (a seq : Nat) : Stays (fun s => s.awaited seq = false) (ueOutcome a) := by
  have steadily {p : Prog} (h : p.Within steady) : Stays (fun s => s.awaited seq = false) p := fun s hs => (steady_awaited h seq s).trans hs
  refine stays_look fun s => ?_
  split
  · exact steadily (steady_watchdogRestart _)
  · exact (calm_awaited seq).safeHold _
  · exact steadily (steady_nodeFault _ _)
  · exact stays_when fun _ => steadily (steady_nodeFault _ _)
  · exact stays_skip

theorem readRange_alone (a len seq : Nat) : Stays (fun s => s.awaited seq = false) (readRange a len) :=
  stays_look fun _ => stays_cons (fun s hs => (steady_awaited (steady_eccRead a len false) seq s).trans hs)
    (stays_cons (stays_forEach fun _ _ => ueOutcome_alone _ seq) stays_nil)

/-! The check completes. -/

/-- A command that is carried out in its context is completed when nothing of it ends it before. -/
theorem run_finishCtx {cls code node : Nat} {k : Ctx → Cmd → Prog} {e : Cmd} {c : Ctx} {s : State} (p : s.pendingCmd cls code node = some e)
    (ctx : e.ctx s = some c) : run (finishCtx cls code node (fun _ _ => none) k) s = run (completion e.seq 0) (run (k c e) s) := by
  rw [finishCtx, run_look, p]
  simp only [ctx]
  exact (run_block_cons ..).trans (run_block_cons ..)

/-- What the check of a region does once its command is found. -/
def checksRegion (c : Ctx) (e : Cmd) : Prog :=
  if c.farRegion then fresh fun v => putResult e (tlvBytes [checkTlv v])
  else block [readRange (c.val 0x10) (c.val 0x11), look fun s => putResult e (tlvBytes [checkTlv (crcOver c s)])]

theorem checksRegion_alone (c : Ctx) (e : Cmd) (seq : Nat) : Stays (fun s => s.awaited seq = false) (checksRegion c e) := by
  have puts (bs : List Byte) : (putResult e bs).Within steady :=
    within_when.mpr fun _ => within_cons.mpr ⟨steady_setBytes _ _, within_cons.mpr ⟨steady_setJournal _, within_nil⟩⟩
  have steadily {p : Prog} (h : p.Within steady) : Stays (fun s => s.awaited seq = false) p := fun s hs => (steady_awaited h seq s).trans hs
  exact stays_ite (fun _ => steadily (within_fresh fun _ => puts _))
    fun _ => stays_cons (readRange_alone _ _ _) (stays_cons (stays_look fun _ => steadily (puts _)) stays_nil)

theorem crcComputeDone_completes {e : Cmd} {s : State} (pending : s.pendingCmd 14 2 1 = some e) (ctx : (e.ctx s).isSome = true)
    (alone : s.awaited e.seq = false) : Answers .crcComputeDone s fun t => ∀ x ∈ t.dev.journal, x.seq ≠ e.seq := by
  obtain ⟨c, found⟩ := Option.isSome_iff_exists.mp ctx
  have shape : exec .crcComputeDone s = .next (run (completion e.seq 0) (run (checksRegion c e) s)) :=
    congrArg Host.Outcome.next (run_finishCtx (k := checksRegion) pending found)
  exact answers_next shape (completion_drops e.seq 0 _ (checksRegion_alone c e e.seq s alone))

/-- Settles O35. -/
theorem integrityFaultsAreKept : Obligations.IntegrityFaultsAreKept := by
  unfold Obligations.IntegrityFaultsAreKept
  exact ⟨fun a s => eccWriteback_mends a s,
    fun _ _ _ _ owned ce none_ => patrolRead_corrects owned ce none_,
    fun _ _ _ _ owned none_ ue => patrolRead_finds owned none_ ue,
    fun _ _ boot cool started => lockstepMismatch_boot cool started boot,
    fun _ _ up awake cool started first still => lockstepMismatch_restarts cool started up awake first still,
    fun _ _ ready lo hi => headerWordRepair_mends ready lo hi,
    fun _ _ pending ctx alone => crcComputeDone_completes pending ctx alone,
    fun _ _ _ _ _ pending alone => bistRunDone_completes pending alone⟩

end Sys2Proof.Machine
end


section
/-! Pipelines and clusters wake, idle and power down (R71, R73, R74, R76), and what wakes the device (R94). -/

namespace Sys2Proof.Machine
open Reg

/-! Taking a state, and powering a domain, leave the device and each other alone. -/

theorem setState_dev (nid st : Nat) (s : State) : (run (setState nid st) s).dev = s.dev := by
  simp only [setState, run_look]
  split
  · rfl
  · simp only [run_block_cons, run_block_nil, set_dev]

theorem setDomain_dev (d : Nat) (on ret : Bool) (s : State) : (run (setDomain d on ret) s).dev = s.dev := by
  simp only [setDomain, run_look, run_block_cons, run_block_nil, set_dev]

/-- A field of a pipeline's sleep is the table's. -/
theorem setSleep_sleep (p v : Nat) (s : State) : (run (setSleep p v) s).sleep p = v := Tbl.get_set_same _ _ _ _

theorem setSleep_get (p v : Nat) (s : State) (f : Fld) : (run (setSleep p v) s).get f = s.get f := by rw [setSleep, setPwr, run_dev, get_dev]

/-- The words that show power domains are not those of node headers. -/
theorem setState_domains {nid : Nat} (st : Nat) {d : Nat} (hd : d < 93) (s : State) :
    (run (setState nid st) s).domainOn d = s.domainOn d ∧ (run (setState nid st) s).domainRet d = s.domainRet d := by
  have spares {f : Fld} (w : f.width ≤ 32) (at_ : f.addr < 0x01100000) : (setState nid st).Within (sparing f) := by
    refine within_look'.mpr fun s => within_ite.mpr ⟨fun _ => trivial, fun _ => ?_⟩
    simp only [within_cons, within_nil, within_set, sparing_narrow w]
    simp [Node.state, Node.timeSec, Node.timeNs]
    omega
  have on_ := (spares (f := Dom.domainOn (d / 32)) (Nat.le_refl 32) (by simp only [Dom.domainOn]; omega)).spared s
  have ret_ := (spares (f := Dom.domainRet (d / 32)) (Nat.le_refl 32) (by simp only [Dom.domainRet]; omega)).spared s
  exact ⟨congrArg (bit · (d % 32)) on_, congrArg (bit · (d % 32)) ret_⟩

section
variable {p : Fin 64} {s : State}

theorem whole_pipeState (p : Fin 64) : (Node.state (nidPipe p.val)).Whole := by revert p; decide

theorem pipelineWakeDone_wakes (waking : s.sleep p.val = 4) :
    Answers (.pipelineWakeDone p) s fun t => t.get (Node.state (nidPipe p.val)) = stRunning ∧ t.domainOn (29 + p.val) = true
      ∧ t.domainRet (29 + p.val) = false ∧ t.sleep p.val = 0 := by
  have small : 29 + p.val < 93 := by omega
  have shape : exec (.pipelineWakeDone p) s = .next (run (setState (nidPipe p.val) stRunning) (run (setDomain (29 + p.val) true false) (run (setSleep p.val 0) s))) := by
    show execPipelineWakeDone p s = _
    simp only [execPipelineWakeDone, wakeDone, run_look', waking, decide_true, run_when_true, run_block_cons, run_block_nil]
  refine answers_next shape ⟨setState_get (whole_pipeState p) (by decide) _, ?_, ?_, ?_⟩
  · rw [(setState_domains _ small _).1, domainOn_setDomain small, if_pos rfl]
  · rw [(setState_domains _ small _).2, domainRet_setDomain small small, if_pos rfl]
  · rw [State.sleep, setState_dev, setDomain_dev]
    exact setSleep_sleep _ _ _

theorem pipelineIdleTimeout_gates (bound : s.boundAdmitted p.val = true) (running : s.get (Node.state (nidPipe p.val)) = stRunning) (sleeps : s.policy p.val ≠ 0) :
    Answers (.pipelineIdleTimeout p) s fun t => t.get (Node.state (nidPipe p.val)) = stGated ∧ (2 ≤ s.policy p.val → t.sleep p.val = 1)
      ∧ (s.policy p.val = 1 → t.sleep p.val = s.sleep p.val) := by
  have shape : exec (.pipelineIdleTimeout p) s = .next (run (when (2 ≤ s.policy p.val) (setSleep p.val 1)) (run (setState (nidPipe p.val) stGated) s)) := by
    show execPipelineIdleTimeout p s = _
    simp only [execPipelineIdleTimeout, run_look', bound, running, sleeps, Bool.not_true, Bool.false_eq_true, ne_eq, not_true_eq_false, or_self, if_false,
      run_block_cons, run_block_nil]
  refine answers_next shape ⟨?_, fun deep => ?_, fun light => ?_⟩
  · have kept : Keeps (fun s => s.get (Node.state (nidPipe p.val))) (when (2 ≤ s.policy p.val) (setSleep p.val 1)) := keeps_when fun _ => rfl
    rw [kept.get]
    exact setState_get (whole_pipeState p) (by decide) s
  · rw [decide_eq_true deep, run_when_true]
    exact setSleep_sleep _ _ _
  · rw [light, show decide (2 ≤ 1) = false by decide, run_when_false, State.sleep, setState_dev]
    rfl

theorem pipelinePowerDownDone_retains (asleep : s.sleep p.val = 1) :
    Answers (.pipelinePowerDownDone p) s fun t => t.get (Node.state (nidPipe p.val)) = stRetained ∧ t.domainOn (29 + p.val) = false
      ∧ t.domainRet (29 + p.val) = true ∧ t.sleep p.val = 0 := by
  have small : 29 + p.val < 93 := by omega
  have shape : exec (.pipelinePowerDownDone p) s = .next (run (setSleep p.val 0) (run (setDomain (29 + p.val) false true) (run (setState (nidPipe p.val) stRetained) s))) := by
    show execPipelinePowerDownDone p s = _
    simp only [execPipelinePowerDownDone, run_look', asleep, true_or, if_true, run_block_cons, run_block_nil, show decide (1 = 3) = false by decide, run_when_false]
  refine answers_next shape ⟨?_, ?_, ?_, setSleep_sleep _ _ _⟩
  · rw [setSleep_get, setDomain_node _ small, setState_get (whole_pipeState p) (by decide)]
  · rw [State.domainOn, setSleep_get, ← State.domainOn, domainOn_setDomain small, if_pos rfl]
  · rw [State.domainRet, setSleep_get, ← State.domainRet, domainRet_setDomain small small, if_pos rfl]

end

theorem clusterIdleTimeout_gates {c : Fin 8} {s : State} (running : s.get (Node.state (nidCluster c.val)) = stRunning)
    (idle : ∀ j : Fin 8, (s.get (Node.state (nidPipe (8 * c.val + j.val))) = stOff ∨ s.get (Node.state (nidPipe (8 * c.val + j.val))) = stRetained)
      ∧ s.boundStarted (8 * c.val + j.val) = false) :
    Answers (.clusterIdleTimeout c) s fun t => t.get (Node.state (nidCluster c.val)) = stGated ∧ c.val ∉ t.dev.pwr.plls := by
  have whole : (Node.state (nidCluster c.val)).Whole := by clear running idle; revert c; decide
  have all : ((List.range 8).all fun k => (s.get (Node.state (nidPipe (8 * c.val + k))) = stOff || s.get (Node.state (nidPipe (8 * c.val + k))) = stRetained)
      && !s.boundStarted (8 * c.val + k)) = true := by
    refine List.all_eq_true.mpr fun k hk => ?_
    obtain ⟨state, unstarted⟩ := idle ⟨k, List.mem_range.mp hk⟩
    simpa [unstarted] using state
  have shape : exec (.clusterIdleTimeout c) s = .next (run (setState (nidCluster c.val) stGated)
      (run (setPwr fun x => { x with plls := x.plls.filter (· ≠ c.val) }) s)) := by
    show execClusterIdleTimeout c s = _
    simp only [execClusterIdleTimeout, run_look', all, running, decide_true, run_when_true, run_block_cons, run_block_nil]
  refine answers_next shape ⟨setState_get whole (by decide) _, ?_⟩
  rw [setState_dev]
  show c.val ∉ s.dev.pwr.plls.filter _
  simp

section
variable {s : State} (standby : s.mode = mStandby) (quiet : s.on ModeReg.pending = false)
include standby quiet

theorem ucieSidebandActivity_wakes (root : s.on BootReg.role = false) (enabled : bit s.dev.pwr.wakeMask 1 = true) :
    Answers .ucieSidebandActivity s fun t => t.on ModeReg.pending = true ∧ t.get ModeReg.target = mArmed ∧ t.get ModeReg.wakeSrc = 2 ∧ t.mode = mStandby := by
  refine answers_next rfl ?_
  rw [root, Bool.not_false, run_when_true]
  exact wake_standby 1 (by decide) s standby quiet enabled

theorem cascadeLaneEnergy_wakes (satellite : s.on BootReg.role = true) (enabled : bit s.dev.pwr.wakeMask 2 = true) :
    Answers .cascadeLaneEnergy s fun t => t.on ModeReg.pending = true ∧ t.get ModeReg.target = mArmed ∧ t.get ModeReg.wakeSrc = 3 ∧ t.mode = mStandby := by
  refine answers_next rfl ?_
  rw [satellite, run_when_true]
  exact wake_standby 2 (by decide) s standby quiet enabled

end

end Sys2Proof.Machine
end


section
/-! Changes of mode (R55, R58, Table 2-16). -/

namespace Sys2Proof.Machine
open Reg

theorem mode_wholes : ModeReg.modeF.Whole ∧ ModeReg.target.Whole ∧ ModeReg.pending.Whole ∧ ModeReg.cause.Whole := by decide

/-- A field of the word that shows the mode. -/
abbrev ModeWord (f : Fld) : Prop := f.addr = 0x01000100 ∧ f.width ≤ 32

theorem modeWord_completes {f : Fld} (h : ModeWord f) : (sparing f).Completes := sparing_completes (by simp only [Told]; omega) (.inl h.2)

/-- The device shows that it is in a mode, and why. -/
def InMode (m cause : Nat) (s : State) : Prop := s.get ModeReg.modeF = m ∧ s.get ModeReg.pending = 0 ∧ s.get ModeReg.cause = cause

/-- A meaning that spares the word of the mode leaves the device in its mode. -/
theorem InMode.stays {p : Prog} (h : ∀ f, ModeWord f → Keeps (fun s => s.get f) p) (m cause : Nat) : Stays (InMode m cause) p := fun s hs => by
  obtain ⟨mode, pending, why⟩ := hs
  exact ⟨(h ModeReg.modeF (by decide) s).trans mode, (h ModeReg.pending (by decide) s).trans pending, (h ModeReg.cause (by decide) s).trans why⟩

theorem InMode.shown {m cause : Nat} {s : State} (h : InMode m cause s) : s.mode = m ∧ s.on ModeReg.pending = false ∧ s.get ModeReg.cause = cause := by
  obtain ⟨mode, pending, why⟩ := h
  exact ⟨mode, by rw [State.on, pending]; rfl, why⟩

theorem mode_setDomain {d : Nat} (hd : d < 93) (on ret : Bool) {f : Fld} (h : ModeWord f) : Keeps (fun s => s.get f) (setDomain d on ret) :=
  (within_setDomain (fun a ha => (sparing_narrow h.2 a).mpr (by simp only [PowerWord] at ha; omega)) hd on ret).keepsGet

/-- What follows the change of the word itself. -/
def tellsMode (new old cause : Nat) : Prog := block [setState 1 (deviceState new), raiseIn false 3 1 1 (leBytes 1 new ++ leBytes 1 old ++ leBytes 1 cause),
    raiseAlert 2, when (new = mSafeHold) (raiseAlert 5)]

theorem tellsMode_keeps (new old cause : Nat) {f : Fld} (h : ModeWord f) : Keeps (fun s => s.get f) (tellsMode new old cause) := by
  have node : Keeps (fun s => s.get f) (setState 1 (deviceState new)) :=
    (within_setState (fun a ha => (sparing_narrow h.2 a).mpr (by simp only [PowerWord] at ha; omega)) (by decide) _).keepsGet
  have alert (k : Nat) : Keeps (fun s => s.get f) (raiseAlert k) := fun s => raiseAlert_get k s f
  exact keeps_cons node (keeps_cons ((modeWord_completes h).raiseIn _ _ _ _ _ _).keepsGet (keeps_cons (alert 2) (keeps_cons (keeps_when fun _ => alert 5 _) keeps_nil)))

theorem modeChange_enters {new cause : Nat} (hn : new < 8) (hc : cause < 256) (s : State) : InMode new cause (run (modeChange new cause) s) := by
  obtain ⟨wMode, wTarget, wPending, wCause⟩ := mode_wholes
  have shape : run (modeChange new cause) s = run (tellsMode new s.mode cause) (run (set ModeReg.cause cause) (run (set ModeReg.pending 0)
      (run (set ModeReg.target new) (run (set ModeReg.modeF new) s)))) := by
    simp only [modeChange, run_look', run_block_cons, run_block_nil, tellsMode]
  rw [shape]
  refine InMode.stays (fun f hf => tellsMode_keeps new s.mode cause hf) new cause _ ?_
  unfold InMode
  simp (disch := first | assumption | (refine id ?_; dsimp only [ModeReg.modeF, ModeReg.target, ModeReg.pending, ModeReg.cause]; omega) | fail) only
    [get_set_apart, get_set_same]
  exact ⟨Nat.mod_eq_of_lt hn, rfl, Nat.mod_eq_of_lt hc⟩

/-- The commands that asked for a mode are completed. -/
def modeDone : Prog := block [finish 3 2 1 (fun _ => .skip) 0, finish 3 9 1 (fun _ => .skip) 0]

theorem modeDone_completes {F : Foot} (h : F.Completes) : modeDone.Within F :=
  within_cons.mpr ⟨h.finish (fun _ => within_skip) _, within_cons.mpr ⟨h.finish (fun _ => within_skip) _, within_nil⟩⟩

theorem modeDone_stays (m cause : Nat) : Stays (InMode m cause) modeDone :=
  InMode.stays (fun _ h => (modeDone_completes (modeWord_completes h)).keepsGet) m cause

/-! Waking (R94). -/

/-- What follows the change of the mode when the device wakes. -/
def afterWaking (s : State) : Prog := block [debugDomain, raiseIn false 3 2 1 (leBytes 1 (s.get ModeReg.wakeSrc)),
  when (!s.on BootReg.role) (forEach (List.range 4) fun q => when (s.on (Quad.enable q)) (emit (.idle q))), resumePulses]

theorem afterWaking_keeps (s : State) {f : Fld} (h : ModeWord f) : Keeps (fun s => s.get f) (afterWaking s) := by
  have complete := modeWord_completes h
  have pulse (u : Nat) (hu : u < 16) (missed : Bool) : (pulseDone u missed).Within (sparing f) := by
    have enable : (set (Pulse.enable u) 0).Within (sparing f) :=
      within_set.mpr ⟨(sparing_narrow h.2 _).mpr (by simp only [Pulse.enable]; omega), fun wide => absurd wide (by simp [Pulse.enable])⟩
    exact within_cons.mpr ⟨enable, within_cons.mpr ⟨complete.raise _ _ _ _, within_nil⟩⟩
  have resumes : resumePulses.Within (sparing f) := within_forEach.mpr fun u hu => within_look.mpr fun s =>
    within_ite.mpr ⟨fun _ => trivial, fun _ => within_ite.mpr ⟨fun _ => within_dev.mpr trivial, fun _ => within_when.mpr fun _ => pulse u (List.mem_range.mp hu) _⟩⟩
  exact keeps_cons (keeps_look fun _ => (mode_setDomain (by decide) _ _ h).get) (keeps_cons (complete.raiseIn _ _ _ _ _ _).keepsGet
    (keeps_cons (keeps_when (keeps_forEach fun _ _ => keeps_when fun _ => rfl)) (keeps_cons resumes.keepsGet keeps_nil)))

section
variable {s : State} (pending : s.on ModeReg.pending = true)
include pending

theorem modeTransitionDone_wakes (target : s.get ModeReg.target = mArmed) (standby : s.mode = mStandby) :
    Answers .modeTransitionDone s fun t => t.mode = mArmed ∧ t.on ModeReg.pending = false ∧ t.get ModeReg.cause = byWake := by
  have shape : exec .modeTransitionDone s = .next (run modeDone (run (afterWaking s) (run (modeChange mArmed byWake) (run powerRoot s)))) := by
    show execModeTransitionDone s = _
    simp only [execModeTransitionDone, run_look', pending, target, standby, Bool.not_true, Bool.false_eq_true, if_false, show mArmed ≠ mStandby by decide,
      show mArmed ≠ mMaintenance by decide, if_true, run_block_cons, run_block_nil, wakeUp, afterWaking, modeDone]
  have entered := modeChange_enters (new := mArmed) (cause := byWake) (by decide) (by decide) (run powerRoot s)
  exact answers_next shape (modeDone_stays _ _ _ (InMode.stays (fun _ h => afterWaking_keeps s h) _ _ _ entered)).shown

end

/-! Leaving the thermal Stop state. -/

/-- The footprint of what leaves it open whether a fault is live. -/
abbrev sparingFault : Foot := sparingDev fun d => d.pwr.faultLive

theorem fault_completes : sparingFault.Completes := sparingDev_completes (fun _ _ _ _ _ _ => rfl) fun _ _ => rfl

theorem fault_setJob (j : Nat) (f : JobSt → JobSt) : (setJob j f).Within sparingFault := within_dev.mpr fun _ => rfl

theorem fault_fetchMore (j : Nat) : (fetchMore j).Within sparingFault := by
  refine within_look.mpr fun s => ?_
  split
  · trivial
  · have fn : boolNat (s.jobWorld j) < 2 := by cases s.jobWorld j <;> decide
    have flag : (bridgeFlag (boolNat (s.jobWorld j)) Bridge.bmeDiscard).Within sparingFault :=
      fault_completes.bridgeFlag fn (by simp [Bridge.bmeDiscard]) (by simp only [Told, Bridge.bmeDiscard]; omega) (by simp only [Told, Bridge.bmeDiscard]; omega)
    refine within_look.mpr fun s => ?_
    simp only [within_ite, within_cons, within_nil, fault_completes.setHost, within_emit, within_bump, sparingDev_reg, sparingDev_out, flag, countDropped,
      fault_setJob, implies_true, and_self]

theorem fault_jobNext (j : Nat) : (jobNext j).Within sparingFault := by
  have ends (st : Nat) : (jobEnds j st).Within sparingFault := within_cons.mpr ⟨fault_setJob _ _, within_nil⟩
  refine within_look.mpr fun s => ?_
  split
  · trivial
  · simp only [within_ite, ends, within_skip, implies_true, true_and]
    intros
    split
    · exact fault_setJob _ _
    · exact within_ite.mpr ⟨fun _ => within_cons.mpr ⟨fault_setJob _ _, within_cons.mpr ⟨fault_fetchMore _, within_nil⟩⟩, fun _ => trivial⟩

theorem fault_leaveStop : execModeTransitionDone.leaveStop.Within sparingFault := by
  have alert : (raiseAlert 3).Within sparingFault := within_look'.mpr fun s => within_ite.mpr ⟨fun _ => within_dev.mpr fun _ => rfl, fun _ => trivial⟩
  have power : (setPwr fun x => { x with inEffect := [] }).Within sparingFault := within_dev.mpr fun _ => rfl
  have jobs : resumeJobs.Within sparingFault := by
    refine within_forEach.mpr fun j _ => within_look.mpr fun s => within_when.mpr fun _ => within_cons.mpr ⟨by simp, within_cons.mpr ⟨?_, within_nil⟩⟩
    split
    · exact within_when.mpr fun _ => fault_jobNext j
    · trivial
  refine within_look.mpr fun s => within_when.mpr fun _ => ?_
  simp only [within_cons, within_nil, within_set, sparingDev_reg, alert, power, jobs, implies_true, and_self]

/-- A change of mode tells nothing of faults. -/
theorem fault_modeChange (new cause : Nat) : (modeChange new cause).Within sparingFault := by
  have alert (k : Nat) : (raiseAlert k).Within sparingFault := within_look'.mpr fun s => within_ite.mpr ⟨fun _ => within_dev.mpr fun _ => rfl, fun _ => trivial⟩
  have node : (setState 1 (deviceState new)).Within sparingFault := within_setState (fun _ _ => trivial) (by decide) _
  refine within_look.mpr fun s => ?_
  simp only [within_cons, within_nil, within_when, within_set, sparingDev_reg, node, fault_completes.raiseIn, alert, implies_true, and_self]

section
variable {s : State} (pending : s.on ModeReg.pending = true)
include pending

theorem modeTransitionDone_leavesStop (target : s.get ModeReg.target = mArmed) (safe : s.mode = mSafeHold) :
    Answers .modeTransitionDone s fun t => t.mode = mArmed ∧ t.on ModeReg.pending = false ∧ t.get ModeReg.cause = byCommand ∧ t.dev.pwr.faultLive = false := by
  obtain ⟨u, cleared⟩ : ∃ u, run (setPwr fun p => { p with faultLive := false, stopping := false }) s = u := ⟨_, rfl⟩
  have shape : exec .modeTransitionDone s = .next (run modeDone (run (modeChange mArmed byCommand) (run execModeTransitionDone.leaveStop u))) := by
    show execModeTransitionDone s = _
    simp only [execModeTransitionDone, run_look', pending, target, safe, Bool.not_true, Bool.false_eq_true, if_false, show mArmed ≠ mStandby by decide,
      show mArmed ≠ mMaintenance by decide, show mSafeHold ≠ mStandby by decide, show mSafeHold ≠ mMaintenance by decide, run_block_cons, run_block_nil, modeDone,
      ← cleared]
  obtain ⟨mode, quiet, why⟩ := (modeDone_stays _ _ _ (modeChange_enters (new := mArmed) (cause := byCommand) (by decide) (by decide)
    (run execModeTransitionDone.leaveStop u))).shown
  refine answers_next shape ⟨mode, quiet, why, ?_⟩
  have fault := (modeDone_completes fault_completes).sparedDev (run (modeChange mArmed byCommand) (run execModeTransitionDone.leaveStop u))
  have change := (fault_modeChange mArmed byCommand).sparedDev (run execModeTransitionDone.leaveStop u)
  have leaves := fault_leaveStop.sparedDev u
  rw [fault, change, leaves, ← cleared]
  rfl

theorem modeTransitionDone_maintains (target : s.get ModeReg.target = mMaintenance) :
    Answers .modeTransitionDone s fun t => t.mode = mMaintenance ∧ t.on ModeReg.pending = false ∧ t.get ModeReg.cause = byCommand := by
  obtain ⟨u, shape⟩ : ∃ u, exec .modeTransitionDone s = .next (run modeDone (run (modeChange mMaintenance byCommand) u)) := by
    show ∃ u, execModeTransitionDone s = .next (run modeDone (run (modeChange mMaintenance byCommand) u))
    simp only [execModeTransitionDone, run_look', pending, target, Bool.not_true, Bool.false_eq_true, if_false, show mMaintenance ≠ mStandby by decide, if_true,
      run_block_cons, run_block_nil, modeDone, enterMaintenance]
    exact ⟨_, rfl⟩
  exact answers_next shape (modeDone_stays _ _ _ (modeChange_enters (by decide) (by decide) u)).shown

end

end Sys2Proof.Machine
end


section
/-! A slot that no trigger will fill is resolved, and with it what its pipeline measures and screens (R249, R320, R338): no member becomes awaited, and
no wake-up is noted. -/

namespace Sys2Proof.Machine
open Reg

/-! Records of a stream. -/

theorem steady_raiseStreamLimited (code i sub : Nat) (data : Nat → List Byte) : (raiseStreamLimited code i sub data).Within steady :=
  within_look.mpr fun _ => steady_completes.raiseLimitedIn _ _ _ _ _ _ _ _

theorem steady_discardRecord (i : Nat) (r : EgRec) : (discardRecord i r).Within steady := by
  have drop : (dropRow i 1).Within steady := within_cons.mpr ⟨steady_setStream _ _, within_cons.mpr ⟨steady_bumpBy _ _, within_nil⟩⟩
  simp only [discardRecord, within_cons, within_nil, within_ite, steady_bump, steady_setFlag, steady_setStream, (steady_count _).2.2.1, drop,
    steady_raiseStreamLimited, implies_true, and_self]

theorem steady_sendWhole {q : Nat} (hq : q < 4) (type cls dst : Nat) (bs : List Byte) : (sendWhole q type cls dst bs).Within steady :=
  within_look.mpr fun s => by simp only [within_forEach, steady_completes.sendPacket hq, implies_true]

theorem steady_sendSide (type i flags trigger : Nat) (payload : List Byte) : (sendSide type i flags trigger payload).Within steady := by
  have parity : (noteParity 1 0xFF 3 1 false).Within steady := by
    have cleared : (dev fun d => { d with sec := { d.sec with injected := none } }).Within steady := steady_dev (fun _ => rfl) fun _ => rfl
    simp only [noteParity, within_cons, within_nil, within_when, steady_setFlag, steady_bump, steady_countClass, cleared, steady_raiseLimited, implies_true, and_self]
  have queues (r : EgRec) : (enqueueRecord i r).Within steady := within_look.mpr fun s => by
    simp only [within_ite, within_cons, within_nil, within_when, parity, steady_discardRecord, steady_setAsm, steady_setStream, implies_true, and_self]
  refine within_look.mpr fun s => ?_
  simp only [within_ite, within_cons, within_nil, steady_setStream, steady_discardRecord, queues, implies_true, true_and, and_true]
  intro _
  split
  next q up => exact steady_sendWhole (upstream_lt up) _ _ _ _
  · trivial

/-! What a pipeline measures and screens. -/

theorem steady_setHead (p k : Nat) (f : HeadSt → HeadSt) : (setHead p k f).Within steady := steady_setPipe _ _

theorem steady_closePeriod (p k n : Nat) (isPartial : Bool) : (closePeriod p k n isPartial).Within steady := by
  refine within_look.mpr fun s => ?_
  split
  · trivial
  · simp only [within_cons, within_nil, within_when, steady_sendSide, steady_bump, steady_raiseStage, steady_setHead, implies_true, and_self]

theorem steady_applyArmed (p n : Nat) (stages : Nat → Bool) : (applyArmed p n stages).Within steady := by
  have noted (a : Armed) : (noteApplied p a).Within steady := within_look.mpr fun s => by
    simp only [within_ite, within_skip, within_cons, within_nil, steady_set, steady_setFlag, steady_raiseStage, implies_true, and_self]
  have switched (n : Nat) : (switchBank p n).Within steady := within_look.mpr fun s => by
    simp only [within_cons, within_nil, steady_set, steady_setFlag, steady_raiseStage, and_self]
  have settles : settleArmed.Within steady := within_look.mpr fun s => steady_setJournal _
  refine within_look.mpr fun s => ?_
  simp only [within_cons, within_nil, within_forEach, within_look, within_ite, within_when, within_setReg, sparingDev_reg, steady_setPipe, switched, noted, settles,
    implies_true, and_self]

theorem steady_closeTiles (p k row areaRow : Nat) (isPartial : Bool) : (closeTiles p k row areaRow isPartial).Within steady := by
  have limited (c k n st : Nat) (d : Nat → List Byte) : (raiseLimitedStage c k n st d).Within steady := steady_completes.raiseLimitedStage _ _ _ _ _
  refine within_look.mpr fun s => ?_
  split
  · simp only [within_cons, within_nil, within_forEach, within_when, steady_setHead, steady_sendSide, steady_bumpBy, steady_bump, steady_setFlag, limited,
      steady_setPipe, steady_raiseStage, implies_true, true_and, and_true]
    split
    · exact within_when.mpr fun _ => within_look.mpr fun _ => steady_setHead _ _ _
    · trivial
  · trivial

theorem steady_tileMark (p k row areaRow pos : Nat) (line : Option TileLine) : (tileMark p k row areaRow pos line).Within steady := by
  refine within_look.mpr fun s => ?_
  split
  · trivial
  · simp only [within_ite, within_skip, within_cons, within_nil, within_when, within_look, steady_applyArmed, steady_setHead, implies_true, true_and, and_true]
    intro _ t
    split
    · exact within_when.mpr fun _ => steady_closeTiles _ _ _ _ _
    · trivial

theorem steady_measureLost (p k n : Nat) (absent : Bool) : (measureLost p k n absent).Within steady := by
  refine within_look.mpr fun s => ?_
  split
  · trivial
  · simp only [within_cons, within_nil, within_when, within_ite, within_forEach, steady_setHead, steady_tileMark, steady_closePeriod, implies_true, and_self]

/-! A slot whose trigger is lost. -/

theorem steady_slotAbsent (i h n : Nat) : (slotAbsent i h n).Within steady := by
  have slot : (resolveSlot i n h 3).Within steady := within_look.mpr fun s => by
    simp only [within_forEach, within_cons, within_nil, steady_updRow, steady_closeIfResolved, implies_true, and_self]
  have absent : (resolveAbsent i h n).Within steady := by
    refine within_cons.mpr ⟨slot, within_cons.mpr ⟨within_look.mpr fun s => ?_, within_nil⟩⟩
    split
    · exact steady_measureLost _ _ _ _
    · trivial
  simp only [slotAbsent, within_cons, within_nil, steady_bump, (steady_count _).2.1, steady_raiseLimited, absent, and_self]

theorem steady_cascadeLost (i h n : Nat) : (cascadeLost i h n).Within steady := by
  simp only [cascadeLost, within_cons, within_nil, steady_setFlag, steady_bump, (steady_count _).2.1, steady_raiseLimited, steady_slotAbsent, and_self]

end Sys2Proof.Machine
end


section
/-! The device enters Standby: what wakes it later is as it was (R55, R58). -/

namespace Sys2Proof.Machine
open Reg

/-- A meaning within a footprint is within a wider one. -/
theorem Prog.Within.mono {F G : Foot} {p : Prog} (h : p.Within F) (wider : ∀ a, F.Allows a → G.Allows a) : p.Within G := by
  induction p with
  | skip => trivial
  | act a k ih => exact ⟨wider a h.1, ih h.2⟩
  | look f ih => exact fun s => ih s (h s)

/-- The footprint of what notes no wake-up. -/
abbrev wakeless : Foot := sparingDev fun d => d.pwr.wakeNext

theorem steady_wakeless {p : Prog} (h : p.Within steady) : p.Within wakeless := h.mono fun a ha => by
  cases a with
  | dev f => exact fun d => congrArg Prod.fst (ha d)
  | _ => trivial

/-! Links that fall (R459, R466). -/

theorem steady_setQuad (q : Nat) (f : QuadSt → QuadSt) : (setQuad q f).Within steady := steady_completes.setQuad q f

theorem steady_linkAfresh (q : Nat) (fallen : Bool) : (linkAfresh q fallen).Within steady := by
  have trigs (ts : List TrigMsg) : (loseTrigs q ts).Within steady := within_look.mpr fun s => by
    simp only [within_forEach, within_cons, within_nil, within_when, steady_bump, steady_cascadeLost, implies_true, and_self]
  refine within_look.mpr fun s => ?_
  simp only [within_cons, within_nil, within_forEach, steady_bump, steady_setFlag, steady_setStream, trigs, steady_setQuad, implies_true, and_self]

theorem wakeless_memberDone (w : CtlWait) (take status : Nat) : (memberDone w take status).Within wakeless := by
  have completes : wakeless.Completes := sparingDev_completes (fun _ _ _ _ _ _ => rfl) fun _ _ => rfl
  have done (e : Cmd) (st : Nat) : (block [raiseCompleted e st, dropCmd take]).Within wakeless :=
    within_cons.mpr ⟨within_look'.mpr fun _ => completes.raiseIn _ _ _ _ _ _, within_cons.mpr ⟨completes.setJournal _, within_nil⟩⟩
  refine within_cons.mpr ⟨within_dev.mpr fun _ => rfl, within_cons.mpr ⟨completes.setJournal _, within_cons.mpr ⟨within_look.mpr fun s => ?_, within_nil⟩⟩⟩
  split
  · exact within_when.mpr fun _ => done _ _
  · trivial

theorem wakeless_satelliteLeaves (q : Nat) : (satelliteLeaves q).Within wakeless := by
  have member (d : Nat) (f : Member → Member) : (setMember d f).Within wakeless := within_dev.mpr fun _ => rfl
  have missing (d : Nat) : (devMissing d).Within wakeless :=
    steady_wakeless (within_look.mpr fun s => within_forEach.mpr fun _ _ => within_forEach.mpr fun _ _ => steady_headMissing _ _)
  have flag : (setFlag (Quad.left q)).Within wakeless := steady_wakeless (steady_setFlag _)
  have event (bs : List Byte) : (raise 0x0C 6 1 bs).Within wakeless := steady_wakeless (steady_raise _ _ _ _)
  refine within_look.mpr fun s => ?_
  split
  · trivial
  · simp only [within_cons, within_nil, within_forEach, member, missing, flag, event, implies_true, and_true, true_and]
    intro w _
    split
    · exact wakeless_memberDone _ _ _
    · trivial

theorem wakeless_linkFalls (q new : Nat) : (linkFalls q new).Within wakeless := by
  have word (f : Fld) (v : Nat) : (set f v).Within wakeless := steady_wakeless (steady_set f v)
  have event (c k n : Nat) (bs : List Byte) : (raise c k n bs).Within wakeless := steady_wakeless (steady_raise _ _ _ _)
  have holdover : (setHoldover true).Within wakeless := steady_wakeless (within_look.mpr fun s => by
    simp only [within_cons, within_nil, within_when, steady_set, steady_setFlag, steady_raise, implies_true, and_self])
  have lock : (setTimeLock q false).Within wakeless := steady_wakeless (within_look.mpr fun s => by
    simp only [within_cons, within_nil, within_when, steady_set, steady_setFlag, steady_raise, implies_true, and_self])
  have quad (f : QuadSt → QuadSt) : (setQuad q f).Within wakeless := steady_wakeless (steady_setQuad _ _)
  refine within_look.mpr fun s => ?_
  simp only [within_ite, within_skip, within_cons, within_nil, within_forEach, within_when, word, event, steady_wakeless (steady_linkAfresh _ _), quad,
    wakeless_satelliteLeaves, holdover, lock, implies_true, and_self]

/-! Clusters and quads that are switched off (R55). -/

theorem steady_offPort (n : Nat) : (offPort n).Within steady := by
  have port : (setPort n fun _ => PortSt.reset).Within steady := steady_dev (fun _ => rfl) fun _ => rfl
  have bus (x : Nat) (f : TwCtl → TwCtl) : (setTwc x f).Within steady := steady_dev (fun _ => rfl) fun _ => rfl
  have transfer (x outcome seg byte : Nat) (data : List Byte) : (endTransfer x outcome seg byte data).Within steady := within_look.mpr fun s => by
    simp only [within_when, within_cons, within_nil, steady_set, bus, steady_bump, steady_raise, steady_completes.finish fun _ => within_skip, implies_true, and_self]
  refine within_look.mpr fun s => ?_
  simp only [tunnelDown, within_cons, within_nil, within_when, within_emit, sparingDev_out, port, steady_setDomain, transfer, implies_true, and_self]

theorem steady_offCluster (c : Nat) (retain : Bool) : (offCluster c retain).Within steady := by
  have idles (f : PwrSt → List Nat) (g : PwrSt → List (Nat × Nat)) : (setPwr fun x => { x with plls := f x, idleUs := g x }).Within steady := steady_setPwr fun _ => rfl
  have pipe (p : Nat) : (offPipe p).Within steady := within_look.mpr fun s => by
    simp only [resetPipe, within_cons, within_nil, within_when, steady_setSleep, steady_setDomain, steady_resetRegs, steady_clearMem, steady_setPipe,
      steady_updateLatency, steady_setEcc, steady_setState, implies_true, and_self]
  have kept (base : Nat) : (offCluster.resetKept c base).Within steady := within_look.mpr fun s => by
    simp only [within_cons, within_nil, steady_resetRegs, steady_set, and_self]
  refine within_look.mpr fun s => ?_
  simp only [within_ite, within_skip, within_cons, within_nil, within_forEach, within_when, within_look, steady_offPort, steady_setSleep, steady_setDomain,
    steady_setState, steady_setPipe, pipe, steady_clearMem, steady_set, kept, steady_setEcc, idles, implies_true, and_self]

theorem wakeless_quadOff (q : Nat) : (quadOff q).Within wakeless := by
  have word (f : Fld) (v : Nat) : (set f v).Within wakeless := steady_wakeless (steady_set f v)
  simp only [quadOff, within_cons, within_nil, within_forEach, wakeless_linkFalls, word, steady_wakeless (steady_setDomain _ _ _), implies_true, and_self]

/-! Entering Standby. -/

theorem steady_gateNodes : gateNodes.Within steady := within_look.mpr fun s => by
  simp only [within_cons, within_nil, within_forEach, within_when, steady_abortCapture, steady_setState, steady_setSleep, implies_true, and_self]

theorem steady_modeChange (new cause : Nat) : (modeChange new cause).Within steady := by
  have alert (k : Nat) : (raiseAlert k).Within steady := within_look'.mpr fun s => within_ite.mpr ⟨fun _ => steady_setTw _, fun _ => trivial⟩
  refine within_look.mpr fun s => ?_
  simp only [within_cons, within_nil, within_when, steady_set, steady_setState, steady_completes.raiseIn, alert, implies_true, and_self]

/-- What enters Standby before the change of mode. -/
def beforeStandby (s : State) : List Prog := [
  gateNodes, pinsSafe,
  forEach allClusters fun c => offCluster c s.dev.pwr.retain,
  forEach (List.range 4) quadOff,
  forEach [0, 1] fun fn => block [set (Bridge.mod0Rate fn) 0, set (Bridge.mod1Rate fn) 0],
  setHost fun h => { h with trained0 := false, trained1 := false, fails0 := 0, fails1 := 0 },
  set TPort.pcsLock 0,
  clearMem 0x100000000 0x3000000, setEcc fun l => l.filter fun e => !isShared e.1,
  forEach [2, 3, 4, 5, 6, 11, 12] fun d => setDomain d false false, setDomain 1 false true,
  dev fun d => { d with sec := { d.sec with breakpoints := [], trace := [] } },
  setFwReady false]

theorem wakeless_beforeStandby (s : State) : (block (beforeStandby s)).Within wakeless := by
  have pins : pinsSafe.Within wakeless := within_look.mpr fun _ => within_forEach.mpr fun _ _ => within_emit.mpr trivial
  have host (f : HostIf → HostIf) : (setHost f).Within wakeless := steady_wakeless (steady_completes.setHost f)
  have word (f : Fld) (v : Nat) : (set f v).Within wakeless := steady_wakeless (steady_set f v)
  have ecc (f : List (Nat × Nat) → List (Nat × Nat)) : (setEcc f).Within wakeless := steady_wakeless (steady_setEcc f)
  have debug (f : SecSt → SecSt) : (dev fun d => { d with sec := f d.sec }).Within wakeless := within_dev.mpr fun _ => rfl
  simp only [beforeStandby, within_cons, within_nil, within_forEach, steady_wakeless steady_gateNodes, pins, steady_wakeless (steady_offCluster _ _),
    wakeless_quadOff, word, host, steady_wakeless (steady_clearMem _ _), ecc, steady_wakeless (steady_setDomain _ _ _), debug (fun x => { x with breakpoints := [], trace := [] }),
    steady_wakeless (steady_setFwReady _), implies_true, and_self]

theorem run_enterStandby (s : State) : run enterStandby s = run (modeChange mStandby byCommand) (run (block (beforeStandby s)) s) := by
  simp only [enterStandby, run_look', run_block_cons, run_block_nil, beforeStandby]

theorem modeTransitionDone_standsBy {s : State} (pending : s.on ModeReg.pending = true) (target : s.get ModeReg.target = mStandby)
    (unwoken : s.dev.pwr.wakeNext = none) :
    Answers .modeTransitionDone s fun t => t.mode = mStandby ∧ t.on ModeReg.pending = false ∧ t.get ModeReg.cause = byCommand := by
  obtain ⟨u, entered⟩ : ∃ u, run (block (beforeStandby s)) s = u := ⟨_, rfl⟩
  have completes : wakeless.Completes := sparingDev_completes (fun _ _ _ _ _ _ => rfl) fun _ _ => rfl
  have still : (run modeDone (run (modeChange mStandby byCommand) u)).dev.pwr.wakeNext = none := by
    have done := (modeDone_completes completes).sparedDev (run (modeChange mStandby byCommand) u)
    have change := (steady_wakeless (steady_modeChange mStandby byCommand)).sparedDev u
    have before := (wakeless_beforeStandby s).sparedDev s
    rw [done, change, ← entered, before, unwoken]
  have shape : exec .modeTransitionDone s = .next (run modeDone (run (modeChange mStandby byCommand) u)) := by
    simp only [modeDone, run_block_cons, run_block_nil] at still
    show execModeTransitionDone s = _
    simp only [execModeTransitionDone, run_look', pending, target, Bool.not_true, Bool.false_eq_true, if_false, if_true, run_block_cons, run_block_nil,
      modeDone, run_enterStandby, entered, still, run_skip]
  exact answers_next shape (modeDone_stays _ _ _ (modeChange_enters (by decide) (by decide) u)).shown

end Sys2Proof.Machine
end


section
/-! An orderly stop closes a stream (R58, R443). -/

namespace Sys2Proof.Machine
open Reg

theorem streamFlds_at (i : Fin 16) : ∀ f ∈ streamFlds i, f.Whole ∧ f.width ≤ 32 ∧ f.addr = 0x01200200 + 0x8000 * i.val
    ∧ (f = Del.state i ∨ (Del.state i).lo + (Del.state i).width ≤ f.lo) := by
  revert i; decide

/-- A stream whose state is None stays so while streams are closed. -/
theorem calm_none (i : Fin 16) : Calm fun s => s.get (Del.state i) = 0 where
  aside := (aside_untold (untold_get (f := Del.state i) (by simp only [Told, Del.state]; omega) (.inl (by simp [Del.state])))).comp fun x => x = 0
  rest p h s := by
    have kept := h.get (f := Del.state i) (fun x => x.1 (by simp only [StateWord, Del.state]; omega)) (.inl (by simp [Del.state])) s
    simp only [kept]
  clears j hj f hf s hs := by
    obtain ⟨whole, -, at_, -⟩ := streamFlds_at i (Del.state i) (List.mem_cons_self ..)
    obtain ⟨-, narrow, at_', beside⟩ := streamFlds_at ⟨j, hj⟩ f hf
    by_cases same : f = Del.state i
    · subst same
      exact (get_set_same _ _ _ whole).trans (Nat.zero_mod _)
    · refine (get_set_apart narrow whole ?_).trans hs
      by_cases here : j = i
      · subst here
        exact .inr (.inl (beside.resolve_left same))
      · exact .inl (by dsimp only at at_'; omega)

theorem clearsStream_none (i : Fin 16) (s : State) : (run (clearsStream i) s).get (Del.state i) = 0 := by
  have calm := calm_none i
  have first : (run (set (Del.state i) 0) s).get (Del.state i) = 0 :=
    (get_set_same _ _ _ (streamFlds_at i (Del.state i) (List.mem_cons_self ..)).1).trans (Nat.zero_mod _)
  have rest : Stays (fun s => s.get (Del.state i) = 0) (forEach ([Del.suspended i, Del.fast i] ++ otherFlds i) fun f => set f 0) := by
    refine stays_forEach fun f hf => ?_
    obtain hs | ho := List.mem_append.mp hf
    · exact calm.clears i i.isLt f (List.mem_cons_of_mem _ hs)
    · exact calm.within (closing_clears i.isLt f ho)
  rw [clearsStream, streamFlds, List.cons_append, run_forEach_cons]
  exact rest _ first

/-- A stream that is closed is admitted no longer. -/
theorem closeNow_none (i : Fin 16) (cause : Nat) (s : State) : (run (closeNow i cause) s).get (Del.state i) = 0 := by
  rw [closeNow, run_look']
  cases admitted : s.admitted i with
  | false =>
    rw [run_when_false]
    exact not_not.mp (of_decide_eq_false admitted)
  | true =>
    rw [run_when_true, run_block_cons, run_block_cons, run_block_nil]
    obtain ⟨u, after, shape, calmly⟩ := releaseStream_parts i.isLt cause
      (run (when (decide ((s.asm i).rows.length + ((s.stream i).fifo.filter fun r => !r.side).length + (s.stream i).flight.length ≠ 0))
        (dropRow i ((s.asm i).rows.length + ((s.stream i).fifo.filter fun r => !r.side).length + (s.stream i).flight.length))) s)
    rw [shape]
    exact (calmly _ (calm_none i)).2 _ (clearsStream_none i u)

/-- An orderly close ends with the stream closed. -/
theorem orderlyClose_none (i : Fin 16) (s : State) : (run (orderlyClose i) s).get (Del.state i) = 0 := by
  obtain ⟨u, shape⟩ : ∃ u, run (orderlyClose i) s = run (closeNow i closedBySafeHold) u := by
    simp only [orderlyClose, run_look', run_block_cons, run_block_nil]
    exact ⟨_, rfl⟩
  rw [shape]
  exact closeNow_none i _ u

theorem orderlyStopStreamClose_closes {i : Fin 16} {s : State} (stopped : s.get Therm.state = 3) (stopping : s.dev.pwr.stopping = true)
    (admitted : s.admitted i.val = true) : Answers (.orderlyStopStreamClose i) s fun t => t.admitted i.val = false := by
  have calm := calm_none i
  have stops : Stays (fun s => s.get (Del.state i) = 0) orderlyStop :=
    stays_look fun _ => stays_ite (fun _ => stays_skip) fun _ => stays_cons (fun _ h => h) (stays_cons (stays_when fun _ => calm.safeHold _) stays_nil)
  have shape : exec (.orderlyStopStreamClose i) s = .next (run orderlyStop (run (orderlyClose i) s)) := by
    show execOrderlyStopStreamClose i s = _
    simp only [execOrderlyStopStreamClose, run_look', stopped, stopping, admitted, decide_true, Bool.and_self, run_when_true, run_block_cons, run_block_nil]
  refine answers_next shape ?_
  have none_ : (run orderlyStop (run (orderlyClose i) s)).get (Del.state i) = 0 := stops _ (orderlyClose_none i s)
  rw [State.admitted, State.sState, none_]
  rfl

/-- Settles O10. -/
theorem powerDomainsAndModesFollow : Obligations.PowerDomainsAndModesFollow := by
  unfold Obligations.PowerDomainsAndModesFollow
  refine ⟨fun _ _ waking => pipelineWakeDone_wakes waking, fun _ _ bound running sleeps => pipelineIdleTimeout_gates bound running sleeps,
    fun _ _ asleep => pipelinePowerDownDone_retains asleep, fun _ _ running idle => clusterIdleTimeout_gates running idle,
    fun _ root standby quiet enabled => ucieSidebandActivity_wakes standby quiet root enabled,
    fun _ satellite standby quiet enabled => cascadeLaneEnergy_wakes standby quiet satellite enabled, fun m s pending target either unwoken => ?_,
    fun _ pending target standby => modeTransitionDone_wakes pending target standby,
    fun _ pending target safe => modeTransitionDone_leavesStop pending target safe,
    fun _ _ stopped stopping admitted => orderlyStopStreamClose_closes stopped stopping admitted⟩
  obtain rfl | rfl := either
  · exact modeTransitionDone_standsBy pending target unwoken
  · exact modeTransitionDone_maintains pending target

end Sys2Proof.Machine
end
